-- ==== Sys2Proof/Word.lean ====
section
/-!
DEFINITION. The word types of the EK416's two ports. Only what the manual treats as bits is a bit vector:
bytes on the ports, tags, 16-bit counters and pattern words, zone masks.
-/
namespace Sys2Proof

/-- One byte on the supervisor port or on the lane bus (R161, R178). -/
abbrev Byte := BitVec 8

/-- A 16-bit value: a tag (R178), a passage counter (R54), a pattern word (R71). -/
abbrev Half := BitVec 16

/-- A zone mask: 32 bits, zone 0 in the lowest bit (R178). -/
abbrev ZoneMask := BitVec 32

end Sys2Proof
end

