-- ==== Sys2Proof/Syntax.lean ====
section
/-!
DEFINITION. The commands of the EK416: one constructor for each row of spec/opcode_table.json.

The block has no instruction memory. A command is a transfer on the supervisor port (the twenty request kinds,
a frame of an unknown kind, a discarded frame, a read transfer), a change of a line or a reset, the passing of one
second of part time, a time-driven event of one of the blocks, or an event of a segment poller.
A request command carries the client byte, the tag and the body of its frame as they travel (R178); the length byte
is 5 plus the length of the body, and the kind code is the constructor's own (chapter 10.2).
-/
namespace Sys2Proof

/-- What gave a cold reset (R187): power-on, or RESET_N asserted. -/
inductive ColdCause
  | power
  | pin
  deriving DecidableEq, Repr

/-- The commands of the EK416, one constructor for each row of the table of operations and events. -/
inductive Instr
  /-- Request 01h (R184). -/
  | identify (client : Byte) (tag : Half) (body : List Byte)
  /-- Request 02h (R183). -/
  | look (client : Byte) (tag : Half) (body : List Byte)
  /-- Request 03h (R183). -/
  | amend (client : Byte) (tag : Half) (body : List Byte)
  /-- Request 04h (R37 to R39). -/
  | claim (client : Byte) (tag : Half) (body : List Byte)
  /-- Request 05h (R41). -/
  | release (client : Byte) (tag : Half) (body : List Byte)
  /-- Request 06h (R44). -/
  | retire (client : Byte) (tag : Half) (body : List Byte)
  /-- Request 07h (R45). -/
  | commission (client : Byte) (tag : Half) (body : List Byte)
  /-- Request 08h (R60, R61). -/
  | steer (client : Byte) (tag : Half) (body : List Byte)
  /-- Request 09h (R65). -/
  | cancelSteer (client : Byte) (tag : Half) (body : List Byte)
  /-- Request 0Ah (R134, R135). -/
  | push (client : Byte) (tag : Half) (body : List Byte)
  /-- Request 0Bh (R136). -/
  | pop (client : Byte) (tag : Half) (body : List Byte)
  /-- Request 0Ch (R143). -/
  | declareFire (client : Byte) (tag : Half) (body : List Byte)
  /-- Request 0Dh (R144). -/
  | clearFire (client : Byte) (tag : Half) (body : List Byte)
  /-- Request 0Eh (R150, R151). -/
  | quiet (client : Byte) (tag : Half) (body : List Byte)
  /-- Request 0Fh (R156). -/
  | wake (client : Byte) (tag : Half) (body : List Byte)
  /-- Request 10h (R189). -/
  | fetch (client : Byte) (tag : Half) (body : List Byte)
  /-- Request 11h (R190). -/
  | fetchDone (client : Byte) (tag : Half) (body : List Byte)
  /-- Request 12h (R183). -/
  | configure (client : Byte) (tag : Half) (body : List Byte)
  /-- Request 13h (R185). -/
  | go (client : Byte) (tag : Half) (body : List Byte)
  /-- Request 14h (R187). -/
  | restart (client : Byte) (tag : Half) (body : List Byte)
  /-- A request transfer that gives no request: the bytes that MOSI delivered in the selection (R179). -/
  | discardedFrame (mosi : List Byte)
  /-- A selection made to read the response, of so many bytes (R180). -/
  | readTransfer (clocks : Nat)
  /-- Power-on or RESET_N (R187). -/
  | coldReset (cause : ColdCause)
  /-- One second of part time passes (R184). -/
  | partTimeTick
  /-- FIRE_IN is seen at a level (R140). -/
  | fireLineChange (asserted : Bool)
  /-- The fire line's count of 2 s completes in NORMAL (R140, R141). -/
  | fireLineActivation
  /-- The fire line's count of 10 s completes in ALARM (R140, R142). -/
  | fireLineRelease
  /-- QUIET_IN is seen at a level (R155). -/
  | quietInChange (asserted : Bool)
  /-- The air evaluation that falls every 15 s (R77). -/
  | airEvaluation
  /-- The hold on the bay of this global number reaches its until (R40). -/
  | holdExpiry (bay : Nat)
  /-- The plain steer of this id reaches its deadline (R64). -/
  | steerExpiry (steer : Nat)
  /-- The passage of this number reaches its wait-until (R58). -/
  | kioskWaitExpiry (passage : Nat)
  /-- The sign of this number reaches its show-until (R73). -/
  | showUntil (sign : Nat)
  /-- The fan of this number reaches its start-ends (R109). -/
  | startEnds (fan : Nat)
  /-- The fan of this number reaches its rundown-ends (R110). -/
  | rundownEnds (fan : Nat)
  /-- The lamp group of this number reaches its bright-until (R122). -/
  | brightUntil (group : Nat)
  /-- The stack entry of this zone at this position (1 at the bottom) reaches its until (R137). -/
  | stackEntryExpiry (zone : Nat) (position : Nat)
  /-- Part time reaches warm-until (R157). -/
  | warmUntil
  /-- Part time reaches the reference time plus the lost time of a head (R170). -/
  | lostTimeReached (segment : Nat) (address : Nat)
  /-- The poller of a segment builds and sends its next poll (R162). -/
  | pollBuild (segment : Nat)
  /-- These bytes are received on a segment within the response window (R160, R163, R165). -/
  | responseAccepted (segment : Nat) (bytes : List Byte)
  /-- The response window of a segment's exchange closes with no valid response (R160). -/
  | miss (segment : Nat)
  /-- In QUIET an idle segment starts its next sweep (R167). -/
  | sweepResume (segment : Nat)
  /-- After an entry to STARTING a segment begins its first sweep (R174). -/
  | startupSweepBegin (segment : Nat)
  /-- A taken request frame whose kind code is not in the table of 10.2 (R181). -/
  | requestKindUnknown (client : Byte) (kind : Byte) (tag : Half) (body : List Byte)
  deriving DecidableEq, Repr

end Sys2Proof
end

