-- ==== Sys2Proof/WellFormed.lean ====
section
/-!
DEFINITION. Which commands are well formed: the operands a command can carry on this part.
A request frame's body is at most 59 bytes (R178); a discarded frame is one that R179 discards; the numbers of
records lie in the ranges of their tables; a frame of unknown kind has a kind code outside the table of 10.2.
-/
namespace Sys2Proof

/-- The longest body of a frame, in bytes (R178). -/
def maxBody : Nat := 59

/-- A request body of at most 59 bytes (R178). -/
def bodyFits (body : List Byte) : Bool := body.length ≤ maxBody

/-- R179: the frame is discarded. Its length byte lies outside 5 to 64, or the selection ended before that many bytes
were delivered; a selection that delivered no byte has no length byte to reach. -/
def isDiscarded (mosi : List Byte) : Bool :=
  match mosi with
  | [] => true
  | n :: _ => n.toNat < 5 || 64 < n.toNat || mosi.length < n.toNat

/-- The request kind codes of 10.2 are 01h to 14h. -/
def isRequestKind (kind : Byte) : Bool := 1 ≤ kind.toNat && kind.toNat ≤ 20

/-- A command whose operands the part can meet. -/
def Instr.wellFormed : Instr → Bool
  | .identify _ _ body => bodyFits body
  | .look _ _ body => bodyFits body
  | .amend _ _ body => bodyFits body
  | .claim _ _ body => bodyFits body
  | .release _ _ body => bodyFits body
  | .retire _ _ body => bodyFits body
  | .commission _ _ body => bodyFits body
  | .steer _ _ body => bodyFits body
  | .cancelSteer _ _ body => bodyFits body
  | .push _ _ body => bodyFits body
  | .pop _ _ body => bodyFits body
  | .declareFire _ _ body => bodyFits body
  | .clearFire _ _ body => bodyFits body
  | .quiet _ _ body => bodyFits body
  | .wake _ _ body => bodyFits body
  | .fetch _ _ body => bodyFits body
  | .fetchDone _ _ body => bodyFits body
  | .configure _ _ body => bodyFits body
  | .go _ _ body => bodyFits body
  | .restart _ _ body => bodyFits body
  | .discardedFrame mosi => isDiscarded mosi
  | .readTransfer _ => true
  | .coldReset _ => true
  | .partTimeTick => true
  | .fireLineChange _ => true
  | .fireLineActivation => true
  | .fireLineRelease => true
  | .quietInChange _ => true
  | .airEvaluation => true
  | .holdExpiry bay => bay < 2048
  | .steerExpiry id => id < 96
  | .kioskWaitExpiry passage => passage < 32
  | .showUntil sign => sign < 48
  | .startEnds fan => fan < 24
  | .rundownEnds fan => fan < 24
  | .brightUntil group => group < 64
  | .stackEntryExpiry zone position => zone < 32 && 1 ≤ position && position ≤ 4
  | .warmUntil => true
  | .lostTimeReached segment address => segment < 4 && 1 ≤ address && address ≤ 30
  | .pollBuild segment => segment < 4
  | .responseAccepted segment _ => segment < 4
  | .miss segment => segment < 4
  | .sweepResume segment => segment < 4
  | .startupSweepBegin segment => segment < 4
  | .requestKindUnknown _ kind _ body => !isRequestKind kind && bodyFits body

end Sys2Proof
end

