-- ==== Sys2Proof/Decode.lean ====
section
/-!
DEFINITION. The command that a request transfer gives: the frame of R178 with its offsets, the kind codes of 10.2, and the
frames that R179 discards. Beside it, the commands that a word spells by the bits of spec/opcode_table.json: no row of that
table gives any bits, so no word spells one.
-/
namespace Sys2Proof

/-- The request of a kind code (10.2), with the client, tag and body of its frame; a code outside the table is an unknown kind
(R181). -/
def requestOf (kind client : Byte) (tag : Half) (body : List Byte) : Instr :=
  match kind.toNat with
  | 0x01 => .identify client tag body
  | 0x02 => .look client tag body
  | 0x03 => .amend client tag body
  | 0x04 => .claim client tag body
  | 0x05 => .release client tag body
  | 0x06 => .retire client tag body
  | 0x07 => .commission client tag body
  | 0x08 => .steer client tag body
  | 0x09 => .cancelSteer client tag body
  | 0x0A => .push client tag body
  | 0x0B => .pop client tag body
  | 0x0C => .declareFire client tag body
  | 0x0D => .clearFire client tag body
  | 0x0E => .quiet client tag body
  | 0x0F => .wake client tag body
  | 0x10 => .fetch client tag body
  | 0x11 => .fetchDone client tag body
  | 0x12 => .configure client tag body
  | 0x13 => .go client tag body
  | 0x14 => .restart client tag body
  | _ => .requestKindUnknown client kind tag body

/-- The command of a request transfer that delivered these bytes on MOSI: length, client, kind code, tag high byte, tag low
byte, body (R178). Bytes beyond the length are ignored; a frame that R179 discards gives no request. -/
def commandOf (mosi : List Byte) : Instr :=
  match mosi with
  | n :: client :: kind :: high :: low :: rest =>
    if isDiscarded mosi then .discardedFrame mosi
    else requestOf kind client (high ++ low) (rest.take (n.toNat - 5))
  | _ => .discardedFrame mosi

/-- The command that the word `w` of `nbits` bits spells by the table's bits: none, since no row of the table has bits. -/
def decodeTableWord (_nbits _w : Nat) : Option Instr := none

end Sys2Proof
end

