-- ==== Sys2Proof/Config.lean ====
section
/-!
DEFINITION. What the part fixes: the sizes of its tables, its codes in IDENTIFY, and its one open value.
-/
namespace Sys2Proof.Config

/-- The number of zone slots (R1). -/
def zoneSlots : Nat := 32
/-- The number of global bay numbers (R2, R22). -/
def bayNumbers : Nat := 2048
/-- The most holds carried at once (R36). -/
def holdLimit : Nat := 256
/-- The number of steer slots (R57). -/
def steerSlots : Nat := 96
/-- The number of passage slots (R49). -/
def passageSlots : Nat := 32
/-- The number of sign slots (R70). -/
def signSlots : Nat := 48
/-- The number of fan slots (R100). -/
def fanSlots : Nat := 24
/-- The number of lamp group slots (R119). -/
def lampSlots : Nat := 64
/-- The most entries of one override stack (R132). -/
def stackDepth : Nat := 4

/-- The vendor code that IDENTIFY returns (R184). -/
def vendorCode : Nat := 0x1D4C
/-- The part code that IDENTIFY returns (R184). -/
def partCode : Nat := 0x0416
/-- The revision that IDENTIFY returns (R184). -/
def revision : Nat := 1

/-- FREE VALUE (notes/assumptions/3.md). What a field of the given number of bytes carries when its number does not
fit in them: R178 gives the field's width and the manual says nothing of a number beyond it. Every range of the manual
fits its field; part time, and a time computed from it, is the one kind of number without an upper bound in the model. -/
opaque overflowedField : (bytes : Nat) → (number : Nat) → Nat

end Sys2Proof.Config
end

