-- ==== Sys2Proof/Machine/Table.lean ====
section
/-!
DEFINITION. A table of records by number: how the part's slots, bay numbers and head addresses are held. A slot that is
listed is configured (or live, for a steer); one that is not listed is free. The canonical form is: numbers strictly rising.
-/
namespace Sys2Proof.Machine

/-- Records by number, in number order. -/
abbrev Table (α : Type) := List (Nat × α)

/-- The record with the number `n`, if there is one. -/
def Table.find {α : Type} : Table α → Nat → Option α
  | [], _ => none
  | (k, v) :: t, n => if n = k then some v else Table.find t n

/-- The table with record `n` made or replaced. -/
def Table.put {α : Type} : Table α → Nat → α → Table α
  | [], n, x => [(n, x)]
  | (k, v) :: t, n, x =>
    if n < k then (n, x) :: (k, v) :: t
    else if n = k then (n, x) :: t
    else (k, v) :: Table.put t n x

/-- The table without record `n`. -/
def Table.del {α : Type} : Table α → Nat → Table α
  | [], _ => []
  | (k, v) :: t, n => if n = k then Table.del t n else (k, v) :: Table.del t n

/-- The table with every record changed by a function of its number and itself. -/
def Table.mapWith {α : Type} (t : Table α) (f : Nat → α → α) : Table α :=
  t.map fun p => (p.1, f p.1 p.2)

/-- The table with record `n`, if there is one, changed by `f`. -/
def Table.upd {α : Type} (t : Table α) (n : Nat) (f : α → α) : Table α :=
  t.mapWith fun k v => if k = n then f v else v

/-- The numbers of the table's records, in order. -/
def Table.keys {α : Type} (t : Table α) : List Nat := t.map Prod.fst

/-- Whether the table holds record `n`. -/
def Table.has {α : Type} (t : Table α) (n : Nat) : Bool := (t.find n).isSome

/-- The canonical form: numbers strictly rising. -/
def Table.wf {α : Type} : Table α → Bool
  | [] => true
  | (k, _) :: t => t.all (fun p => k < p.1) && Table.wf t

end Sys2Proof.Machine
end

