-- ==== Sys2Proof/Machine/State.lean ====
section
/-!
DEFINITION. The whole state of the EK416 as plain data: every record, setting, latch, buffer, line and poller field that
the manual gives the part, and the queue of commands that wait. Then the reasons a step can stop, and the state after
power-on.
-/
namespace Sys2Proof.Machine

/-! ### Device -/

/-- The five operating states (chapter 10.5). -/
inductive DeviceState
  | unconfigured
  | starting
  | running
  | quiet
  | warming
  deriving DecidableEq, Repr

/-- The cause of the last reset (R184). -/
inductive ResetCause
  | power
  | pin
  | restart
  deriving DecidableEq, Repr

/-! ### Override stacks and fire (chapter 7) -/

/-- A ventilation setting of a stack entry. -/
inductive Vent
  | auto
  | min (n : Nat)
  | hold (n : Nat)
  | extract
  | halt
  deriving DecidableEq, Repr

/-- A lighting setting of a stack entry. -/
inductive Lighting
  | auto
  | full
  | guard
  | egress
  deriving DecidableEq, Repr

/-- A guidance setting of a stack entry. -/
inductive GuideSetting
  | auto
  | closed
  deriving DecidableEq, Repr

/-- One entry of an override stack (chapter 7.1). -/
structure StackEntry where
  level : Nat
  client : Nat
  vent : Vent
  lighting : Lighting
  guide : GuideSetting
  pushedAt : Nat
  /-- The until; absent for an entry without expiry. -/
  expiry : Option Nat
  deriving DecidableEq, Repr

/-- The fire state of a zone: NONE, ACTIVE or HELD (R139). -/
inductive FireState
  | noFire
  | active
  | held
  deriving DecidableEq, Repr

/-- Why a fire state changed (R146). -/
inductive FireCause
  | line
  | release
  | declare
  | clear
  deriving DecidableEq, Repr

/-- The fire line filter (R140). `asserted` is the line level as last seen. -/
structure FireLine where
  alarm : Bool
  asserted : Bool
  changeSince : Option Nat
  deriving DecidableEq, Repr

/-! ### Zones (chapter 1) and their air (chapter 4) -/

/-- The kinds of bay. -/
inductive BayKind
  | standard
  | wide
  | charge
  deriving DecidableEq, Repr

/-- The category of a bay (R23). -/
inductive Category
  | free
  | occupied
  | held
  | unavailable
  deriving DecidableEq, Repr

/-- The stored counts of one kind of bay in a zone (R7, R8). -/
structure KindCounts where
  free : Nat
  occupied : Nat
  held : Nat
  unavailable : Nat
  inTransit : Nat
  deriving DecidableEq, Repr

/-- The stored counts of a zone, by kind. -/
structure Counts where
  standard : KindCounts
  wide : KindCounts
  charge : KindCounts
  deriving DecidableEq, Repr

/-- The lane address of a head. -/
structure HeadId where
  segment : Nat
  address : Nat
  deriving DecidableEq, Repr

/-- The five air states. -/
inductive AirState
  | clear
  | watch
  | act
  | bar
  | blind
  deriving DecidableEq, Repr

/-- A zone reading with its reading time (R78). -/
structure Reading where
  value : Nat
  time : Nat
  deriving DecidableEq, Repr

/-- The guidance state of a zone (R10); `opened` is OPEN. -/
inductive Guidance
  | opened
  | closedStart
  | closedAir
  | closedFire
  | closedOverride
  deriving DecidableEq, Repr

/-- The configuration fields of a zone (chapter 1.2). -/
structure ZoneConfig where
  level : Nat
  bayBase : Nat
  bayCount : Nat
  airHeads : List HeadId
  travelTime : Nat
  baseStep : Nat
  quietBase : Nat
  blindStep : Nat
  longAllowed : Bool
  fireGroup : Bool
  /-- The fire role flag: set for HALT, clear for EXTRACT. -/
  haltRole : Bool
  deriving DecidableEq, Repr

/-- The air fields of a zone and the evaluator's working fields for it (chapters 1.1 and 4.1). Averages and
anticipation are in 1/256 units. -/
structure ZoneAir where
  coReading : Option Reading
  noReading : Option Reading
  fCO : Nat
  sCO : Nat
  fNO : Nat
  sNO : Nat
  antCO : Nat
  seeded : Bool
  state : AirState
  dwell : Nat
  autoDemand : Nat
  candidate : Option AirState
  blindReported : Bool
  deriving DecidableEq, Repr

/-- A zone record (chapter 1.1), with its override stack (bottom first) and fire flags (chapter 7). -/
structure Zone where
  config : ZoneConfig
  counts : Counts
  air : ZoneAir
  demand : Nat
  fire : FireState
  lineFlag : Bool
  declaredFlag : Bool
  guidance : Guidance
  stack : List StackEntry
  deriving DecidableEq, Repr

/-- The evaluator's settings (chapter 4.6). -/
structure AirSettings where
  watchCO : Nat
  actCO : Nat
  barCO : Nat
  watchNO : Nat
  actNO : Nat
  barNO : Nat
  coldCredit : Nat
  passCredit : Nat
  staleHold : Nat
  deriving DecidableEq, Repr

/-! ### Bays and holds (chapter 2) -/

/-- The bay-head sensor that watches a bay. -/
structure Binding where
  segment : Nat
  address : Nat
  sensor : Nat
  deriving DecidableEq, Repr

/-- Whether a bay is offered at all. -/
inductive Service
  | inService
  | outOfService
  deriving DecidableEq, Repr

/-- Whether the part knows a bay's occupancy. -/
inductive Sense
  | sensed
  | fault
  | unsensed
  deriving DecidableEq, Repr

/-- A bay's confirmed occupancy, or a change that waits to be confirmed. -/
inductive Occupancy
  | vacant
  | arriving
  | present
  | departing
  deriving DecidableEq, Repr

/-- A reservation of a bay. `expiry` is its until. -/
structure Hold where
  client : Nat
  tag : Half
  expiry : Nat
  deriving DecidableEq, Repr

/-- The ways a hold ends (chapter 2.6). -/
inductive HoldEnding
  | taken
  | expired
  | released
  | lost
  deriving DecidableEq, Repr

/-- A bay record (chapter 2.1). Its zone and index follow from its global number, its category from R23. An absent
binding is SENSORLESS. -/
structure Bay where
  kind : BayKind
  binding : Option Binding
  service : Service
  locked : Bool
  sense : Sense
  occupancy : Occupancy
  pendingSince : Option Nat
  lastChange : Nat
  hold : Option Hold
  deriving DecidableEq, Repr

/-! ### Steers, passages and signs (chapter 3) -/

/-- The class of a vehicle (R53). -/
inductive VehicleClass
  | car
  | van
  | long
  | unknown
  deriving DecidableEq, Repr

/-- The state of a live steer. -/
inductive SteerState
  | inTransit
  | redirected
  deriving DecidableEq, Repr

/-- The outcome of a retired steer (R57). -/
inductive SteerOutcome
  | settled
  | expired
  | cancelled
  | displaced
  deriving DecidableEq, Repr

/-- A live steer (chapter 3.4). A held steer has a hold bay, as zone and index. -/
structure Steer where
  state : SteerState
  origin : Nat
  kind : BayKind
  long : Bool
  vclass : VehicleClass
  target : Nat
  firstTarget : Option Nat
  issued : Nat
  deadline : Nat
  holdBay : Option (Nat × Nat)
  deriving DecidableEq, Repr

/-- The kinds of passage. -/
inductive PassageKind
  | entry
  | exit
  | ramp
  deriving DecidableEq, Repr

/-- The direction of a passage (R53). -/
inductive Direction
  | forward
  | reverse
  deriving DecidableEq, Repr

/-- The eight counters of a passage, 16 bits each (R54). -/
structure PassageCounters where
  forward : Half
  reverse : Half
  guided : Half
  full : Half
  settled : Half
  expired : Half
  cancelled : Half
  overflow : Half
  deriving DecidableEq, Repr

/-- The last passage that a passage record took (R55). -/
structure LastPassage where
  direction : Direction
  vclass : VehicleClass
  length : Option Nat
  time : Nat
  deriving DecidableEq, Repr

/-- The configuration of a passage (chapter 3.1). -/
structure PassageConfig where
  kind : PassageKind
  head : HeadId
  fromZone : Option Nat
  toZone : Option Nat
  preference : List Nat
  entrySign : Option Nat
  spacing : Nat
  loopLength : Nat
  wakeFlag : Bool
  kioskWindow : Nat
  deriving DecidableEq, Repr

/-- A passage record. -/
structure Passage where
  config : PassageConfig
  counters : PassageCounters
  kioskWait : Nat
  waitUntil : Option Nat
  last : Option LastPassage
  deriving DecidableEq, Repr

/-- The passage unit's settings (R51). -/
structure PassageSettings where
  carLimit : Nat
  vanLimit : Nat
  deriving DecidableEq, Repr

/-- The configuration of a sign (chapter 3.9). -/
structure SignConfig where
  head : HeadId
  watched : List Nat
  directions : List (Nat × Nat)
  showTime : Nat
  hostFlag : Bool
  deriving DecidableEq, Repr

/-- A show that runs on an entry sign (R73). `expiry` is its show-until. -/
structure Show where
  situation : Nat
  zone : Option Nat
  expiry : Nat
  deriving DecidableEq, Repr

/-- What a sign was last sent (R72). -/
structure LastSent where
  situation : Nat
  word : Half
  count : Nat
  deriving DecidableEq, Repr

/-- A sign record. -/
structure Sign where
  config : SignConfig
  shown : Option Show
  lastSent : Option LastSent
  headFault : Bool
  deriving DecidableEq, Repr

/-- An entry of the pattern table (R71). -/
structure Pattern where
  word : Half
  showCount : Bool
  deriving DecidableEq, Repr

/-! ### Fans (chapter 5) -/

/-- The nine states of a fan. -/
inductive FanState
  | unreached
  | stopped
  | queued
  | starting
  | running
  | rundown
  | tripped
  | lockedOut
  | localControl
  deriving DecidableEq, Repr

/-- A fan record (chapter 5.1). -/
structure Fan where
  head : HeadId
  zone : Nat
  assist : Option Nat
  state : FanState
  target : Nat
  commanded : Nat
  observed : Nat
  runFlag : Bool
  tripFlag : Bool
  localFlag : Bool
  reportTime : Option Nat
  trips : List Nat
  startEnds : Option Nat
  rundownEnds : Option Nat
  timeQueued : Option Nat
  deriving DecidableEq, Repr

/-- The fan drive's settings (R101). -/
structure FanSettings where
  startLimit : Nat
  startTime : Nat
  minOffTime : Nat
  deriving DecidableEq, Repr

/-! ### Lamp groups (chapter 6) -/

/-- The case of R124 that gave a level. -/
inductive LevelReason
  | fire
  | air
  | override
  | starting
  | quiet
  | bright
  | dim
  deriving DecidableEq, Repr

/-- A lamp group record (chapter 6.1). `effective` is the effective level, `commanded` the level on the polls. -/
structure LampGroup where
  head : HeadId
  zone : Nat
  guardLevel : Nat
  lowLevel : Nat
  holdTime : Nat
  egress : Bool
  motionFlag : Bool
  bright : Bool
  brightUntil : Option Nat
  effective : Nat
  reason : LevelReason
  commanded : Nat
  observed : Nat
  failed : Nat
  motionSeen : Bool
  reportTime : Option Nat
  deriving DecidableEq, Repr

/-! ### Quiet control (chapter 8) -/

/-- How the present quiet spell is to end. -/
inductive QuietMode
  | noMode
  | untilWake
  | whileLine
  deriving DecidableEq, Repr

/-- What a wake was (R154). -/
inductive WakeCause
  | wake
  | passage
  | air
  | fire
  | motion
  | line
  deriving DecidableEq, Repr

/-- Quiet control (chapter 8.1). `line` is QUIET_IN as last seen; the warm set holds head keys in order. -/
structure Quiet where
  mode : QuietMode
  line : Bool
  enteredAt : Option Nat
  wakeTime : Option Nat
  wakeCause : Option WakeCause
  warmUntil : Option Nat
  warmSet : List Nat
  keepalive : Nat
  warmTime : Nat
  deriving DecidableEq, Repr

/-! ### The lane poller (chapter 9) -/

/-- The six kinds of head. -/
inductive HeadKind
  | bay
  | air
  | loop
  | fan
  | lamp
  | sign
  deriving DecidableEq, Repr

/-- The states of a head (chapter 9.5). -/
inductive HeadState
  | listed
  | live
  | silent
  | lost
  | mismatch
  deriving DecidableEq, Repr

/-- A head's last report: the payload as received and its report time (R165). -/
structure HeadReport where
  payload : List Byte
  time : Nat
  deriving DecidableEq, Repr

/-- A head record (chapter 9.5). `lostSince` is the time at which a LOST head went LOST, which HEAD_BACK reports
(R173). -/
structure Head where
  kind : HeadKind
  wake : Bool
  state : HeadState
  misses : Nat
  lastValid : Option Nat
  reference : Option Nat
  report : Option HeadReport
  status : Option Byte
  kindSeen : Option HeadKind
  lastPolled : Option Nat
  toggle : Bool
  lostSince : Option Nat
  deriving DecidableEq, Repr

/-- An exchange in flight (R160): the address polled, the poll frame sent, the bytes received so far in its response
window (R163), whether a wake has come since the poll was sent (R157), and whether the head was removed while it was in
flight, so that its result is discarded (R166). -/
structure Exchange where
  address : Nat
  frame : List Byte
  received : List Byte
  beforeWake : Bool
  discarded : Bool
  deriving DecidableEq, Repr

/-- Where a segment poller stands (R166, R167, R174). `idle`: no sweep runs. `awaitingStart`: STARTING has been entered
and the first sweep has not begun. `sweeping`: the listed addresses that the present sweep has yet to visit, in order.
`waiting`: a sweep in QUIET passed over every head, and the next one starts when a head becomes due. -/
inductive Sweep
  | idle
  | awaitingStart
  | sweeping (todo : List Nat)
  | waiting
  deriving DecidableEq, Repr

/-- A segment poller. `sweepCount` counts the sweeps ended since the last entry to STARTING, up to 3 (R174).
`keepaliveTail` is set while a sweep that was under way when the device left QUIET still runs (R167). -/
structure Segment where
  sweepCount : Nat
  sweep : Sweep
  keepaliveTail : Bool
  exchange : Option Exchange
  deriving DecidableEq, Repr

/-! ### The supervisor port (chapter 10) -/

/-- An attention source and its latch (chapter 10.6). The detail is held as FETCH returns it (R178). -/
structure Source where
  level : Nat
  enabled : Bool
  isSet : Bool
  mask : ZoneMask
  count : Nat
  firstSet : Option Nat
  detail : Option (List Byte)
  deriving DecidableEq, Repr

/-! ### The whole part -/

/-- The state of the EK416. -/
structure State where
  /-- The MODEL's own field: the commands that wait, first in, first out. -/
  pending : List Instr
  /-- Part time, in seconds since the last reset (R184). -/
  partTime : Nat
  /-- The cause of the last reset (R184). -/
  resetCause : ResetCause
  /-- The device state (chapter 10.5). -/
  device : DeviceState
  /-- The zone table: the configured zones by zone number (R1). -/
  zones : Table Zone
  /-- The bay table: bay records by global number (R22). -/
  bays : Table Bay
  /-- The settle time (R26). -/
  settleTime : Nat
  /-- The device-wide count of holds carried (R36). -/
  holdCount : Nat
  /-- The steer table: live steers by slot id (R57). -/
  steers : Table Steer
  /-- The configured passages by number (R49). -/
  passages : Table Passage
  /-- The car and van limits (R51). -/
  passageSettings : PassageSettings
  /-- The configured signs by number (R70). -/
  signs : Table Sign
  /-- The pattern table (R71). -/
  patterns : Vector Pattern 32
  /-- The evaluator's settings (R93). -/
  airSettings : AirSettings
  /-- The start time of the present run of air evaluations (R77). -/
  startTime : Nat
  /-- The part time of the next air evaluation, absent in UNCONFIGURED (R77, R98). -/
  nextEvaluation : Option Nat
  /-- The configured fans by number (R100). -/
  fans : Table Fan
  /-- The fan drive's settings (R101). -/
  fanSettings : FanSettings
  /-- The configured lamp groups by number (R119). -/
  lamps : Table LampGroup
  /-- The lamp fault threshold (R120). -/
  faultThreshold : Nat
  /-- The fire line filter (R140). -/
  fireLine : FireLine
  /-- Quiet control (chapter 8.1). -/
  quiet : Quiet
  /-- The configured heads by key: 32 times the segment plus the address (chapter 9.5). -/
  heads : Table Head
  /-- The four segment pollers (chapter 9.1). -/
  segments : Vector Segment 4
  /-- The lost time (R176). -/
  lostTime : Nat
  /-- The client table: the level of each client slot (R182). -/
  clients : Vector Nat 8
  /-- The attention unit: the sixteen sources with their latches (R188). -/
  sources : Vector Source 16
  /-- The FETCH mask (R189). -/
  fetchMask : Bool
  /-- The response buffer (R180). -/
  response : Option (List Byte)
  /-- The MODEL's own field: the bytes that MISO carried in the last selection (R179, R180). -/
  miso : List Byte
  deriving DecidableEq, Repr

/-- No meaning of this part stops with a fault: the manual gives every command an effect, or says that it has none.
The type has no constructor, which is safe. -/
inductive Fault
  deriving DecidableEq, Repr

/-- The reasons for which the model refuses a command. -/
inductive Refusal
  /-- Raised by an arm of exec whose command has no meaning yet; safe, since nothing is claimed of it. -/
  | notModelled (mnemonic : String)
  deriving DecidableEq, Repr

/-! ### The state after power-on -/

/-- The default level of an attention source (chapter 10.6). -/
def defaultSourceLevel : Nat → Nat
  | 0 => 0
  | 1 => 0
  | 2 => 1
  | 3 => 1
  | 4 => 1
  | 5 => 1
  | 6 => 1
  | 7 => 3
  | 8 => 2
  | 9 => 2
  | 10 => 2
  | 11 => 3
  | 12 => 3
  | 13 => 2
  | 14 => 2
  | _ => 3

/-- A source with its latch clear. -/
def Source.clear (level : Nat) (enabled : Bool) : Source where
  level := level
  enabled := enabled
  isSet := false
  mask := 0
  count := 0
  firstSet := none
  detail := none

/-- A segment poller that is idle. -/
def Segment.off : Segment where
  sweepCount := 0
  sweep := .idle
  keepaliveTail := false
  exchange := none

/-- The evaluator's default settings (chapter 4.6). -/
def AirSettings.defaults : AirSettings where
  watchCO := 25
  actCO := 50
  barCO := 150
  watchNO := 500
  actNO := 1000
  barNO := 3000
  coldCredit := 3
  passCredit := 1
  staleHold := 120

/-- The state right after power-on: the cold reset values of every block (R1, R26, R48, R51, R71, R75, R99, R101, R118,
R131, R148, R159, R177, R182, R187, R188), with the two line inputs deasserted (notes/assumptions/1.md). -/
def State.reset : State where
  pending := []
  partTime := 0
  resetCause := .power
  device := .unconfigured
  zones := []
  bays := []
  settleTime := 6
  holdCount := 0
  steers := []
  passages := []
  passageSettings := { carLimit := 520, vanLimit := 700 }
  signs := []
  patterns := Vector.replicate 32 { word := 0, showCount := false }
  airSettings := AirSettings.defaults
  startTime := 0
  nextEvaluation := none
  fans := []
  fanSettings := { startLimit := 2, startTime := 8, minOffTime := 20 }
  lamps := []
  faultThreshold := 3
  fireLine := { alarm := false, asserted := false, changeSince := none }
  quiet :=
    { mode := .noMode, line := false, enteredAt := none, wakeTime := none, wakeCause := none, warmUntil := none,
      warmSet := [], keepalive := 60, warmTime := 10 }
  heads := []
  segments := Vector.replicate 4 Segment.off
  lostTime := 20
  clients := Vector.ofFn fun i => if i.val = 0 then 0 else 3
  sources := Vector.ofFn fun i => Source.clear (defaultSourceLevel i.val) true
  fetchMask := false
  response := none
  miso := []

end Sys2Proof.Machine
end

