-- ==== Sys2Proof/Machine/Operands.lean ====
section
/-!
DEFINITION. The fields of frames (R178): how a number, a flag, an optional field, a list and each enumeration are carried
in a body, read from a request and written in a response. A reader takes the bytes that are left and answers the value
with the rest, or nothing when the bytes are too few or the field is malformed.
-/
namespace Sys2Proof.Machine

/-! ### Reading a request body -/

/-- A reader of one field of a body. -/
abbrev Reader (α : Type) := List Byte → Option (α × List Byte)

/-- A number of one byte. -/
def readU8 : Reader Nat
  | b :: rest => some (b.toNat, rest)
  | [] => none

/-- A number of two bytes, most significant first. -/
def readU16 : Reader Nat
  | a :: b :: rest => some (256 * a.toNat + b.toNat, rest)
  | _ => none

/-- A number of four bytes, most significant first. -/
def readU32 : Reader Nat
  | a :: b :: c :: d :: rest =>
    some (16777216 * a.toNat + 65536 * b.toNat + 256 * c.toNat + d.toNat, rest)
  | _ => none

/-- A 16-bit word: a tag or a pattern word. -/
def readHalf : Reader Half
  | a :: b :: rest => some (a ++ b, rest)
  | _ => none

/-- A zone mask. -/
def readMask : Reader ZoneMask
  | a :: b :: c :: d :: rest => some (a ++ b ++ c ++ d, rest)
  | _ => none

/-- A flag: 00h clear, 01h set; another byte is malformed. -/
def readFlag : Reader Bool
  | b :: rest => if b = 0 then some (false, rest) else if b = 1 then some (true, rest) else none
  | [] => none

/-- One byte of flags. -/
def readByte : Reader Byte
  | b :: rest => some (b, rest)
  | [] => none

/-- A field that may be absent: preceded by 00h for absent, 01h for present; another byte is malformed. -/
def readOpt {α : Type} (r : Reader α) : Reader (Option α)
  | b :: rest =>
    if b = 0 then some (none, rest)
    else if b = 1 then (r rest).map fun p => (some p.1, p.2)
    else none
  | [] => none

/-- So many fields one after another. -/
def readMany {α : Type} (r : Reader α) : Nat → Reader (List α)
  | 0, bytes => some ([], bytes)
  | n + 1, bytes => do
    let (x, bytes) ← r bytes
    let (xs, bytes) ← readMany r n bytes
    return (x :: xs, bytes)

/-- A list, preceded by its count. -/
def readList {α : Type} (r : Reader α) : Reader (List α) := fun bytes => do
  let (n, bytes) ← readU8 bytes
  readMany r n bytes

/-- A lane address: segment, address. -/
def readHead : Reader HeadId := fun bytes => do
  let (segment, bytes) ← readU8 bytes
  let (address, bytes) ← readU8 bytes
  return ({ segment := segment, address := address }, bytes)

/-- A binding: segment, address, sensor; SENSORLESS is carried as an absent binding. -/
def readBinding : Reader Binding := fun bytes => do
  let (segment, bytes) ← readU8 bytes
  let (address, bytes) ← readU8 bytes
  let (sensor, bytes) ← readU8 bytes
  return ({ segment := segment, address := address, sensor := sensor }, bytes)

/-- A pair of a sign's direction map: zone, situation. -/
def readPair : Reader (Nat × Nat) := fun bytes => do
  let (zone, bytes) ← readU8 bytes
  let (situation, bytes) ← readU8 bytes
  return ((zone, situation), bytes)

/-- An entry of a pattern table CONFIGURE: code, word, flag (R71). -/
def readPatternEntry : Reader (Nat × Pattern) := fun bytes => do
  let (code, bytes) ← readU8 bytes
  let (word, bytes) ← readHalf bytes
  let (flag, bytes) ← readFlag bytes
  return ((code, { word := word, showCount := flag }), bytes)

/-- A ventilation setting as it travels: its code, and n where MIN or HOLD carries it. -/
def readVent : Reader (Nat × Option Nat) := fun bytes => do
  let (code, bytes) ← readU8 bytes
  if code = 1 ∨ code = 2 then
    let (n, bytes) ← readU8 bytes
    return ((code, some n), bytes)
  else return ((code, none), bytes)

/-! ### Writing a response body -/

/-- The lowest `w` bytes of a number, most significant first. -/
def bigEndian : Nat → Nat → List Byte
  | 0, _ => []
  | w + 1, n => BitVec.ofNat 8 (n / 256 ^ w) :: bigEndian w n

/-- A number in a field of `w` bytes. A number that does not fit is an open value of the manual (notes/assumptions/3.md). -/
def number (w n : Nat) : List Byte :=
  if n < 256 ^ w then bigEndian w n else bigEndian w (Config.overflowedField w n)

/-- A number of one byte. -/
def u8 (n : Nat) : List Byte := number 1 n
/-- A number of two bytes. -/
def u16 (n : Nat) : List Byte := number 2 n
/-- A number of four bytes; a part time takes this form. -/
def u32 (n : Nat) : List Byte := number 4 n

/-- A 16-bit word, high byte first. -/
def halfBytes (h : Half) : List Byte := [h.extractLsb' 8 8, h.extractLsb' 0 8]

/-- A zone mask. -/
def maskBytes (m : ZoneMask) : List Byte :=
  [m.extractLsb' 24 8, m.extractLsb' 16 8, m.extractLsb' 8 8, m.extractLsb' 0 8]

/-- A flag: 00h clear, 01h set. -/
def flagByte (b : Bool) : List Byte := [if b then 1 else 0]

/-- A flag set: bit 0 is the first flag. -/
def flagSet (flags : List Bool) : List Byte :=
  [BitVec.ofNat 8 (flags.foldr (fun b n => (if b then 1 else 0) + 2 * n) 0)]

/-- A field that may be absent. -/
def optBytes {α : Type} (enc : α → List Byte) : Option α → List Byte
  | none => [0]
  | some x => 1 :: enc x

/-- A list, preceded by its count. -/
def listBytes {α : Type} (enc : α → List Byte) (xs : List α) : List Byte := u8 xs.length ++ xs.flatMap enc

/-- A part time that may be absent. -/
def timeOpt (t : Option Nat) : List Byte := optBytes u32 t

/-- A lane address. -/
def headBytes (h : HeadId) : List Byte := u8 h.segment ++ u8 h.address

/-- A binding. -/
def bindingBytes (b : Binding) : List Byte := u8 b.segment ++ u8 b.address ++ u8 b.sensor

/-- A handle: zone, index. -/
def handleBytes (h : Nat × Nat) : List Byte := u8 h.1 ++ u8 h.2

/-! ### The enumerations (the table of R178) -/

/-- Device state codes (R184). -/
def DeviceState.code : DeviceState → Nat
  | .unconfigured => 0
  | .starting => 1
  | .running => 2
  | .quiet => 3
  | .warming => 4

/-- Reset cause codes (R184). -/
def ResetCause.code : ResetCause → Nat
  | .power => 0
  | .pin => 1
  | .restart => 2

/-- Air state and candidate codes. -/
def AirState.code : AirState → Nat
  | .clear => 0
  | .watch => 1
  | .act => 2
  | .bar => 3
  | .blind => 4

/-- Guidance state codes. -/
def Guidance.code : Guidance → Nat
  | .opened => 0
  | .closedStart => 1
  | .closedAir => 2
  | .closedFire => 3
  | .closedOverride => 4

/-- Fire state codes. -/
def FireState.code : FireState → Nat
  | .noFire => 0
  | .active => 1
  | .held => 2

/-- Fire cause codes. -/
def FireCause.code : FireCause → Nat
  | .line => 0
  | .release => 1
  | .declare => 2
  | .clear => 3

/-- Bay kind codes. -/
def BayKind.code : BayKind → Nat
  | .standard => 0
  | .wide => 1
  | .charge => 2

/-- The bay kind of a code. -/
def BayKind.ofCode : Nat → Option BayKind
  | 0 => some .standard
  | 1 => some .wide
  | 2 => some .charge
  | _ => none

/-- Category codes. -/
def Category.code : Category → Nat
  | .free => 0
  | .occupied => 1
  | .held => 2
  | .unavailable => 3

/-- Service codes. -/
def Service.code : Service → Nat
  | .inService => 0
  | .outOfService => 1

/-- The service of a code. -/
def Service.ofCode : Nat → Option Service
  | 0 => some .inService
  | 1 => some .outOfService
  | _ => none

/-- Sense codes. -/
def Sense.code : Sense → Nat
  | .sensed => 0
  | .fault => 1
  | .unsensed => 2

/-- Occupancy codes. -/
def Occupancy.code : Occupancy → Nat
  | .vacant => 0
  | .arriving => 1
  | .present => 2
  | .departing => 3

/-- Hold ending codes. -/
def HoldEnding.code : HoldEnding → Nat
  | .taken => 0
  | .expired => 1
  | .released => 2
  | .lost => 3

/-- Head kind codes (R161). -/
def HeadKind.code : HeadKind → Nat
  | .bay => 1
  | .air => 2
  | .loop => 3
  | .fan => 4
  | .lamp => 5
  | .sign => 6

/-- The head kind of a code (R161). -/
def HeadKind.ofCode : Nat → Option HeadKind
  | 1 => some .bay
  | 2 => some .air
  | 3 => some .loop
  | 4 => some .fan
  | 5 => some .lamp
  | 6 => some .sign
  | _ => none

/-- Head state codes. -/
def HeadState.code : HeadState → Nat
  | .listed => 0
  | .live => 1
  | .silent => 2
  | .lost => 3
  | .mismatch => 4

/-- Passage kind codes. -/
def PassageKind.code : PassageKind → Nat
  | .entry => 0
  | .exit => 1
  | .ramp => 2

/-- The passage kind of a code. -/
def PassageKind.ofCode : Nat → Option PassageKind
  | 0 => some .entry
  | 1 => some .exit
  | 2 => some .ramp
  | _ => none

/-- Direction codes. -/
def Direction.code : Direction → Nat
  | .forward => 0
  | .reverse => 1

/-- Vehicle class codes. -/
def VehicleClass.code : VehicleClass → Nat
  | .car => 0
  | .van => 1
  | .long => 2
  | .unknown => 3

/-- Steer state codes. -/
def SteerState.code : SteerState → Nat
  | .inTransit => 0
  | .redirected => 1

/-- A ventilation setting: its code, and n after MIN and HOLD. -/
def Vent.bytes : Vent → List Byte
  | .auto => u8 0
  | .min n => u8 1 ++ u8 n
  | .hold n => u8 2 ++ u8 n
  | .extract => u8 3
  | .halt => u8 4

/-- Lighting setting codes. -/
def Lighting.code : Lighting → Nat
  | .auto => 0
  | .full => 1
  | .guard => 2
  | .egress => 3

/-- The lighting setting of a code. -/
def Lighting.ofCode : Nat → Option Lighting
  | 0 => some .auto
  | 1 => some .full
  | 2 => some .guard
  | 3 => some .egress
  | _ => none

/-- Guidance setting codes. -/
def GuideSetting.code : GuideSetting → Nat
  | .auto => 0
  | .closed => 1

/-- The guidance setting of a code. -/
def GuideSetting.ofCode : Nat → Option GuideSetting
  | 0 => some .auto
  | 1 => some .closed
  | _ => none

/-- Fan state codes. -/
def FanState.code : FanState → Nat
  | .unreached => 0
  | .stopped => 1
  | .queued => 2
  | .starting => 3
  | .running => 4
  | .rundown => 5
  | .tripped => 6
  | .lockedOut => 7
  | .localControl => 8

/-- Lamp level reason codes. -/
def LevelReason.code : LevelReason → Nat
  | .fire => 0
  | .air => 1
  | .override => 2
  | .starting => 3
  | .quiet => 4
  | .bright => 5
  | .dim => 6

/-- Quiet mode codes. -/
def QuietMode.code : QuietMode → Nat
  | .noMode => 0
  | .untilWake => 1
  | .whileLine => 2

/-- The modes a QUIET request may carry (R150). -/
def QuietMode.ofCode : Nat → Option QuietMode
  | 1 => some .untilWake
  | 2 => some .whileLine
  | _ => none

/-- Wake cause codes. -/
def WakeCause.code : WakeCause → Nat
  | .wake => 0
  | .passage => 1
  | .air => 2
  | .fire => 3
  | .motion => 4
  | .line => 5

/-! ### Results (chapter 10.2) -/

/-- The result codes. -/
inductive Result
  | done
  | clamped
  | authority
  | noRecord
  | range
  | locked
  | combination
  | full
  | notNow
  | form
  deriving DecidableEq, Repr

/-- Result codes. -/
def Result.code : Result → Nat
  | .done => 0
  | .clamped => 1
  | .authority => 2
  | .noRecord => 3
  | .range => 4
  | .locked => 5
  | .combination => 6
  | .full => 7
  | .notNow => 8
  | .form => 9

/-- What a serving rule answers: the result, the result detail (00h unless a rule names one) and the body. -/
structure Reply where
  result : Result
  detail : Nat
  body : List Byte
  deriving DecidableEq, Repr

/-- An answer with no detail. -/
def Reply.of (r : Result) (body : List Byte) : Reply := { result := r, detail := 0, body := body }

/-- A refusal with an empty body (R179). -/
def Reply.refuse (r : Result) : Reply := Reply.of r []

/-- DONE with a body. -/
def Reply.done (body : List Byte) : Reply := Reply.of .done body

/-- CLAMPED when a value was brought into range, DONE otherwise (R183). -/
def Reply.clampedIf (c : Bool) (body : List Byte) : Reply := Reply.of (if c then .clamped else .done) body

/-- The response frame (R178): length, tag, result code, result detail, body. -/
def Reply.frame (tag : Half) (r : Reply) : List Byte :=
  u8 (5 + r.body.length) ++ halfBytes tag ++ u8 r.result.code ++ u8 r.detail ++ r.body

end Sys2Proof.Machine
end

