-- ==== Sys2Proof/Machine/Ops.lean ====
section
/-!
DEFINITION. The named operations over the state: one update for each field, and the accessors that every block shares
(records by number, counts by kind and category, head keys, bay ranges and handles, clamping, zone masks).
-/
namespace Sys2Proof.Machine

/-! ### One update for each field of State -/

/-- The state with `pending` replaced. -/
def State.setPending (s : State) (x : List Instr) : State := { s with pending := x }

/-- The state with `partTime` replaced. -/
def State.setPartTime (s : State) (x : Nat) : State := { s with partTime := x }

/-- The state with `resetCause` replaced. -/
def State.setResetCause (s : State) (x : ResetCause) : State := { s with resetCause := x }

/-- The state with `device` replaced. -/
def State.setDevice (s : State) (x : DeviceState) : State := { s with device := x }

/-- The state with `zones` replaced. -/
def State.setZones (s : State) (x : Table Zone) : State := { s with zones := x }

/-- The state with `bays` replaced. -/
def State.setBays (s : State) (x : Table Bay) : State := { s with bays := x }

/-- The state with `settleTime` replaced. -/
def State.setSettleTime (s : State) (x : Nat) : State := { s with settleTime := x }

/-- The state with `holdCount` replaced. -/
def State.setHoldCount (s : State) (x : Nat) : State := { s with holdCount := x }

/-- The state with `steers` replaced. -/
def State.setSteers (s : State) (x : Table Steer) : State := { s with steers := x }

/-- The state with `passages` replaced. -/
def State.setPassages (s : State) (x : Table Passage) : State := { s with passages := x }

/-- The state with `passageSettings` replaced. -/
def State.setPassageSettings (s : State) (x : PassageSettings) : State := { s with passageSettings := x }

/-- The state with `signs` replaced. -/
def State.setSigns (s : State) (x : Table Sign) : State := { s with signs := x }

/-- The state with `patterns` replaced. -/
def State.setPatterns (s : State) (x : Vector Pattern 32) : State := { s with patterns := x }

/-- The state with `airSettings` replaced. -/
def State.setAirSettings (s : State) (x : AirSettings) : State := { s with airSettings := x }

/-- The state with `startTime` replaced. -/
def State.setStartTime (s : State) (x : Nat) : State := { s with startTime := x }

/-- The state with `nextEvaluation` replaced. -/
def State.setNextEvaluation (s : State) (x : Option Nat) : State := { s with nextEvaluation := x }

/-- The state with `fans` replaced. -/
def State.setFans (s : State) (x : Table Fan) : State := { s with fans := x }

/-- The state with `fanSettings` replaced. -/
def State.setFanSettings (s : State) (x : FanSettings) : State := { s with fanSettings := x }

/-- The state with `lamps` replaced. -/
def State.setLamps (s : State) (x : Table LampGroup) : State := { s with lamps := x }

/-- The state with `faultThreshold` replaced. -/
def State.setFaultThreshold (s : State) (x : Nat) : State := { s with faultThreshold := x }

/-- The state with `fireLine` replaced. -/
def State.setFireLine (s : State) (x : FireLine) : State := { s with fireLine := x }

/-- The state with `quiet` replaced. -/
def State.setQuiet (s : State) (x : Quiet) : State := { s with quiet := x }

/-- The state with `heads` replaced. -/
def State.setHeads (s : State) (x : Table Head) : State := { s with heads := x }

/-- The state with `segments` replaced. -/
def State.setSegments (s : State) (x : Vector Segment 4) : State := { s with segments := x }

/-- The state with `lostTime` replaced. -/
def State.setLostTime (s : State) (x : Nat) : State := { s with lostTime := x }

/-- The state with `clients` replaced. -/
def State.setClients (s : State) (x : Vector Nat 8) : State := { s with clients := x }

/-- The state with `sources` replaced. -/
def State.setSources (s : State) (x : Vector Source 16) : State := { s with sources := x }

/-- The state with `fetchMask` replaced. -/
def State.setFetchMask (s : State) (x : Bool) : State := { s with fetchMask := x }

/-- The state with `response` replaced. -/
def State.setResponse (s : State) (x : Option (List Byte)) : State := { s with response := x }

/-- The state with `miso` replaced. -/
def State.setMiso (s : State) (x : List Byte) : State := { s with miso := x }

/-! ### Numbers -/

/-- A value brought to the nearer end of its range (R183). -/
def clampTo (lo hi v : Nat) : Nat := if v < lo then lo else if hi < v then hi else v

/-- A count one higher that stays at its limit once there (head misses and latch counts stay at 255). -/
def countUpTo (limit n : Nat) : Nat := if n < limit then n + 1 else limit

/-- Part time has reached a time that may be absent. -/
def reached (now : Nat) : Option Nat → Bool
  | none => false
  | some t => t ≤ now

/-- The zone mask of a list of zone numbers, zone 0 in the lowest bit (R178). -/
def maskOf (zs : List Nat) : ZoneMask := zs.foldl (fun m z => m ||| (1#32 <<< z)) 0

/-- The zone numbers 0 to 31 named in a zone mask, in number order. -/
def maskZones (m : ZoneMask) : List Nat := (List.range Config.zoneSlots).filter m.getLsbD

/-- An optional number as a list of at most one. -/
def optList : Option Nat → List Nat
  | none => []
  | some n => [n]

/-- No number stands twice in the list. -/
def distinct : List Nat → Bool
  | [] => true
  | n :: t => !t.contains n && distinct t

/-! ### Fixed tables -/

/-- The element of a fixed table at a number, or a stated value beyond its end. -/
def fixedAt {α : Type} {n : Nat} (v : Vector α n) (i : Nat) (d : α) : α := v[i]?.getD d

/-- The segment poller of a segment; beyond segment 3 there is none, and an idle one is read. -/
def State.segment (s : State) (i : Nat) : Segment := fixedAt s.segments i Segment.off

/-- The state with the segment poller of a segment replaced. -/
def State.putSegment (s : State) (i : Nat) (g : Segment) : State := s.setSegments (s.segments.setIfInBounds i g)

/-- The level of a client slot; beyond slot 7 there is none, and the least authority is read. -/
def State.clientLevel (s : State) (c : Nat) : Nat := fixedAt s.clients c 3

/-- The pattern entry of a situation code. -/
def State.pattern (s : State) (code : Nat) : Pattern := fixedAt s.patterns code { word := 0, showCount := false }

/-- The attention source of a number. -/
def State.source (s : State) (n : Nat) : Source := fixedAt s.sources n (Source.clear 3 false)

/-! ### Zones -/

/-- The record of a configured zone (R1). -/
def State.zone (s : State) (z : Nat) : Option Zone := s.zones.find z

/-- The state with the record of a configured zone changed. -/
def State.updZone (s : State) (z : Nat) (f : Zone → Zone) : State := s.setZones (s.zones.upd z f)

/-- The zone is configured and passes a test; an unconfigured zone passes none (R1). -/
def State.zoneIs (s : State) (z : Nat) (p : Zone → Bool) : Bool :=
  match s.zone z with
  | none => false
  | some r => p r

/-- The counts of one kind. -/
def Counts.of (c : Counts) : BayKind → KindCounts
  | .standard => c.standard
  | .wide => c.wide
  | .charge => c.charge

/-- The counts with those of one kind changed. -/
def Counts.upd (c : Counts) (k : BayKind) (f : KindCounts → KindCounts) : Counts :=
  match k with
  | .standard => { c with standard := f c.standard }
  | .wide => { c with wide := f c.wide }
  | .charge => { c with charge := f c.charge }

/-- The count of one category (R7). -/
def KindCounts.of (c : KindCounts) : Category → Nat
  | .free => c.free
  | .occupied => c.occupied
  | .held => c.held
  | .unavailable => c.unavailable

/-- The counts with that of one category changed. -/
def KindCounts.upd (c : KindCounts) (k : Category) (f : Nat → Nat) : KindCounts :=
  match k with
  | .free => { c with free := f c.free }
  | .occupied => { c with occupied := f c.occupied }
  | .held => { c with held := f c.held }
  | .unavailable => { c with unavailable := f c.unavailable }

/-- No bay and no steer of a kind. -/
def KindCounts.zero : KindCounts := { free := 0, occupied := 0, held := 0, unavailable := 0, inTransit := 0 }

/-- The offered count (R9): the FREE count less the in-transit count, 0 when the difference is negative. -/
def Counts.offered (c : Counts) (k : BayKind) : Nat := (c.of k).free - (c.of k).inTransit

/-- The zone record with one count of one kind changed. -/
def Zone.updCounts (z : Zone) (k : BayKind) (f : KindCounts → KindCounts) : Zone :=
  { z with counts := z.counts.upd k f }

/-- The global number lies in the zone's bay range (R2). -/
def ZoneConfig.covers (c : ZoneConfig) (bay : Nat) : Bool := c.bayBase ≤ bay && bay < c.bayBase + c.bayCount

/-- The global numbers of the zone's bay range (R2). -/
def ZoneConfig.range (c : ZoneConfig) : List Nat := List.range' c.bayBase c.bayCount

/-! ### Bays -/

/-- The handle (zone, index) of a global number: the configured zone whose range holds it (R2, R5). -/
def handleOf (zones : Table Zone) (bay : Nat) : Option (Nat × Nat) :=
  match zones with
  | [] => none
  | (n, z) :: t => if z.config.covers bay then some (n, bay - z.config.bayBase) else handleOf t bay

/-- The zone of a global number, if it lies in a configured zone's range. -/
def State.bayZone (s : State) (bay : Nat) : Option Nat := (handleOf s.zones bay).map Prod.fst

/-- The category of a bay (R23). -/
def Bay.category (b : Bay) : Category :=
  if b.service = .outOfService || b.sense ≠ .sensed then .unavailable
  else if b.hold.isSome then .held
  else if b.occupancy = .present || b.occupancy = .departing then .occupied
  else .free

/-- The confirmed occupancy: VACANT under ARRIVING, PRESENT under DEPARTING (chapter 2.1). -/
def Occupancy.confirmed : Occupancy → Occupancy
  | .vacant => .vacant
  | .arriving => .vacant
  | .present => .present
  | .departing => .present

/-! ### Heads -/

/-- The key of a head: heads are kept in segment order and then address order (chapter 9.5). -/
def headKey (segment address : Nat) : Nat := 32 * segment + address

/-- The key of a lane address. -/
def HeadId.key (h : HeadId) : Nat := headKey h.segment h.address

/-- The segment of a head key. -/
def keySegment (key : Nat) : Nat := key / 32

/-- The address of a head key. -/
def keyAddress (key : Nat) : Nat := key % 32

/-- The record of a configured head. -/
def State.head (s : State) (segment address : Nat) : Option Head := s.heads.find (headKey segment address)

/-- The listed addresses of a segment, in address order (R166). -/
def State.listed (s : State) (segment : Nat) : List Nat :=
  (s.heads.keys.filter fun k => keySegment k = segment).map keyAddress

/-- A lane address in range: segment 0 to 3, address 1 to 30. -/
def laneInRange (segment address : Nat) : Bool := segment ≤ 3 && 1 ≤ address && address ≤ 30

end Sys2Proof.Machine
end

