-- ==== Sys2Proof/Machine/Flags.lean ====
section
/-!
DEFINITION. The part's flags: the attention latches and how a source is raised (R188), and the two output lines ATTN
(R190) and READY (R180), which follow from the latches, the FETCH mask and the response buffer.
-/
namespace Sys2Proof.Machine

/-! ### The numbers of the sources (chapter 10.6) -/

/-- FIRE (R146). -/
def srcFire : Nat := 0
/-- AIR_BAR (R95). -/
def srcAirBar : Nat := 1
/-- AIR_ACT (R95). -/
def srcAirAct : Nat := 2
/-- AIR_BLIND (R96). -/
def srcAirBlind : Nat := 3
/-- EXPOSURE (R97). -/
def srcExposure : Nat := 4
/-- FAN_FAULT (R115). -/
def srcFanFault : Nat := 5
/-- HEAD_LOST (R173). -/
def srcHeadLost : Nat := 6
/-- HEAD_BACK (R173). -/
def srcHeadBack : Nat := 7
/-- HEAD_MISMATCH (R173). -/
def srcHeadMismatch : Nat := 8
/-- LAMP_FAULT (R128). -/
def srcLampFault : Nat := 9
/-- WRONG_WAY (R74). -/
def srcWrongWay : Nat := 10
/-- ENTRY_FULL (R74). -/
def srcEntryFull : Nat := 11
/-- STEER_EXPIRED (R74). -/
def srcSteerExpired : Nat := 12
/-- HOLD_ENDED (R43). -/
def srcHoldEnded : Nat := 13
/-- OVERRIDE_EXPIRED (R137). -/
def srcOverrideExpired : Nat := 14
/-- QUIET_CHANGE (R158). -/
def srcQuietChange : Nat := 15

/-! ### Latches -/

/-- The most settings a latch counts (R188). -/
def latchCountLimit : Nat := 255

/-- A latch takes a raise (R188). -/
def Source.raise (now : Nat) (zones : ZoneMask) (detail : List Byte) (r : Source) : Source :=
  if r.isSet then
    { r with mask := r.mask ||| zones, count := countUpTo latchCountLimit r.count, detail := some detail }
  else
    { r with isSet := true, mask := zones, count := 1, firstSet := some now, detail := some detail }

/-- A source is raised by the rule of its chapter (R188). -/
def raise (n : Nat) (zones : List Nat) (detail : List Byte) (s : State) : State :=
  s.setSources (s.sources.setIfInBounds n ((s.source n).raise s.partTime (maskOf zones) detail))

/-- The latch of a source cleared; its level and enable flag are kept (R188, R189). -/
def Source.clearLatch (r : Source) : Source := Source.clear r.level r.enabled

/-! ### Lines -/

/-- ATTN (R190): an enabled latch is set and no FETCH awaits its FETCH_DONE. -/
def State.attn (s : State) : Bool := s.sources.toList.any (fun r => r.enabled && r.isSet) && !s.fetchMask

/-- READY (R180): the response buffer holds a response. -/
def State.ready (s : State) : Bool := s.response.isSome

end Sys2Proof.Machine
end

