-- ==== Sys2Proof/Machine/Override.lean ====
section
/-!
DEFINITION. What an override stack decides (R133) and what follows from it in the zone table (R10) and the fan drive
(R102): the three effective settings with their governing entries, the guidance state, the demand step.
-/
namespace Sys2Proof.Machine

/-! ### Effective settings (R133) -/

/-- The governing entry for one aspect: the topmost entry that speaks for it. The stack is held bottom first. -/
def governing (speaks : StackEntry → Bool) (stack : List StackEntry) : Option StackEntry :=
  stack.reverse.find? speaks

/-- The governing entry for ventilation. -/
def ventEntry (stack : List StackEntry) : Option StackEntry := governing (fun e => e.vent ≠ .auto) stack

/-- The governing entry for lighting. -/
def lightEntry (stack : List StackEntry) : Option StackEntry := governing (fun e => e.lighting ≠ .auto) stack

/-- The governing entry for guidance. -/
def guideEntry (stack : List StackEntry) : Option StackEntry := governing (fun e => e.guide ≠ .auto) stack

/-- The effective ventilation setting. -/
def effectiveVent (stack : List StackEntry) : Vent := ((ventEntry stack).map StackEntry.vent).getD .auto

/-- The level of the entry that governs ventilation, absent under AUTO. -/
def ventLevel (stack : List StackEntry) : Option Nat := (ventEntry stack).map StackEntry.level

/-- The effective lighting setting. -/
def effectiveLight (stack : List StackEntry) : Lighting := ((lightEntry stack).map StackEntry.lighting).getD .auto

/-- The level of the entry that governs lighting, absent under AUTO. -/
def lightLevel (stack : List StackEntry) : Option Nat := (lightEntry stack).map StackEntry.level

/-- The effective guidance setting. -/
def effectiveGuide (stack : List StackEntry) : GuideSetting := ((guideEntry stack).map StackEntry.guide).getD .auto

/-- The level of the entry that governs guidance, absent under AUTO. -/
def guideLevel (stack : List StackEntry) : Option Nat := (guideEntry stack).map StackEntry.level

/-- The position, counted from 1 at the bottom, of the topmost entry that speaks for an aspect (R138). -/
def governingPosition (speaks : StackEntry → Bool) (stack : List StackEntry) : Option Nat :=
  (stack.reverse.findIdx? speaks).map fun i => stack.length - i

/-! ### The guidance state (R10) -/

/-- The guidance state of a configured zone, from its four inputs. -/
def deriveGuidance (device : DeviceState) (z : Zone) : Guidance :=
  if z.fire ≠ .noFire then .closedFire
  else if z.air.state = .bar then .closedAir
  else if effectiveGuide z.stack = .closed then .closedOverride
  else if device = .unconfigured || device = .starting then .closedStart
  else .opened

/-! ### The demand step (R102) -/

/-- Case 2: the effective ventilation setting applied to the automatic demand. -/
def ventStep (auto : Nat) : Vent → Nat
  | .auto => auto
  | .min n => max auto n
  | .hold n => n
  | .extract => 4
  | .halt => 0

/-- The air floors of case 3. -/
def airFloor : AirState → Nat
  | .act => 3
  | .bar => 4
  | _ => 0

/-- The demand step of a configured zone. -/
def demandStep (z : Zone) : Nat :=
  if z.fire = .active then (if z.config.haltRole then 0 else 4)
  else
    match ventLevel z.stack with
    | none => ventStep z.air.autoDemand .auto
    | some 0 => ventStep z.air.autoDemand (effectiveVent z.stack)
    | some _ => max (ventStep z.air.autoDemand (effectiveVent z.stack)) (airFloor z.air.state)

end Sys2Proof.Machine
end

