-- ==== Sys2Proof/Machine/Lamps.lean ====
section
/-!
DEFINITION. Lamp control: the effective level (R124, R125), presence (R121, R122) and the end of a bright time.
-/
namespace Sys2Proof.Machine

/-- The effective level of a lamp group with its reason (R124). A zone that is not configured contributes no fire, air
or override. -/
def lampLevel (device : DeviceState) (zone : Option Zone) (g : LampGroup) : Nat × LevelReason :=
  let fire : Bool := match zone with
    | some z => z.fire ≠ .noFire
    | none => false
  let air : Bool := match zone with
    | some z => z.air.state = .act || z.air.state = .bar
    | none => false
  let light : Lighting := match zone with
    | some z => effectiveLight z.stack
    | none => .auto
  if fire then (100, .fire)
  else if air then (100, .air)
  else
    match light with
    | .full => (100, .override)
    | .guard => (g.guardLevel, .override)
    | .egress => (if g.egress then 100 else g.guardLevel, .override)
    | .auto =>
      if device = .unconfigured || device = .starting then (100, .starting)
      else if device = .quiet then (g.guardLevel, .quiet)
      else if g.bright then (100, .bright)
      else (g.lowLevel, .dim)

/-- A group's effective and commanded levels settled (R125). -/
def settleGroup (device : DeviceState) (zone : Option Zone) (g : LampGroup) : LampGroup :=
  let l := lampLevel device zone g
  { g with effective := l.1, reason := l.2, commanded := l.1 }

/-- The groups that pass a test settled again. -/
def settleLampsWhere (p : Nat → LampGroup → Bool) (s : State) : State :=
  s.setLamps (s.lamps.mapWith fun n g => if p n g then settleGroup s.device (s.zone g.zone) g else g)

/-- Every group of the zones settled again (R125: an event that changes a zone input). -/
def settleLampsOf (zs : List Nat) (s : State) : State := settleLampsWhere (fun _ g => zs.contains g.zone) s

/-- Every group settled again (R125: a device-state change). -/
def settleAllLamps (s : State) : State := settleLampsWhere (fun _ _ => true) s

/-- One group settled again. -/
def settleLamp (n : Nat) (s : State) : State := settleLampsWhere (fun k _ => k = n) s

/-- A group takes presence (R122). -/
def LampGroup.brighten (now : Nat) (g : LampGroup) : LampGroup :=
  { g with bright := true, brightUntil := some (now + g.holdTime) }

/-- Presence for a zone (R122). -/
def presence (z : Nat) (s : State) : State :=
  s.setLamps (s.lamps.mapWith fun _ g =>
    if g.zone = z then settleGroup s.device (s.zone g.zone) (g.brighten s.partTime) else g)

/-- A group goes DIM. -/
def LampGroup.dim (g : LampGroup) : LampGroup := { g with bright := false, brightUntil := none }

end Sys2Proof.Machine
end

