-- ==== Sys2Proof/Machine/Steers.lean ====
section
/-!
DEFINITION. The steer table: in-transit counts (R8, R57), retirement and its counters (R54, R57), zone choice (R56), the
slot for a new steer (R59), settlement (R62), what an ended hold does to its steer (R63), and the show on an entry sign
(R73).
-/
namespace Sys2Proof.Machine

/-! ### In-transit counts -/

/-- One more plain steer of a kind heads for a zone (R8). -/
def transitUp (z : Nat) (k : BayKind) (s : State) : State :=
  s.updZone z fun r => r.updCounts k fun c => { c with inTransit := c.inTransit + 1 }

/-- One plain steer of a kind less heads for a zone (R8). -/
def transitDown (z : Nat) (k : BayKind) (s : State) : State :=
  s.updZone z fun r => r.updCounts k fun c => { c with inTransit := c.inTransit - 1 }

/-! ### Passage counters (R54): 16 bits, wrapping -/

/-- The counters of a passage changed. -/
def countPassage (p : Nat) (f : PassageCounters → PassageCounters) (s : State) : State :=
  s.setPassages (s.passages.upd p fun r => { r with counters := f r.counters })

/-- The counter of an outcome one higher. -/
def PassageCounters.count (o : SteerOutcome) (c : PassageCounters) : PassageCounters :=
  match o with
  | .settled => { c with settled := c.settled + 1 }
  | .expired => { c with expired := c.expired + 1 }
  | .cancelled => { c with cancelled := c.cancelled + 1 }
  | .displaced => { c with cancelled := c.cancelled + 1 }

/-! ### Retirement -/

/-- A steer without a hold. -/
def Steer.plain (t : Steer) : Bool := t.holdBay.isNone

/-- A live steer is retired (R57): its in-transit count falls if it is plain, its slot is freed, and the outcome is
counted on its origin. -/
def retireSteer (id : Nat) (o : SteerOutcome) (s : State) : State :=
  match s.steers.find id with
  | none => s
  | some t =>
    let s := if t.plain then transitDown t.target t.kind s else s
    countPassage t.origin (PassageCounters.count o) (s.setSteers (s.steers.del id))

/-- The oldest live steer that passes a test: lowest issued time, then lowest slot id (R57). -/
def oldestSteer (p : Steer → Bool) : Table Steer → Option (Nat × Steer)
  | [] => none
  | (n, t) :: rest =>
    if p t then
      match oldestSteer p rest with
      | none => some (n, t)
      | some (m, u) => if t.issued ≤ u.issued then some (n, t) else some (m, u)
    else oldestSteer p rest

/-- An unheld arrival settles the oldest plain steer of the zone and kind, if there is one (R62). -/
def settlePlain (z : Nat) (k : BayKind) (s : State) : State :=
  match oldestSteer (fun t => t.plain && t.target = z && t.kind = k) s.steers with
  | none => s
  | some (id, _) => retireSteer id .settled s

/-! ### Zone choice (R56) -/

/-- The zone takes a steer of the kind: OPEN, something offered, and long-allowed for a LONG vehicle. -/
def Zone.takes (k : BayKind) (long : Bool) (z : Zone) : Bool :=
  z.guidance = .opened && 1 ≤ z.counts.offered k && (!long || z.config.longAllowed)

/-- The first zone of the list that is not excluded and takes the steer. -/
def zoneChoice (s : State) (list : List Nat) (k : BayKind) (long : Bool) (excluded : List Nat) : Option Nat :=
  list.find? fun z => !excluded.contains z && s.zoneIs z (Zone.takes k long)

/-! ### Slots (R57, R59) -/

/-- The free slot with the lowest id. -/
def freeSlot (s : State) : Option Nat := (List.range Config.steerSlots).find? fun n => !s.steers.has n

/-- A slot for a new steer, with the state after the displacement that frees it, if one is needed (R59). -/
def takeSlot (s : State) : Option (Nat × State) :=
  match freeSlot s with
  | some n => some (n, s)
  | none =>
    match oldestSteer Steer.plain s.steers with
    | some (n, _) => some (n, retireSteer n .displaced s)
    | none => none

/-- A steer is issued into a slot; a plain one raises its target's in-transit count (R57). -/
def issueSteer (id : Nat) (t : Steer) (s : State) : State :=
  let s := s.setSteers (s.steers.put id t)
  if t.plain then transitUp t.target t.kind s else s

/-! ### Held steers (R63) -/

/-- The held steer whose hold bay is the bay of a handle. -/
def heldSteerOf (h : Nat × Nat) (t : Table Steer) : Option Nat :=
  (t.find? fun p => p.2.holdBay = some h).map Prod.fst

/-- The outcome of a held steer whose hold ended (R43, R63). -/
def HoldEnding.outcome : HoldEnding → SteerOutcome
  | .taken => .settled
  | .expired => .cancelled
  | .released => .cancelled
  | .lost => .cancelled

/-- The steer table is told that the hold on a bay has ended, outside a redirect pass (R63). -/
def tellSteers (h : Nat × Nat) (e : HoldEnding) (s : State) : State :=
  match heldSteerOf h s.steers with
  | none => s
  | some id => retireSteer id e.outcome s

/-- A held steer becomes plain within a redirect pass: its hold bay is cleared and its target's in-transit count rises
(R67 step 1). -/
def steerBecomesPlain (id : Nat) (s : State) : State :=
  match s.steers.find id with
  | none => s
  | some t => transitUp t.target t.kind (s.setSteers (s.steers.put id { t with holdBay := none }))

/-! ### Shows on entry signs (R73) -/

/-- A show is set on a sign, if it is configured. -/
def setShow (sign : Nat) (situation : Nat) (zone : Option Nat) (s : State) : State :=
  s.setSigns (s.signs.upd sign fun r =>
    { r with shown := some { situation := situation, zone := zone, expiry := s.partTime + r.config.showTime } })

/-- The situation paired with a zone in a sign's direction map. -/
def SignConfig.direction (c : SignConfig) (z : Nat) : Option Nat := (c.directions.find? fun p => p.1 = z).map Prod.snd

/-- The entry sign shows the zone a steer was issued to, if it has a pair for it. -/
def showDirection (sign : Option Nat) (z : Nat) (s : State) : State :=
  match sign with
  | none => s
  | some n =>
    match (s.signs.find n).bind fun r => r.config.direction z with
    | none => s
    | some situation => setShow n situation (some z) s

/-- The entry sign shows FULL (1), pointing to no zone. -/
def showFull (sign : Option Nat) (s : State) : State :=
  match sign with
  | none => s
  | some n => setShow n 1 none s

/-! ### Attention (R74) -/

/-- ENTRY_FULL is raised for a passage. -/
def raiseEntryFull (p : Nat) (r : Passage) (s : State) : State :=
  raise srcEntryFull r.config.preference (u8 p) s

end Sys2Proof.Machine
end

