-- ==== Sys2Proof/Machine/Bays.lean ====
section
/-!
DEFINITION. The bay table: changing a bay with its zone's counts (R24), the endings of holds (R40 to R43), following the
sensor (R27 to R32), arrivals and departures (R34, R35), and what a head that goes away does to its bays (R31).
-/
namespace Sys2Proof.Machine

/-! ### Anticipation credit (R91) -/

/-- The limit of antCO (R83, R91). -/
def antLimit : Nat := 16384

/-- An anticipation credit is added to the zone's antCO with saturation (R91). -/
def creditAir (z : Nat) (amount : Nat) (s : State) : State :=
  s.updZone z fun r => { r with air := { r.air with antCO := min antLimit (r.air.antCO + amount) } }

/-! ### Bays and counts (R24) -/

/-- One unit moves between two counts of a zone. -/
def moveCount (z : Nat) (k : BayKind) (c : Category) (k' : BayKind) (c' : Category) (s : State) : State :=
  if k = k' ∧ c = c' then s
  else s.updZone z fun r =>
    (r.updCounts k fun n => n.upd c (· - 1)).updCounts k' fun n => n.upd c' (· + 1)

/-- A bay record is changed, and its zone's counts with it (R24). -/
def changeBay (g : Nat) (f : Bay → Bay) (s : State) : State :=
  match s.bays.find g with
  | none => s
  | some b =>
    let s' := s.setBays (s.bays.put g (f b))
    match s.bayZone g with
    | none => s'
    | some z => moveCount z b.kind b.category (f b).kind (f b).category s'

/-! ### The endings of holds -/

/-- The device-wide hold count falls, HOLD_ENDED is raised unless the hold was taken (R43). -/
def reportEnding (h : Nat × Nat) (e : HoldEnding) (s : State) : State :=
  let s := s.setHoldCount (s.holdCount - 1)
  if e = .taken then s else raise srcHoldEnded [h.1] (handleBytes h ++ u8 e.code) s

/-- A bay record is changed in an event that ends any hold it carries, and the steer table is told (R40 to R43). -/
def changeBayEnding (g : Nat) (e : HoldEnding) (f : Bay → Bay) (s : State) : State :=
  match s.bays.find g, handleOf s.zones g with
  | some b, some h =>
    let s := changeBay g (fun x => f { x with hold := none }) s
    if b.hold.isSome then tellSteers h e (reportEnding h e s) else s
  | _, _ => s

/-- The bay carries a hold. -/
def State.holdOn (s : State) (g : Nat) : Bool :=
  match s.bays.find g with
  | none => false
  | some b => b.hold.isSome

/-- A hold ends RELEASED within a redirect pass: the steer table is not told, since the steer continues (R43, R67). -/
def releaseInRedirect (g : Nat) (h : Nat × Nat) (s : State) : State :=
  if s.holdOn g then reportEnding h .released (changeBay g (fun x => { x with hold := none }) s) else s

/-! ### Arrivals and departures -/

/-- The record of a bay on which an arrival is found (R34 step 1). -/
def Bay.arrived (now : Nat) (b : Bay) : Bay :=
  { b with occupancy := .present, pendingSince := none, lastChange := now }

/-- The record of a bay on which a departure is found (R35 step 1). -/
def Bay.departed (now : Nat) (b : Bay) : Bay :=
  { b with occupancy := .vacant, pendingSince := none, lastChange := now }

/-- An arrival on a bay (R34). -/
def arrival (g : Nat) (s : State) : State :=
  match s.bays.find g, s.bayZone g with
  | some b, some z =>
    let s' := changeBayEnding g .taken (Bay.arrived s.partTime) s
    let s' := if b.hold.isSome then s' else settlePlain z b.kind s'
    presence z s'
  | _, _ => s

/-- A departure on a bay (R35). -/
def departure (g : Nat) (s : State) : State :=
  match s.bayZone g with
  | none => s
  | some z =>
    presence z (creditAir z (s.airSettings.coldCredit * 256) (changeBay g (Bay.departed s.partTime) s))

/-! ### Following the sensor -/

/-- A raw value of a bay-head sensor. -/
inductive Raw
  | vacant
  | present
  | fault
  deriving DecidableEq, Repr

/-- The raw value of a payload byte: anything but 00h and 01h is taken as FAULT (R161, R163). -/
def Raw.ofByte (b : Byte) : Raw := if b = 0 then .vacant else if b = 1 then .present else .fault

/-- The raw value of a sensor in a payload: a sensor beyond the values carried is taken as FAULT (R27). -/
def Raw.ofPayload (payload : List Byte) (sensor : Nat) : Raw :=
  match payload[sensor]? with
  | none => .fault
  | some b => Raw.ofByte b

/-- The record of a bay whose sensor reads FAULT: a pending change is cleared back to the confirmed value (R30). -/
def Bay.faulted (b : Bay) : Bay :=
  { b with sense := .fault, occupancy := b.occupancy.confirmed, pendingSince := none }

/-- The record of a bay whose head has gone LISTED, LOST or MISMATCH (R31). -/
def Bay.unsensed (b : Bay) : Bay :=
  { b with sense := .unsensed, occupancy := b.occupancy.confirmed, pendingSince := none }

/-- The record of a bay that resyncs to an occupancy (R32). -/
def Bay.resynced (now : Nat) (o : Occupancy) (b : Bay) : Bay :=
  { b with sense := .sensed, occupancy := o, pendingSince := none, lastChange := now }

/-- A bay starts a pending change (R28). -/
def Bay.pendingTo (now : Nat) (o : Occupancy) (b : Bay) : Bay :=
  { b with occupancy := o, pendingSince := some now }

/-- A bay's pending change is cancelled (R28). -/
def Bay.cancelled (o : Occupancy) (b : Bay) : Bay := { b with occupancy := o, pendingSince := none }

/-- The pending change has lasted the settle time (R29). -/
def Bay.lasted (now settle : Nat) (b : Bay) : Bool :=
  match b.pendingSince with
  | none => false
  | some t => t + settle ≤ now

/-- A raw value is applied to an IN_SERVICE bay (R28 to R32). -/
def applyRaw (g : Nat) (raw : Raw) (s : State) : State :=
  match s.bays.find g with
  | none => s
  | some b =>
    match b.sense, raw, b.occupancy with
    | .fault, .fault, _ => s
    | _, .fault, _ => changeBayEnding g .lost Bay.faulted s
    | .sensed, .present, .vacant => changeBay g (Bay.pendingTo s.partTime .arriving) s
    | .sensed, .present, .arriving => if b.lasted s.partTime s.settleTime then arrival g s else s
    | .sensed, .present, .present => s
    | .sensed, .present, .departing => changeBay g (Bay.cancelled .present) s
    | .sensed, .vacant, .vacant => s
    | .sensed, .vacant, .arriving => changeBay g (Bay.cancelled .vacant) s
    | .sensed, .vacant, .present => changeBay g (Bay.pendingTo s.partTime .departing) s
    | .sensed, .vacant, .departing => if b.lasted s.partTime s.settleTime then departure g s else s
    | _, .present, _ => changeBay g (Bay.resynced s.partTime .present) s
    | _, .vacant, _ => changeBay g (Bay.resynced s.partTime .vacant) s

/-- The bay is bound to a sensor of the head. -/
def Bay.boundTo (segment address : Nat) (b : Bay) : Bool :=
  match b.binding with
  | none => false
  | some x => x.segment = segment && x.address = address

/-- The bays bound to a head, in global number order. -/
def baysOf (segment address : Nat) (s : State) : List (Nat × Bay) := s.bays.filter fun p => p.2.boundTo segment address

/-- One bay takes its raw value of a report; an OUT_OF_SERVICE bay takes none (R27). -/
def takeRaw (payload : List Byte) (s : State) (p : Nat × Bay) : State :=
  match p.2.binding with
  | none => s
  | some x =>
    if p.2.service = .inService then applyRaw p.1 (Raw.ofPayload payload x.sensor) s else s

/-- A bay head's report is applied to its bays in global number order (R27). -/
def bayReport (segment address : Nat) (payload : List Byte) (s : State) : State :=
  (baysOf segment address s).foldl (takeRaw payload) s

/-- A head goes LISTED, LOST or MISMATCH: its bays, in global number order, take UNSENSED and their holds end LOST
(R31, R42). -/
def baysUnsensed (segment address : Nat) (s : State) : State :=
  (baysOf segment address s).foldl (fun s p => changeBayEnding p.1 .lost Bay.unsensed s) s

end Sys2Proof.Machine
end

