-- ==== Sys2Proof/Machine/Guidance.lean ====
section
/-!
DEFINITION. The guidance state derived again (R11), the set of zones that an event takes out of OPEN (R12), and the
redirect pass over that set (R66, R67).
-/
namespace Sys2Proof.Machine

/-! ### The redirect pass -/

/-- The slot ids of the live steers whose target is in the closing set, oldest first (R57, R66). -/
def redirected (closing : List Nat) (s : State) : List Nat :=
  ((s.steers.filter fun p => closing.contains p.2.target).insertionSort
    fun p q => p.2.issued < q.2.issued ∨ (p.2.issued = q.2.issued ∧ p.1 ≤ q.1)).map Prod.fst

/-- Step 1 of R67: a held steer gives up its hold and becomes plain. -/
def giveUpHold (id : Nat) (s : State) : State :=
  match s.steers.find id with
  | none => s
  | some t =>
    match t.holdBay with
    | none => s
    | some h =>
      match s.zone h.1 with
      | none => steerBecomesPlain id s
      | some z => steerBecomesPlain id (releaseInRedirect (z.config.bayBase + h.2) h s)

/-- The record of a steer moved to a new target (R67 step 3). -/
def Steer.moveTo (now : Nat) (z travel : Nat) (t : Steer) : Steer :=
  { t with state := .redirected, firstTarget := some (t.firstTarget.getD t.target), target := z, deadline := now + travel }

/-- The travel time of a zone. -/
def State.travelTime (s : State) (z : Nat) : Nat :=
  match s.zone z with
  | none => 0
  | some r => r.config.travelTime

/-- Steps 2 and 3 of R67: a plain steer is re-chosen, and moved or cancelled. -/
def rechoose (closing : List Nat) (id : Nat) (s : State) : State :=
  match s.steers.find id with
  | none => s
  | some t =>
    match s.passages.find t.origin with
    | none => retireSteer id .cancelled s
    | some p =>
      match zoneChoice s p.config.preference t.kind t.long closing with
      | none => retireSteer id .cancelled s
      | some z =>
        presence z (transitUp z t.kind (transitDown t.target t.kind
          (s.setSteers (s.steers.put id (t.moveTo s.partTime z (s.travelTime z))))))

/-- One steer of the pass (R67). -/
def redirectOne (closing : List Nat) (s : State) (id : Nat) : State := rechoose closing id (giveUpHold id s)

/-- The redirect pass over a closing set (R66). -/
def redirectPass (closing : List Nat) (s : State) : State := (redirected closing s).foldl (redirectOne closing) s

/-! ### The derivation -/

/-- The zones of a list whose derivation takes them out of OPEN (R12). -/
def leavingOpen (zs : List Nat) (s : State) : List Nat :=
  zs.filter fun z => s.zoneIs z fun r => r.guidance = .opened && deriveGuidance s.device r ≠ .opened

/-- The guidance state of the zones of a list derived again and stored (R11). -/
def refreshGuidance (zs : List Nat) (s : State) : State :=
  s.setZones (s.zones.mapWith fun n r => if zs.contains n then { r with guidance := deriveGuidance s.device r } else r)

/-- The guidance state of the zones of a list derived again; the zones that leave OPEN go to the redirect pass as one
set, as the remainder of the event (R11, R12). -/
def deriveAndRedirect (zs : List Nat) (s : State) : State := redirectPass (leavingOpen zs s) (refreshGuidance zs s)

end Sys2Proof.Machine
end

