-- ==== Sys2Proof/Machine/Fans.lean ====
section
/-!
DEFINITION. The fan drive: demand steps (R102), shortness (R103), target steps (R104), the fan cycle (R105, R106), the
start queue (R107) and start gate (R108), trips, local control and head loss (R111 to R114).
-/
namespace Sys2Proof.Machine

/-! ### Shortness (R103) -/

/-- The fan is unhealthy. -/
def Fan.unhealthy (f : Fan) : Bool :=
  match f.state with
  | .unreached => true
  | .tripped => true
  | .lockedOut => true
  | .localControl => true
  | _ => false

/-- The zone is short: configured, with at least one unhealthy fan of its own. -/
def State.short (s : State) (z : Nat) : Bool :=
  s.zones.has z && s.fans.any fun p => p.2.zone = z && p.2.unhealthy

/-! ### Target steps (R104) -/

/-- The demand step of a zone; an unconfigured zone asks nothing. -/
def State.demandOf (s : State) (z : Nat) : Nat :=
  match s.zone z with
  | none => 0
  | some r => r.demand

/-- The own-zone step of a zone's fans (R104 stage 2). -/
def State.ownStep (s : State) (z : Nat) : Nat :=
  let d := s.demandOf z
  if s.short z && 1 ≤ d then min 4 (d + 1) else d

/-- Stages 2 and 3 of R104: the own-zone step, or the assist zone's demand step less one where that zone is short. -/
def assistedStep (s : State) (f : Fan) : Nat :=
  match f.assist with
  | none => s.ownStep f.zone
  | some a => if s.short a then max (s.ownStep f.zone) (s.demandOf a - 1) else s.ownStep f.zone

/-- The target step of a fan (R104). -/
def fanTarget (s : State) (f : Fan) : Nat :=
  match s.zone f.zone with
  | none => assistedStep s f
  | some z => if z.fire = .active then (if z.config.haltRole then 0 else 4) else assistedStep s f

/-! ### The cycle (R105, R106) -/

/-- A fan enters RUNDOWN: commanded 0, rundown-ends now plus the minimum off time. -/
def Fan.toRundown (now off : Nat) (f : Fan) : Fan :=
  { f with state := .rundown, commanded := 0, startEnds := none, rundownEnds := some (now + off), timeQueued := none }

/-- A fan leaves the cycle for an unhealthy state: timers cleared, commanded 0. -/
def Fan.toUnhealthy (st : FanState) (f : Fan) : Fan :=
  { f with state := st, commanded := 0, startEnds := none, rundownEnds := none, timeQueued := none }

/-- A fan joins the start queue (R106, R110). -/
def Fan.toQueued (now : Nat) (f : Fan) : Fan :=
  { f with state := .queued, commanded := 0, rundownEnds := none, timeQueued := some now }

/-- A fan stops: out of the queue, or at the end of its rundown. -/
def Fan.toStopped (f : Fan) : Fan :=
  { f with state := .stopped, commanded := 0, rundownEnds := none, timeQueued := none }

/-- A fan takes a new target and moves on it (R106). -/
def Fan.retarget (now off t : Nat) (f : Fan) : Fan :=
  let g := { f with target := t }
  match f.state with
  | .stopped => if 0 < t then g.toQueued now else g
  | .queued => if t = 0 then g.toStopped else g
  | .starting => { g with commanded := t }
  | .running => if t = 0 then g.toRundown now off else { g with commanded := t }
  | _ => g

/-- The targets of the fans of a zone, and of the fans that assist it, computed again (R103, R104); a fan whose target
changes moves on it. -/
def retargetZone (z : Nat) (s : State) : State :=
  s.setFans (s.fans.mapWith fun _ f =>
    if f.zone = z || f.assist = some z then
      let t := fanTarget s f
      if t = f.target then f else f.retarget s.partTime s.fanSettings.minOffTime t
    else f)

/-- The fans of the zones in fire state ACTIVE take the fire up (R139): their targets are those of R104 stage 1. -/
def takeUpFire (s : State) : State :=
  s.setFans (s.fans.mapWith fun _ f =>
    if s.zoneIs f.zone fun r => r.fire = .active then
      let t := fanTarget s f
      if t = f.target then f else f.retarget s.partTime s.fanSettings.minOffTime t
    else f)

/-! ### The start queue and the start gate -/

/-- The urgency class of a zone (R107). -/
def urgency (s : State) (z : Nat) : Nat :=
  match s.zone z with
  | none => 3
  | some r =>
    if r.fire = .active then 0
    else if r.air.state = .bar then 1
    else if r.air.state = .act then 2
    else 3

/-- The start queue, head first: by urgency class, then time queued, then fan number (R107). -/
def startQueue (s : State) : List (Nat × Fan) :=
  (s.fans.filter fun p => p.2.state = .queued).insertionSort fun p q =>
    urgency s p.2.zone < urgency s q.2.zone ∨
      (urgency s p.2.zone = urgency s q.2.zone ∧
        (p.2.timeQueued.getD 0 < q.2.timeQueued.getD 0 ∨
          (p.2.timeQueued.getD 0 = q.2.timeQueued.getD 0 ∧ p.1 ≤ q.1)))

/-- The number of fans STARTING. -/
def startingCount (s : State) : Nat := (s.fans.filter fun p => p.2.state = .starting).length

/-- A fan is admitted: commanded at its target, start-ends now plus the start time (R108). -/
def Fan.admitted (now start : Nat) (f : Fan) : Fan :=
  { f with state := .starting, commanded := f.target, startEnds := some (now + start), timeQueued := none }

/-- The gate admits the fan at the head of the queue while there is room, at most so many times (R108). -/
def admitFans : Nat → State → State
  | 0, s => s
  | n + 1, s =>
    if startingCount s < s.fanSettings.startLimit then
      match startQueue s with
      | [] => s
      | (k, _) :: _ =>
        admitFans n (s.setFans (s.fans.upd k (Fan.admitted s.partTime s.fanSettings.startTime)))
    else s

/-- The start gate at the end of an event (R108). The start limit is at most 4, and at most 24 fans wait. -/
def gate (s : State) : State := admitFans Config.fanSlots s

/-! ### Demand (R102) -/

/-- The zones of a list whose demand step, settled now, differs from the one stored. -/
def demandChanges (zs : List Nat) (s : State) : List Nat :=
  zs.filter fun z => s.zoneIs z fun r => demandStep r ≠ r.demand

/-- The demand steps of the zones of a list settled and stored. -/
def storeDemand (zs : List Nat) (s : State) : State :=
  s.setZones (s.zones.mapWith fun n r => if zs.contains n then { r with demand := demandStep r } else r)

/-- The targets of several zones' fans computed again. -/
def retargetZones (zs : List Nat) (s : State) : State := zs.foldl (fun s z => retargetZone z s) s

/-- The demand steps of the zones of a list settled again; where one changes, its fans' targets are computed again
(R102). -/
def settleDemand (zs : List Nat) (s : State) : State := retargetZones (demandChanges zs s) (storeDemand zs s)

/-! ### Changes of a fan's state -/

/-- The state with a fan's record replaced; if its zone becomes short or stops being short, the targets of the zone's
fans and of the fans that assist it are computed again (R103), and the gate admits (R108). -/
def putFan (n : Nat) (f : Fan) (s : State) : State :=
  let s' := s.setFans (s.fans.put n f)
  let s' := if s'.short f.zone = s.short f.zone then s' else retargetZone f.zone s'
  gate s'

/-- A fan becomes unhealthy. If it was STARTING its slot is freed and the gate admits the next queued fan; then shortness
and targets are settled again (R111, R113, R114). -/
def fanDown (n : Nat) (f : Fan) (s : State) : State :=
  let s' := gate (s.setFans (s.fans.put n f))
  let s' := if s'.short f.zone = s.short f.zone then s' else retargetZone f.zone s'
  gate s'

/-- The trip times with a new one, the oldest of three dropped first (R111 step 2). -/
def addTrip (now : Nat) (trips : List Nat) : List Nat :=
  (if trips.length < 3 then trips else trips.drop (trips.length - 2)) ++ [now]

/-- Three trip times are held and the newest less the oldest is 600 s or less (R111 step 3). -/
def locksOut (trips : List Nat) : Bool :=
  match trips with
  | [a, _, c] => c - a ≤ 600
  | _ => false

/-- A trip (R111). -/
def fanTrip (n : Nat) (f : Fan) (s : State) : State :=
  let trips := addTrip s.partTime f.trips
  let st : FanState := if locksOut trips then .lockedOut else .tripped
  raise srcFanFault [f.zone] (u8 n ++ u32 s.partTime ++ u8 st.code)
    (fanDown n ({ f with trips := trips }.toUnhealthy st) s)

/-- The flags of a report applied to a fan that holds them (R111 to R114). -/
def applyFanFlags (n : Nat) (f : Fan) (s : State) : State :=
  match f.state with
  | .lockedOut => s
  | .tripped =>
    if f.tripFlag then s
    else if f.localFlag then fanDown n (f.toUnhealthy .localControl) s
    else putFan n (f.toRundown s.partTime s.fanSettings.minOffTime) s
  | .unreached =>
    if f.tripFlag then fanTrip n f s
    else if f.localFlag then fanDown n (f.toUnhealthy .localControl) s
    else putFan n (f.toRundown s.partTime s.fanSettings.minOffTime) s
  | .localControl =>
    if f.tripFlag then fanTrip n f s
    else if f.localFlag then s
    else putFan n (f.toRundown s.partTime s.fanSettings.minOffTime) s
  | _ =>
    if f.tripFlag then fanTrip n f s
    else if f.localFlag then fanDown n (f.toUnhealthy .localControl) s
    else s

/-- The fan bound to a head, if there is one (no two configured fans bind one head, R100). -/
def fanOf (segment address : Nat) (s : State) : Option (Nat × Fan) :=
  s.fans.find? fun p => p.2.head = { segment := segment, address := address }

/-- The record of a fan with the values of a report (R105): the observed step, taken as 4 when above 4, and the flags. -/
def Fan.observe (now : Nat) (payload : List Byte) (f : Fan) : Fan :=
  match payload with
  | step :: flags :: _ =>
    { f with
      observed := min 4 step.toNat
      runFlag := flags.getLsbD 0
      tripFlag := flags.getLsbD 1
      localFlag := flags.getLsbD 2
      reportTime := some now }
  | _ => f

/-- A fan head's report: stored, then applied (R105). -/
def fanReport (segment address : Nat) (payload : List Byte) (s : State) : State :=
  match fanOf segment address s with
  | none => s
  | some (n, f) =>
    let f := f.observe s.partTime payload
    applyFanFlags n f (s.setFans (s.fans.put n f))

/-- A head goes LISTED, LOST or MISMATCH: its fan goes UNREACHED unless it is LOCKED_OUT (R114). -/
def fanUnreached (segment address : Nat) (s : State) : State :=
  match fanOf segment address s with
  | none => s
  | some (n, f) =>
    if f.state = .lockedOut || f.state = .unreached then s else fanDown n (f.toUnhealthy .unreached) s

end Sys2Proof.Machine
end

