-- ==== Sys2Proof/Machine/Air.lean ====
section
/-!
DEFINITION. The air evaluator: readings and freshness (R76, R78), the stale hold and BLIND (R79, R80), seeding and the
averages (R81, R82), the candidate and the air state (R84 to R87), automatic demand (R89, R90), decay (R92), and the
sources it raises (R95 to R97).
-/
namespace Sys2Proof.Machine

/-! ### Readings of a head (R76) -/

/-- How old a fresh report may be, in seconds (R76). -/
def freshTime : Nat := 30

/-- What an air head's report gives: CO and NO2 with their clamps, and the two status flags. -/
structure AirReport where
  co : Nat
  no2 : Nat
  warming : Bool
  fault : Bool
  time : Nat
  deriving DecidableEq, Repr

/-- An air head's payload decoded (R161, R76). -/
def decodeAir (r : HeadReport) : Option AirReport :=
  match r.payload with
  | [a, b, c, d, flags] =>
    some
      { co := min 500 (256 * a.toNat + b.toNat)
        no2 := min 10000 (256 * c.toNat + d.toNat)
        warming := flags.getLsbD 0
        fault := flags.getLsbD 1
        time := r.time }
  | _ => none

/-- The decoded last report of a head, if it has one. -/
def Head.airReport (h : Head) : Option AirReport := h.report.bind decodeAir

/-- The head's last report is valid: the head is LIVE and neither flag is set (R76). -/
def Head.airValid (h : Head) : Bool :=
  match h.airReport with
  | none => false
  | some r => h.state = .live && !r.warming && !r.fault

/-- The head's last report is fresh at a time (R76). -/
def Head.airFresh (now : Nat) (h : Head) : Bool :=
  match h.airReport with
  | none => false
  | some r => h.airValid && now ≤ r.time + freshTime

/-- The reports of the fresh heads of a list. -/
def freshReports (heads : Table Head) (now : Nat) (list : List HeadId) : List AirReport :=
  list.filterMap fun id => (heads.find id.key).bind fun h => if h.airFresh now then h.airReport else none

/-! ### Averages (R81, R82) -/

/-- The step toward a target at a distance: distance over divisor, to the nearest, halves away from zero (R82). -/
def roundedStep (distance divisor : Nat) : Nat := (2 * distance + divisor) / (2 * divisor)

/-- An average moved toward its target (R82). -/
def moveAverage (divisor target avg : Nat) : Nat :=
  if avg ≤ target then avg + roundedStep (target - avg) divisor else avg - roundedStep (avg - target) divisor

/-- The divisor of the fast averages. -/
def fastDivisor : Nat := 4
/-- The divisor of the slow averages. -/
def slowDivisor : Nat := 32

/-- A zone that is not seeded is seeded (R81). -/
def ZoneAir.seed (co no2 : Nat) (a : ZoneAir) : ZoneAir :=
  if a.seeded then a
  else { a with fCO := co * 256, sCO := co * 256, fNO := no2 * 256, sNO := no2 * 256, seeded := true }

/-- The four averages moved toward their targets (R82). -/
def ZoneAir.move (co no2 : Nat) (a : ZoneAir) : ZoneAir :=
  { a with
    fCO := moveAverage fastDivisor (co * 256) a.fCO
    sCO := moveAverage slowDivisor (co * 256) a.sCO
    fNO := moveAverage fastDivisor (no2 * 256) a.fNO
    sNO := moveAverage slowDivisor (no2 * 256) a.sNO }

/-! ### Candidate and air state (R84 to R87) -/

/-- The candidate of the averages (R84). -/
def airCandidate (c : AirSettings) (a : ZoneAir) : AirState :=
  if c.barCO * 256 ≤ a.fCO ∨ c.barNO * 256 ≤ a.fNO then .bar
  else if c.actCO * 256 ≤ a.fCO ∨ c.actNO * 256 ≤ a.fNO then .act
  else if c.watchCO * 256 ≤ a.sCO ∨ c.watchNO * 256 ≤ a.sNO then .watch
  else .clear

/-- The order of severity of CLEAR, WATCH, ACT and BAR; BLIND stands apart. -/
def AirState.severity : AirState → Nat
  | .clear => 0
  | .watch => 1
  | .act => 2
  | .bar => 3
  | .blind => 0

/-- An exit threshold (R86). -/
def exitThreshold (threshold : Nat) : Nat := threshold * 256 * 4 / 5

/-- Both governing averages of a state are below their exit thresholds (R86). -/
def belowExit (c : AirSettings) (a : ZoneAir) : AirState → Bool
  | .bar => a.fCO < exitThreshold c.barCO && a.fNO < exitThreshold c.barNO
  | .act => a.fCO < exitThreshold c.actCO && a.fNO < exitThreshold c.actNO
  | .watch => a.sCO < exitThreshold c.watchCO && a.sNO < exitThreshold c.watchNO
  | _ => false

/-- The dwell at which a zone falls (R86). -/
def fallDwell : Nat := 4

/-- The air state moves on a candidate (R85 to R87). -/
def moveAirState (c : AirSettings) (cand : AirState) (a : ZoneAir) : ZoneAir :=
  if a.state = .blind then { a with state := cand, dwell := 0, blindReported := false }
  else if a.state.severity ≤ cand.severity then { a with state := cand, dwell := 0 }
  else if belowExit c a a.state then
    if fallDwell ≤ a.dwell + 1 then { a with state := cand, dwell := 0 } else { a with dwell := a.dwell + 1 }
  else { a with dwell := 0 }

/-! ### Steps 1 to 4 of an evaluation -/

/-- A zone with a fresh head (R78, R81, R82, R84 to R87). -/
def evaluateFresh (c : AirSettings) (now : Nat) (reports : List AirReport) (a : ZoneAir) : ZoneAir :=
  let co := reports.foldl (fun m r => max m r.co) 0
  let no2 := reports.foldl (fun m r => max m r.no2) 0
  let a := { a with coReading := some { value := co, time := now }, noReading := some { value := no2, time := now } }
  let a := (a.seed co no2).move co no2
  let cand := airCandidate c a
  moveAirState c cand { a with candidate := some cand }

/-- A zone without a fresh head holds its last readings (R79): it has them, it is not BLIND already, and the evaluation
falls no more than the stale hold after their reading time. -/
def canHold (c : AirSettings) (now : Nat) (a : ZoneAir) : Bool :=
  match a.coReading with
  | none => false
  | some r => a.state ≠ .blind && now ≤ r.time + c.staleHold

/-- A zone without a fresh head holds, or is BLIND (R79, R80). -/
def evaluateStale (c : AirSettings) (now : Nat) (a : ZoneAir) : ZoneAir :=
  if canHold c now a then { a with candidate := none }
  else { a with state := .blind, dwell := 0, candidate := none }

/-- Steps 1 to 4: zone reading, seeding, averages, air state. -/
def evaluateState (c : AirSettings) (now : Nat) (reports : List AirReport) (a : ZoneAir) : ZoneAir :=
  if reports.isEmpty then evaluateStale c now a else evaluateFresh c now reports a

/-! ### Automatic demand (R89, R90) -/

/-- The percentage of a level between a watch and an act level, rounded up (R89). -/
def airPercent (level watch act : Nat) : Nat :=
  if level ≤ watch then 0
  else if act ≤ level then 100
  else ((level - watch) * 100 + (act - watch - 1)) / (act - watch)

/-- The effective CO of the demand (R89). -/
def effectiveCO (a : ZoneAir) : Nat := min 128000 (a.fCO + a.antCO)

/-- The automatic step (R89). -/
def autoStep (c : AirSettings) (a : ZoneAir) : Nat :=
  (max (airPercent (effectiveCO a) (c.watchCO * 256) (c.actCO * 256))
    (airPercent a.fNO (c.watchNO * 256) (c.actNO * 256)) + 24) / 25

/-- The floor of the zone's air state (R90). -/
def demandFloor (quiet : Bool) (z : ZoneConfig) : AirState → Nat
  | .clear => if quiet then z.quietBase else z.baseStep
  | .watch => 1
  | .act => 3
  | .bar => 4
  | .blind => z.blindStep

/-- The automatic demand (R90); the step is at most 4, so BAR's floor of 4 makes it 4. -/
def autoDemand (c : AirSettings) (quiet : Bool) (z : ZoneConfig) (a : ZoneAir) : Nat :=
  max (autoStep c a) (demandFloor quiet z a.state)

/-! ### The attention of an evaluation (R95 to R97) -/

/-- The gas that decided a candidate: CO 00h, NO2 01h, both 02h (R95). -/
def decidingGas (coAt noAt : Bool) : Nat := if coAt && noAt then 2 else if coAt then 0 else 1

/-- A raise: source, zones, detail. -/
structure Raise where
  source : Nat
  zones : List Nat
  detail : List Byte
  deriving DecidableEq, Repr

/-- AIR_BAR and AIR_ACT of a zone whose air state moved (R95). -/
def stateRaises (c : AirSettings) (n : Nat) (before after : ZoneAir) : List Raise :=
  if after.state = .bar ∧ before.state ≠ .bar then
    [{ source := srcAirBar, zones := [n],
       detail := u8 n ++ u8 (decidingGas (c.barCO * 256 ≤ after.fCO) (c.barNO * 256 ≤ after.fNO)) }]
  else if after.state = .act ∧ before.state ≠ .act ∧ before.state ≠ .bar then
    [{ source := srcAirAct, zones := [n],
       detail := u8 n ++ u8 (decidingGas (c.actCO * 256 ≤ after.fCO) (c.actNO * 256 ≤ after.fNO)) }]
  else []

/-- AIR_BLIND is due for a zone at an evaluation (R96). -/
def blindDue (c : AirSettings) (now start : Nat) (a : ZoneAir) : Bool :=
  a.state = .blind && !a.blindReported && (a.seeded || start + c.staleHold ≤ now)

/-- AIR_BLIND of a zone: the zone and the reading time of its last readings, or none (R96). -/
def blindRaises (c : AirSettings) (now start n : Nat) (a : ZoneAir) : List Raise :=
  if blindDue c now start a then
    [{ source := srcAirBlind, zones := [n], detail := u8 n ++ timeOpt (a.coReading.map Reading.time) }]
  else []

/-- EXPOSURE of a zone: sCO rises from below the act CO threshold to it or above (R97). -/
def exposureRaises (c : AirSettings) (n : Nat) (before after : ZoneAir) : List Raise :=
  if before.sCO < c.actCO * 256 ∧ c.actCO * 256 ≤ after.sCO then
    [{ source := srcExposure, zones := [n], detail := u8 n ++ u16 (after.sCO / 256) }]
  else []

/-! ### The evaluation of one zone (R77) -/

/-- The air fields of a zone after an evaluation, all six steps. -/
def evaluateZone (c : AirSettings) (now start : Nat) (quiet : Bool) (heads : Table Head) (z : Zone) : ZoneAir :=
  let a := evaluateState c now (freshReports heads now z.config.airHeads) z.air
  let a := { a with blindReported := a.blindReported || blindDue c now start a }
  let a := { a with autoDemand := autoDemand c quiet z.config a }
  { a with antCO := a.antCO / 2 }

/-- The raises of a zone's evaluation. -/
def evaluationRaises (c : AirSettings) (now start : Nat) (heads : Table Head) (n : Nat) (z : Zone) : List Raise :=
  let a := evaluateState c now (freshReports heads now z.config.airHeads) z.air
  stateRaises c n z.air a ++ blindRaises c now start n a ++ exposureRaises c n z.air a

/-- A list of raises taken in order. -/
def raiseAll (rs : List Raise) (s : State) : State := rs.foldl (fun s r => raise r.source r.zones r.detail s) s

/-- The air fields of every configured zone after an evaluation. -/
def evaluateZones (s : State) : State :=
  s.setZones (s.zones.mapWith fun _ z =>
    { z with air := evaluateZone s.airSettings s.partTime s.startTime (s.device = .quiet) s.heads z })

/-- The raises of an evaluation, in zone number order. -/
def zonesRaises (s : State) : List Raise :=
  s.zones.flatMap fun p => evaluationRaises s.airSettings s.partTime s.startTime s.heads p.1 p.2

/-- The interval of evaluations, in seconds (R77). -/
def evaluationInterval : Nat := 15

end Sys2Proof.Machine
end

