-- ==== Sys2Proof/Machine/Sweeps.lean ====
section
/-!
DEFINITION. How a segment poller walks its listed heads: which heads a sweep visits with an exchange (R152, R167), where
one sweep ends and the next begins (R166), and the counting of sweeps (R174).
-/
namespace Sys2Proof.Machine

/-- The head belongs to the normal-rate set of QUIET (R152). -/
def Head.normalRate (h : Head) : Bool := h.kind = .air || h.kind = .loop || h.wake

/-- The head is due for a keepalive poll (R152): never polled since the reset, or the keepalive interval has passed. -/
def Head.due (now keepalive : Nat) (h : Head) : Bool :=
  match h.lastPolled with
  | none => true
  | some t => t + keepalive ≤ now

/-- The sweep visits the head with an exchange and does not pass it over (R167). `tail` says that the sweep was under way
when the device left QUIET: heads return to every sweep at the next sweep that begins. -/
def State.visits (s : State) (segment : Nat) (tail : Bool) (address : Nat) : Bool :=
  match s.head segment address with
  | none => false
  | some h =>
    if s.device = .quiet || tail then h.normalRate || h.due s.partTime s.quiet.keepalive else true

/-- The number of sweeps after which a segment's start-up is complete (R174). -/
def startupSweeps : Nat := 3

/-- A sweep has ended (R174: the count rises up to 3). -/
def Segment.sweepEnded (g : Segment) : Segment := { g with sweepCount := countUpTo startupSweeps g.sweepCount }

/-- The next sweep begins at once (R166). A segment with no listed heads is idle. A sweep in which every head is passed
over sends nothing, and the poller waits (R167). -/
def nextSweep (s : State) (i : Nat) (g : Segment) : Segment :=
  if (s.listed i).isEmpty then { g with sweep := .idle, keepaliveTail := false }
  else
    match (s.listed i).dropWhile fun a => !s.visits i false a with
    | [] => { g.sweepEnded with sweep := .waiting, keepaliveTail := false }
    | a :: rest => { g with sweep := .sweeping (a :: rest), keepaliveTail := false }

/-- The poller walks on in its sweep: heads that are not due are passed over, and when none is left to visit the sweep
ends and the next begins (R166, R167). -/
def walkOn (s : State) (i : Nat) (g : Segment) : Segment :=
  match g.sweep with
  | .sweeping todo =>
    match todo.dropWhile fun a => !s.visits i g.keepaliveTail a with
    | [] => nextSweep s i g.sweepEnded
    | a :: rest => { g with sweep := .sweeping (a :: rest) }
  | _ => g

/-- The poller of a segment walks on. -/
def walkSegment (i : Nat) (s : State) : State := s.putSegment i (walkOn s i (s.segment i))

/-- The four segments changed one after another. -/
def forSegments (f : State → Nat → Segment → Segment) (s : State) : State :=
  [0, 1, 2, 3].foldl (fun s i => s.putSegment i (f s i (s.segment i))) s

/-- Entry to STARTING: any exchange in flight is abandoned, the count is 0 and the first sweep is awaited (R174). -/
def Segment.restarted : Segment := { sweepCount := 0, sweep := .awaitingStart, keepaliveTail := false, exchange := none }

/-- Every segment has completed its start-up sweeps: it has ended three, or has no listed heads (R174). A segment without
listed heads counts as having 3 while it has none. R174 does not say what it counts once it gets its first head in STARTING:
the model goes on from its stored count, which is 0 where no sweep of it has ended, so that STARTING then waits for the sweeps
that are missing (notes/assumptions/31.md). -/
def startupDone (s : State) : Bool :=
  [0, 1, 2, 3].all fun i => startupSweeps ≤ (s.segment i).sweepCount || (s.listed i).isEmpty

/-- The end of STARTING, in the event that completes the start-up sweeps (R174, R186): the device enters RUNNING, every
guidance state is derived again and every group is settled again. -/
def endStarting (s : State) : State :=
  if s.device = .starting && startupDone s then
    let s := s.setDevice .running
    settleAllLamps (deriveAndRedirect s.zones.keys s)
  else s

end Sys2Proof.Machine
end

