-- ==== Sys2Proof/Machine/QuietHours.lean ====
section
/-!
DEFINITION. Quiet control: wake events and the entry to WARMING (R154), the end of WARMING (R157), QUIET_CHANGE (R158).
-/
namespace Sys2Proof.Machine

/-- QUIET_CHANGE is raised, with its detail code and what follows it (R158, R178). -/
def raiseQuietChange (zones : List Nat) (detail : List Byte) (s : State) : State :=
  raise srcQuietChange zones detail s

/-- QUIET_CHANGE detail codes (R178). -/
def quietEntered : Nat := 0
/-- WOKEN. -/
def quietWoken : Nat := 1
/-- WARM_DONE. -/
def quietWarmDone : Nat := 2
/-- LINE_ASSERTED. -/
def quietLineAsserted : Nat := 3

/-- A wake has come since the poll of an exchange in flight was sent (R157). -/
def Exchange.woken (x : Exchange) : Exchange := { x with beforeWake := true }

/-- A segment at a wake: an exchange in flight began before it (R157); a poller that waits starts its next sweep, and a
sweep under way in QUIET runs on (R167). -/
def Segment.woken (wasQuiet : Bool) (s : State) (i : Nat) (g : Segment) : Segment :=
  let g := { g with exchange := g.exchange.map Exchange.woken }
  match g.sweep with
  | .waiting => nextSweep s i g
  | .sweeping _ => { g with keepaliveTail := g.keepaliveTail || wasQuiet }
  | _ => g

/-- Steps 1 to 6 of R154: the device enters WARMING. -/
def enterWarming (cause : WakeCause) (zones : List Nat) (s : State) : State :=
  let wasQuiet := s.device = .quiet
  let s := s.setQuiet { s.quiet with
    mode := .noMode, enteredAt := none, wakeTime := some s.partTime, wakeCause := some cause,
    warmUntil := some (s.partTime + s.quiet.warmTime), warmSet := s.heads.keys }
  let s := s.setDevice .warming
  let s := forSegments (Segment.woken wasQuiet) s
  raiseQuietChange zones (u8 quietWoken ++ u8 cause.code) (settleAllLamps s)

/-- A wake event: it ends quiet hours when the device is QUIET, and does nothing in any other state (R154). -/
def wakeEvent (cause : WakeCause) (zones : List Nat) (s : State) : State :=
  if s.device = .quiet then enterWarming cause zones s else s

/-- The end of WARMING, at the first event after which the warm set is empty and part time has reached warm-until
(R157). -/
def endWarming (s : State) : State :=
  if s.device = .warming && s.quiet.warmSet.isEmpty && reached s.partTime s.quiet.warmUntil then
    let s := (s.setDevice .running).setQuiet { s.quiet with warmUntil := none }
    raiseQuietChange [] (u8 quietWarmDone) (settleAllLamps s)
  else s

/-- A head leaves the warm set (R157). -/
def leaveWarmSet (key : Nat) (s : State) : State :=
  s.setQuiet { s.quiet with warmSet := s.quiet.warmSet.filter fun k => k ≠ key }

/-- A head joins the warm set, kept by segment and then address (R157). -/
def joinWarmSet (key : Nat) (s : State) : State :=
  s.setQuiet { s.quiet with warmSet := (s.quiet.warmSet.filter fun k => k < key) ++ key ::
    (s.quiet.warmSet.filter fun k => key < k) }

end Sys2Proof.Machine
end

