-- ==== Sys2Proof/Machine/Passages.lean ====
section
/-!
DEFINITION. The passage unit: classification (R53), a passage with its counts, credit and presence (R54, R55), entry
guidance (R58), and a loop head's report (R52).
-/
namespace Sys2Proof.Machine

/-! ### Classification (R53) -/

/-- The longest length computed, in centimetres. -/
def lengthLimit : Nat := 3000

/-- The direction of a gap: 0 is taken as forward. -/
def passageDirection (gap : Int) : Direction := if gap < 0 then .reverse else .forward

/-- The vehicle's length; none is computed when the gap or the occupancy is 0. -/
def vehicleLength (spacing loopLength : Nat) (gap : Int) (occupancy : Nat) : Option Nat :=
  if gap = 0 ∨ occupancy = 0 then none
  else some (min lengthLimit (spacing * occupancy / gap.natAbs - loopLength))

/-- The class of a length. -/
def vehicleClass (c : PassageSettings) : Option Nat → VehicleClass
  | none => .unknown
  | some l => if l < c.carLimit then .car else if l ≤ c.vanLimit then .van else .long

/-- The class weight of a credit (R55, R91). -/
def VehicleClass.weight : VehicleClass → Nat
  | .car => 1
  | .unknown => 1
  | .van => 2
  | .long => 3

/-! ### Entry guidance (R58) -/

/-- The device guides arriving cars (R58, R60). -/
def DeviceState.guides : DeviceState → Bool
  | .running => true
  | .quiet => true
  | .warming => true
  | _ => false

/-- An entry passage is counted full: the counter, the show, ENTRY_FULL. -/
def entryFull (p : Nat) (r : Passage) (s : State) : State :=
  raiseEntryFull p r (showFull r.config.entrySign (countPassage p (fun c => { c with full := c.full + 1 }) s))

/-- The plain steer of an entry passage. -/
def entrySteer (s : State) (p z : Nat) (c : VehicleClass) : Steer where
  state := .inTransit
  origin := p
  kind := .standard
  long := c = .long
  vclass := c
  target := z
  firstTarget := none
  issued := s.partTime
  deadline := s.partTime + s.travelTime z
  holdBay := none

/-- A forward passage on an ENTRY passage is offered for guidance. -/
def entryGuidance (p : Nat) (r : Passage) (c : VehicleClass) (s : State) : State :=
  if !s.device.guides then s
  else if 0 < r.kioskWait then
    s.setPassages (s.passages.upd p fun x =>
      { x with kioskWait := x.kioskWait - 1, waitUntil := if x.kioskWait = 1 then none else x.waitUntil })
  else
    match zoneChoice s r.config.preference .standard (c = .long) [] with
    | none => entryFull p r s
    | some z =>
      match takeSlot s with
      | none => entryFull p r s
      | some (id, s) =>
        let s := issueSteer id (entrySteer s p z c) s
        let s := countPassage p (fun c => { c with guided := c.guided + 1 }) s
        presence z (showDirection r.config.entrySign z s)

/-! ### A passage (R54, R55) -/

/-- The zone that a passage in a direction credits, if any (R55). -/
def PassageConfig.creditZone (c : PassageConfig) : Direction → Option Nat
  | .forward =>
    match c.kind with
    | .entry => c.toZone
    | .exit => c.fromZone
    | .ramp => c.toZone
  | .reverse =>
    match c.kind with
    | .ramp => c.fromZone
    | _ => none

/-- The zone that a wrong-way passage names: the to zone of an ENTRY, the from zone of an EXIT (R74). -/
def PassageConfig.wrongWayZone (c : PassageConfig) : Option Nat :=
  match c.kind with
  | .entry => c.toZone
  | .exit => c.fromZone
  | .ramp => none

/-- A zone is given the credit and the presence of a passage (R55, R91). -/
def creditPassage (z : Option Nat) (c : VehicleClass) (s : State) : State :=
  match z with
  | none => s
  | some z => presence z (creditAir z (s.airSettings.passCredit * 256 * c.weight) s)

/-- What a forward passage does beyond its credit: guidance at an ENTRY, and the wake of a passage with its wake flag
set, which comes after the guidance (R55, R58, R154). -/
def forwardPassage (p : Nat) (r : Passage) (c : VehicleClass) (s : State) : State :=
  let s := if r.config.kind = .entry then entryGuidance p r c s else s
  if r.config.wakeFlag then wakeEvent .passage (optList (r.config.creditZone .forward)) s else s

/-- What a reverse passage does beyond its credit: WRONG_WAY on an ENTRY or EXIT (R55, R74). -/
def reversePassage (p : Nat) (r : Passage) (c : VehicleClass) (s : State) : State :=
  if r.config.kind = .ramp then s
  else raise srcWrongWay (optList r.config.wrongWayZone) (u8 p ++ u8 c.code) s

/-- The record of a passage that takes one in a direction: its counter and its last passage (R54, R55). -/
def Passage.taken (now : Nat) (d : Direction) (c : VehicleClass) (l : Option Nat) (r : Passage) : Passage :=
  { r with
    counters := match d with
      | .forward => { r.counters with forward := r.counters.forward + 1 }
      | .reverse => { r.counters with reverse := r.counters.reverse + 1 }
    last := some { direction := d, vclass := c, length := l, time := now } }

/-- One passage report is taken as a passage (R53 to R55). -/
def takePassage (p : Nat) (gap : Int) (occupancy : Nat) (s : State) : State :=
  match s.passages.find p with
  | none => s
  | some r =>
    let d := passageDirection gap
    let l := vehicleLength r.config.spacing r.config.loopLength gap occupancy
    let c := vehicleClass s.passageSettings l
    let s := s.setPassages (s.passages.put p (r.taken s.partTime d c l))
    let s := creditPassage (r.config.creditZone d) c s
    match d with
    | .forward => forwardPassage p r c s
    | .reverse => reversePassage p r c s

/-! ### A loop head's report (R52) -/

/-- The largest gap, in milliseconds (R163). -/
def gapLimit : Int := 5000
/-- The longest occupancy, in milliseconds (R163). -/
def occupancyLimit : Nat := 30000

/-- A gap as it travels: two bytes, two's complement, taken at the nearest limit (R161, R163). -/
def decodeGap (hi lo : Byte) : Int := max (-gapLimit) (min gapLimit (hi ++ lo : BitVec 16).toInt)

/-- The passage reports of a payload after its overflow byte, each a gap and an occupancy. -/
def decodePassages : List Byte → List (Int × Nat)
  | a :: b :: c :: d :: rest =>
    (decodeGap a b, min occupancyLimit (256 * c.toNat + d.toNat)) :: decodePassages rest
  | _ => []

/-- The configured passage that binds a loop head (R50: at most one). -/
def passageOf (segment address : Nat) (s : State) : Option (Nat × Passage) :=
  s.passages.find? fun p => p.2.config.head = { segment := segment, address := address }

/-- A loop head's report: the overflow number is added to its counter, then each passage is taken in order (R52). -/
def loopReport (segment address : Nat) (payload : List Byte) (s : State) : State :=
  match passageOf segment address s, payload with
  | some (p, _), overflow :: rest =>
    let s := countPassage p (fun c => { c with overflow := c.overflow + overflow.zeroExtend 16 }) s
    (decodePassages rest).foldl (fun s x => takePassage p x.1 x.2 s) s
  | _, _ => s

end Sys2Proof.Machine
end

