-- ==== Sys2Proof/Machine/Fire.lean ====
section
/-!
DEFINITION. Fire mode: what a change of fire state does (R145, R146), the fire line's activation and release (R141, R142),
declaring and clearing (R143, R144); and the handing on of a stack's changed effective settings (R133).
-/
namespace Sys2Proof.Machine

/-! ### Changes of fire state -/

/-- One zone's fire state and flags as an event leaves them. -/
structure FireMove where
  fire : FireState
  lineFlag : Bool
  declaredFlag : Bool
  deriving DecidableEq, Repr

/-- A zone record with its fire state and flags moved. -/
def Zone.withFire (m : FireMove) (z : Zone) : Zone :=
  { z with fire := m.fire, lineFlag := m.lineFlag, declaredFlag := m.declaredFlag }

/-- The zones whose fire state a move changes, in zone number order. -/
def fireChanges (move : Nat → Zone → FireMove) (s : State) : List Nat :=
  Table.keys (s.zones.filter fun p => (move p.1 p.2).fire ≠ p.2.fire)

/-- The fire states and flags of every zone moved. -/
def storeFire (move : Nat → Zone → FireMove) (s : State) : State :=
  s.setZones (s.zones.mapWith fun n z => z.withFire (move n z))

/-- FIRE is raised for a zone: the zone, its new fire state, the cause (R146). -/
def raiseFire (cause : FireCause) (s : State) (z : Nat) : State :=
  match s.zone z with
  | none => s
  | some r => raise srcFire [z] (u8 z ++ u8 r.fire.code ++ u8 cause.code) s

/-- The zones of a list, changed in their fire state, are handed on (R145, R146): FIRE for each, the guidance state with
the redirect pass over those that leave OPEN, the demand steps and targets with the start gate, the lamp levels. -/
def handOnFire (cause : FireCause) (zs : List Nat) (s : State) : State :=
  let s := zs.foldl (raiseFire cause) s
  let s := gate (retargetZones zs (settleDemand zs s))
  let s := settleLampsOf zs s
  deriveAndRedirect zs s

/-- An event that moves fire states: the moves, then the handing on of the zones they change. -/
def moveFire (cause : FireCause) (move : Nat → Zone → FireMove) (s : State) : State :=
  handOnFire cause (fireChanges move s) (storeFire move s)

/-- What the fire line's activation does to a zone (R141). -/
def activationMove (_ : Nat) (z : Zone) : FireMove :=
  if z.config.fireGroup then { fire := .active, lineFlag := true, declaredFlag := z.declaredFlag }
  else { fire := z.fire, lineFlag := z.lineFlag, declaredFlag := z.declaredFlag }

/-- What the fire line's release does to a zone (R142). -/
def releaseMove (_ : Nat) (z : Zone) : FireMove :=
  if z.lineFlag then
    { fire := if z.declaredFlag then z.fire else .held, lineFlag := false, declaredFlag := z.declaredFlag }
  else { fire := z.fire, lineFlag := z.lineFlag, declaredFlag := z.declaredFlag }

/-- What a declaration does to a zone of the mask (R143). -/
def declareMove (zs : List Nat) (n : Nat) (z : Zone) : FireMove :=
  if zs.contains n then { fire := .active, lineFlag := z.lineFlag, declaredFlag := true }
  else { fire := z.fire, lineFlag := z.lineFlag, declaredFlag := z.declaredFlag }

/-- What a clearing does to a zone of the mask (R144). -/
def clearMove (zs : List Nat) (n : Nat) (z : Zone) : FireMove :=
  if zs.contains n then
    match z.fire with
    | .noFire => { fire := .noFire, lineFlag := z.lineFlag, declaredFlag := z.declaredFlag }
    | .held => { fire := .noFire, lineFlag := z.lineFlag, declaredFlag := z.declaredFlag }
    | .active =>
      if z.lineFlag then { fire := .active, lineFlag := true, declaredFlag := false }
      else { fire := .noFire, lineFlag := false, declaredFlag := false }
  else { fire := z.fire, lineFlag := z.lineFlag, declaredFlag := z.declaredFlag }

/-! ### The fire line filter (R140) -/

/-- The line agrees with the filtered state: deasserted with NORMAL, asserted with ALARM. -/
def FireLine.agrees (f : FireLine) : Bool := f.alarm = f.asserted

/-- A level of the line is seen at a time: a change that makes the line disagree starts the count, one that makes it
agree clears it. -/
def FireLine.see (now : Nat) (level : Bool) (f : FireLine) : FireLine :=
  if level = f.asserted then f
  else
    let g := { f with asserted := level }
    { g with changeSince := if g.agrees then none else some now }

/-- The time of disagreement after which fire activates, in seconds. -/
def activationTime : Nat := 2
/-- The time of disagreement after which fire releases, in seconds. -/
def releaseTime : Nat := 10

/-- The count of the filter is complete: change-since plus a time is reached. -/
def FireLine.complete (now time : Nat) (f : FireLine) : Bool := reached now (f.changeSince.map (· + time))

/-- The filter after either reset: NORMAL, the line as it is found, and a count from the reset if it is asserted. -/
def FireLine.afterReset (f : FireLine) : FireLine :=
  { alarm := false, asserted := f.asserted, changeSince := if f.asserted then some 0 else none }

/-! ### A change of a stack (R133) -/

/-- A zone's stack is replaced, and each aspect whose effective setting or governing level changed is handed on: guidance
to the zone table, ventilation to the fan drive, lighting to lamp control. -/
def changeStack (z : Nat) (r : Zone) (stack : List StackEntry) (s : State) : State :=
  let s := s.updZone z fun x => { x with stack := stack }
  let s := if effectiveVent stack ≠ effectiveVent r.stack ∨ ventLevel stack ≠ ventLevel r.stack
    then gate (settleDemand [z] s) else s
  let s := if effectiveLight stack ≠ effectiveLight r.stack then settleLampsOf [z] s else s
  if effectiveGuide stack ≠ effectiveGuide r.stack then deriveAndRedirect [z] s else s

end Sys2Proof.Machine
end

