-- ==== Sys2Proof/Machine/Signs.lean ====
section
/-!
DEFINITION. The sign driver: the situation and count of a sign (R72), the show that a poll ends (R73), what is recorded as
last sent.
-/
namespace Sys2Proof.Machine

/-- The largest count a sign shows (R72). -/
def signCountLimit : Nat := 999

/-- The configured ENTRY passage that names the sign as its entry sign (R50: at most one). -/
def entryPassageOf (sign : Nat) (s : State) : Option (Nat × Passage) :=
  s.passages.find? fun p => p.2.config.kind = .entry && p.2.config.entrySign = some sign

/-- The zones a sign watches for R72: its own, or the preference list of its passage where it is entry-bound and watches
none. -/
def watchedZones (sign : Nat) (r : Sign) (s : State) : List Nat :=
  if r.config.watched.isEmpty then
    match entryPassageOf sign s with
    | none => []
    | some (_, p) => p.config.preference
  else r.config.watched

/-- The STANDARD offered count of a zone, if its guidance state is OPEN. -/
def openOffered (s : State) (z : Nat) : Nat :=
  match s.zone z with
  | none => 0
  | some r => if r.guidance = .opened then r.counts.offered .standard else 0

/-- The count of a sign: what its OPEN watched zones offer, at most 999. -/
def signCount (s : State) (zs : List Nat) : Nat := min signCountLimit ((zs.map (openOffered s)).sum)

/-- Every watched zone has the guidance state; the test fails where no zone is watched. -/
def allWatched (s : State) (zs : List Nat) (g : Guidance) : Bool :=
  !zs.isEmpty && zs.all fun z => s.zoneIs z fun r => r.guidance = g

/-- The situation of a sign that has no show (R72). -/
def plainSituation (s : State) (hostFlag : Bool) (zs : List Nat) : Nat :=
  if s.device = .unconfigured || s.device = .starting then 6
  else if s.device = .quiet then 5
  else if allWatched s zs .closedFire then 3
  else if hostFlag then 7
  else if signCount s zs = 0 then
    if allWatched s zs .closedAir then 2 else if allWatched s zs .closedOverride then 4 else 1
  else 0

/-- The show still runs: it points to no zone, or to one that is OPEN (R73). -/
def showStands (s : State) (x : Show) : Bool :=
  match x.zone with
  | none => true
  | some z => s.zoneIs z fun r => r.guidance = .opened

/-- A sign's show as a poll finds it: a show that points to a zone no longer OPEN ends (R73). -/
def standingShow (s : State) (r : Sign) : Option Show := r.shown.filter (showStands s)

/-- What a sign is sent if it is polled now (R72): the situation, the pattern word of its entry, and the count where the
entry's show-count flag is set, 0 otherwise. -/
def signOutput (sign : Nat) (r : Sign) (s : State) : LastSent :=
  let zs := watchedZones sign r s
  let situation := match standingShow s r with
    | some x => x.situation
    | none => plainSituation s r.config.hostFlag zs
  let entry := s.pattern situation
  { situation := situation, word := entry.word, count := if entry.showCount then signCount s zs else 0 }

/-- The configured sign that binds a head (R70: at most one). -/
def signOf (segment address : Nat) (s : State) : Option (Nat × Sign) :=
  s.signs.find? fun p => p.2.config.head = { segment := segment, address := address }

/-- A sign's record after its head is polled: the show that stands, and what was sent (R72, R73). -/
def Sign.polled (x : Option Show) (out : LastSent) (r : Sign) : Sign := { r with shown := x, lastSent := some out }

/-- A sign head's report: the head fault flag is set on a fault and cleared on OK (R73). -/
def signReport (segment address : Nat) (payload : List Byte) (s : State) : State :=
  match signOf segment address s, payload with
  | some (n, _), result :: _ => s.setSigns (s.signs.upd n fun r => { r with headFault := result ≠ 0 })
  | _, _ => s

end Sys2Proof.Machine
end

