-- ==== Sys2Proof/Machine/LampReports.lean ====
section
/-!
DEFINITION. A lamp head's report (R126), its motion (R123), and the lamp fault condition (R127, R128).
-/
namespace Sys2Proof.Machine

/-- The configured lamp group that binds a head (R119: at most one). -/
def lampOf (segment address : Nat) (s : State) : Option (Nat × LampGroup) :=
  s.lamps.find? fun p => p.2.head = { segment := segment, address := address }

/-- LAMP_FAULT is raised for a group: its zone, the group number and its failed count (R128). -/
def raiseLampFault (n zone failed : Nat) (s : State) : State := raise srcLampFault [zone] (u8 n ++ u8 failed) s

/-- The record of a group with the values of a report (R126): the observed level, taken as 100 when above 100, the failed
count and the motion flag. -/
def LampGroup.observe (now : Nat) (level failed flags : Byte) (g : LampGroup) : LampGroup :=
  { g with
    observed := min 100 level.toNat
    failed := failed.toNat
    motionSeen := flags.getLsbD 0
    reportTime := some now }

/-- The report of a configured group's head: stored, then its motion (R123), then its failed count (R127). -/
def groupReport (n : Nat) (g : LampGroup) (level failed flags : Byte) (s : State) : State :=
  let s := s.setLamps (s.lamps.upd n (LampGroup.observe s.partTime level failed flags))
  let s := if flags.getLsbD 0 && g.motionFlag then presence g.zone s else s
  if g.failed < s.faultThreshold ∧ s.faultThreshold ≤ failed.toNat then raiseLampFault n g.zone failed.toNat s else s

/-- A lamp head's report. A motion report from a head that is wake-enabled is a wake event, whatever the group's motion
flag (R123, R154). -/
def lampReport (segment address : Nat) (wake : Bool) (payload : List Byte) (s : State) : State :=
  match payload with
  | [level, failed, flags] =>
    let group := lampOf segment address s
    let s := match group with
      | none => s
      | some (n, g) => groupReport n g level failed flags s
    if flags.getLsbD 0 && wake then wakeEvent .motion (optList (group.map fun p => p.2.zone)) s else s
  | _ => s

/-- LAMP_FAULT at an AMEND of the threshold: each group whose stored count was below the old threshold and is at or above
the new one, in group number order (R127). -/
def thresholdFaults (old new : Nat) (s : State) : State :=
  s.lamps.foldl (fun s p =>
    if p.2.failed < old ∧ new ≤ p.2.failed then raiseLampFault p.1 p.2.zone p.2.failed s else s) s

end Sys2Proof.Machine
end

