-- ==== Sys2Proof/Machine/Poller.lean ====
section
/-!
DEFINITION. The lane poller: frames and CRC (R161, R164), polls and their payloads (R162), valid responses (R163), head
states (R169 to R173), the handing on of reports (R165), and the end of an exchange (R160).
-/
namespace Sys2Proof.Machine

/-! ### CRC-8 (R164) -/

/-- The generator 2Fh. -/
def crcGenerator : Byte := 0x2F

/-- One shift of the register. -/
def crcShift (r : Byte) : Byte := if r.msb then (r <<< 1) ^^^ crcGenerator else r <<< 1

/-- The register after a byte: exclusive-or, then eight shifts. -/
def crcByte (r b : Byte) : Byte :=
  crcShift (crcShift (crcShift (crcShift (crcShift (crcShift (crcShift (crcShift (r ^^^ b))))))))

/-- The CRC-8 of some bytes, from FFh, with no final inversion. -/
def crc8 (bytes : List Byte) : Byte := bytes.foldl crcByte 0xFF

/-! ### Polls (R161, R162) -/

/-- A poll frame. -/
def pollFrame (address kind control : Nat) (payload : List Byte) : List Byte :=
  let covered := u8 address ++ u8 kind ++ u8 control ++ u8 payload.length ++ payload
  0xC5 :: covered ++ [crc8 covered]

/-- The control byte of a head's poll: the took-toggle in the lowest bit for a LOOP head. -/
def pollControl (h : Head) : Nat := if h.kind = .loop && h.toggle then 1 else 0

/-- The payload that the owning block has for a head (R162). -/
def pollPayload (s : State) (segment address : Nat) (h : Head) : List Byte :=
  match h.kind with
  | .fan =>
    match fanOf segment address s with
    | none => []
    | some (_, f) => if f.state = .localControl then [] else u8 f.commanded
  | .lamp =>
    match lampOf segment address s with
    | none => []
    | some (_, g) => u8 g.commanded
  | .sign =>
    match signOf segment address s with
    | none => []
    | some (n, r) => halfBytes (signOutput n r s).word ++ u16 (signOutput n r s).count
  | _ => []

/-- What the poll of a sign head does to the sign bound to it (R72, R73). -/
def pollSign (segment address : Nat) (h : Head) (s : State) : State :=
  match h.kind with
  | .sign =>
    match signOf segment address s with
    | none => s
    | some (n, r) => s.setSigns (s.signs.put n (r.polled (standingShow s r) (signOutput n r s)))
  | _ => s

/-- The record of a head that is polled: its last-polled time, and its reference time if it has none (R167, R170). -/
def Head.polled (now : Nat) (h : Head) : Head :=
  { h with lastPolled := some now, reference := some (h.reference.getD now) }

/-- A poll is built and sent: the exchange begins (R160, R162). -/
def sendPoll (segment address : Nat) (todo : List Nat) (g : Segment) (h : Head) (s : State) : State :=
  let frame := pollFrame address h.kind.code (pollControl h) (pollPayload s segment address h)
  let x : Exchange := { address := address, frame := frame, received := [], beforeWake := false, discarded := false }
  let s := pollSign segment address h s
  let s := s.setHeads (s.heads.put (headKey segment address) (h.polled s.partTime))
  s.putSegment segment { g with sweep := .sweeping todo, exchange := some x }

/-! ### Responses (R161, R163) -/

/-- The payload lengths allowed for a kind of head (R161). -/
def lengthAllowed : HeadKind → Nat → Bool
  | .bay, n => n ≤ 16
  | .air, n => n = 5
  | .loop, n => n = 1 || n = 5 || n = 9 || n = 13
  | .fan, n => n = 2
  | .lamp, n => n = 3
  | .sign, n => n = 1

/-- What a valid response gives. -/
structure Response where
  kind : HeadKind
  status : Byte
  payload : List Byte
  deriving DecidableEq, Repr

/-- The five checks of R163 on the bytes received in the window: a valid response, or none. -/
def parseResponse (address : Nat) (bytes : List Byte) : Option Response :=
  match bytes with
  | lead :: a :: k :: status :: n :: rest =>
    match HeadKind.ofCode k.toNat with
    | none => none
    | some kind =>
      let payload := rest.take n.toNat
      let covered := a :: k :: status :: n :: payload
      if lead = 0xA3 ∧ a.toNat = address ∧ lengthAllowed kind n.toNat ∧ payload.length = n.toNat ∧
          rest[n.toNat]? = some (crc8 covered) then
        some { kind := kind, status := status, payload := payload }
      else none
  | _ => none

/-! ### Head states -/

/-- The zones a head serves (R173). -/
def zonesServed (segment address : Nat) (kind : HeadKind) (s : State) : List Nat :=
  let id : HeadId := { segment := segment, address := address }
  match kind with
  | .bay => (baysOf segment address s).filterMap fun p => s.bayZone p.1
  | .air => Table.keys (s.zones.filter fun p => p.2.config.airHeads.contains id)
  | .loop =>
    match passageOf segment address s with
    | none => []
    | some (_, p) => optList p.config.fromZone ++ optList p.config.toZone
  | .fan =>
    match fanOf segment address s with
    | none => []
    | some (_, f) => f.zone :: optList f.assist
  | .lamp => optList ((lampOf segment address s).map fun p => p.2.zone)
  | .sign =>
    match signOf segment address s with
    | none => []
    | some (_, r) => r.config.watched

/-- A head in LISTED, LOST or MISMATCH is handed to the blocks that bind it (R172). -/
def headGone (segment address : Nat) (s : State) : State :=
  fanUnreached segment address (baysUnsensed segment address s)

/-- The misses at which a head may go SILENT or LOST (R169, R170). -/
def missLimit : Nat := 3

/-- A head in LISTED, LIVE or SILENT goes LOST: three misses or more, and the lost time reached (R170). -/
def Head.goesLost (now lostTime : Nat) (h : Head) : Bool :=
  (h.state = .listed || h.state = .live || h.state = .silent) && missLimit ≤ h.misses &&
    reached now (h.reference.map (· + lostTime))

/-- A head enters LOST: HEAD_LOST, and the handing on (R170, R172, R173). -/
def loseHead (segment address : Nat) (h : Head) (s : State) : State :=
  let s := s.setHeads (s.heads.put (headKey segment address) { h with state := .lost, lostSince := some s.partTime })
  let s := raise srcHeadLost (zonesServed segment address h.kind s)
    (u8 segment ++ u8 address ++ u8 h.kind.code ++ timeOpt h.lastValid) s
  headGone segment address s

/-- The most misses counted (chapter 9.5). -/
def missCountLimit : Nat := 255

/-- The record of a head with one miss more. -/
def Head.missed (h : Head) : Head := { h with misses := countUpTo missCountLimit h.misses }

/-- An exchange with a head ends as a miss (R169, R170). -/
def missHead (segment address : Nat) (s : State) : State :=
  match s.head segment address with
  | none => s
  | some h =>
    let h := h.missed
    if h.goesLost s.partTime s.lostTime then loseHead segment address h s
    else
      let h := if h.state = .live ∧ missLimit ≤ h.misses then { h with state := .silent } else h
      s.setHeads (s.heads.put (headKey segment address) h)

/-- The record of a head after a valid response of either kind (R165, R169, R171). -/
def Head.answered (now : Nat) (status : Byte) (h : Head) : Head :=
  { h with misses := 0, lastValid := some now, reference := some now, status := some status }

/-- A valid response of another kind: the head goes MISMATCH (R171). -/
def mismatchHead (segment address : Nat) (h : Head) (r : Response) (s : State) : State :=
  let s := s.setHeads (s.heads.put (headKey segment address)
    { h.answered s.partTime r.status with state := .mismatch, kindSeen := some r.kind, lostSince := none })
  if h.state = .mismatch then s
  else
    headGone segment address
      (raise srcHeadMismatch (zonesServed segment address h.kind s)
        (u8 segment ++ u8 address ++ u8 h.kind.code ++ u8 r.kind.code) s)

/-- The record of a head whose response is accepted (R165). -/
def Head.accepted (now : Nat) (r : Response) (h : Head) : Head :=
  { h.answered now r.status with
    state := .live, report := some { payload := r.payload, time := now }, lostSince := none }

/-- HEAD_BACK, where the head was LOST: segment, address, kind, and the part time it had been LOST since (R169, R173). -/
def headBack (segment address : Nat) (h : Head) (s : State) : State :=
  if h.state = .lost then
    raise srcHeadBack (zonesServed segment address h.kind s)
      (u8 segment ++ u8 address ++ u8 h.kind.code ++ u32 (h.lostSince.getD 0)) s
  else s

/-- A loop head's took-toggle is flipped (R168). -/
def flipToggle (segment address : Nat) (s : State) : State :=
  s.setHeads (s.heads.upd (headKey segment address) fun h => { h with toggle := !h.toggle })

/-- An accepted report is handed to its block (R165). -/
def handReport (segment address : Nat) (h : Head) (payload : List Byte) (s : State) : State :=
  match h.kind with
  | .bay => bayReport segment address payload s
  | .air => s
  | .loop => flipToggle segment address (loopReport segment address payload s)
  | .fan => fanReport segment address payload s
  | .lamp => lampReport segment address h.wake payload s
  | .sign => signReport segment address payload s

/-- A valid response of the matching kind is accepted (R165, R169). -/
def acceptHead (segment address : Nat) (h : Head) (r : Response) (s : State) : State :=
  let s := s.setHeads (s.heads.put (headKey segment address) (h.accepted s.partTime r))
  handReport segment address h r.payload (headBack segment address h s)

/-- A valid response of a head: of the matching kind, or of another (R165, R171). -/
def answerHead (segment address : Nat) (r : Response) (s : State) : State :=
  match s.head segment address with
  | none => s
  | some h => if r.kind = h.kind then acceptHead segment address h r s else mismatchHead segment address h r s

/-! ### The end of an exchange (R160) -/

/-- The head of an exchange whose poll was sent after the wake leaves the warm set (R157, R160). -/
def warmPolled (segment : Nat) (x : Exchange) (wasWarming : Bool) (s : State) : State :=
  if wasWarming && !x.beforeWake then leaveWarmSet (headKey segment x.address) s else s

/-- An exchange ends: the segment is free, the head's state is settled and its report handed on by `settle`, quiet control
and the sweep take the end, and WARMING or STARTING ends where this event completes it. The result of a discarded
exchange is not used (R166). -/
def endExchange (segment : Nat) (x : Exchange) (settle : State → State) (s : State) : State :=
  let wasWarming := s.device = .warming
  let s := s.putSegment segment { s.segment segment with exchange := none }
  if x.discarded then s
  else endStarting (endWarming (walkSegment segment (warmPolled segment x wasWarming (settle s))))

end Sys2Proof.Machine
end

