-- ==== Sys2Proof/Machine/Port.lean ====
section
/-!
DEFINITION. The supervisor port: transfers and the response buffer (R179, R180), the checks every request passes before
its serving rule (R181), and the record checks that serving rules share (R1, R5).
-/
namespace Sys2Proof.Machine

/-! ### Transfers -/

/-- So many 00h bytes on MISO. -/
def zeros (n : Nat) : List Byte := List.replicate n 0

/-- A read transfer of so many bytes while READY is asserted (R180): MISO carries the response and then 00h; the buffer is
emptied once the whole response was clocked out. -/
def readOut (clocks : Nat) (r : List Byte) (s : State) : State :=
  let s := s.setMiso ((r ++ zeros clocks).take clocks)
  if r.length ≤ clocks then s.setResponse none else s

/-- A response is placed in the buffer, which asserts READY (R179, R180). -/
def respond (tag : Half) (r : Reply) (s : State) : State := s.setResponse (some (r.frame tag))

/-! ### Serving rules -/

/-- What serving a request gives: the reply, and the state it leaves. -/
abbrev Served := Reply × State

/-- A serving rule: for a client and a body, on a state. -/
abbrev Rule := Nat → List Byte → State → Served

/-- A step of a serving rule: it goes on, or refuses with a reply. -/
abbrev Check (α : Type) := Except Reply α

/-- A refused request leaves every record as it was (R179). -/
def served (s : State) (c : Check Served) : Served :=
  match c with
  | .ok p => p
  | .error r => (r, s)

/-- A condition, and the result that refuses the request when it fails. -/
def require (c : Bool) (r : Result) : Check Unit := if c then .ok () else .error (Reply.refuse r)

/-- A value that must be there, and the result that refuses the request when it is not. -/
def need {α : Type} (o : Option α) (r : Result) : Check α :=
  match o with
  | some x => .ok x
  | none => .error (Reply.refuse r)

/-- The fields a serving rule requires, read from the body; a body too short for them, or a malformed field, is refused
with FORM (R181). -/
def fields {α : Type} (r : Reader α) (body : List Byte) : Check (α × List Byte) := need (r body) .form

/-! ### A request (R179, R181) -/

/-- A request transfer of the given kind's minimum level (absent where the serving rule checks the level): if READY is
asserted the selection is a read transfer and the request is lost (R180); otherwise the port's checks run in order, the
rule serves the request, and the response is placed in the buffer. A body that no frame holds makes the frame one that is
discarded (R179). -/
def request (minLevel : Option Nat) (rule : Rule) (client : Byte) (tag : Half) (body : List Byte) (s : State) : State :=
  match s.response with
  | some r => readOut (5 + body.length) r s
  | none =>
    let s := s.setMiso (zeros (5 + body.length))
    if !bodyFits body then s
    else if 8 ≤ client.toNat then respond tag (Reply.refuse .form) s
    else if (minLevel.map fun m => decide (m < s.clientLevel client.toNat)).getD false then
      respond tag (Reply.refuse .authority) s
    else
      let p := rule client.toNat body s
      respond tag p.1 p.2

/-! ### Shared record checks -/

/-- The zone checks of R1: a number above 31 is RANGE, an unconfigured zone is NO_RECORD. -/
def needZone (z : Nat) (s : State) : Check Zone := do
  require (z < Config.zoneSlots) .range
  need (s.zone z) .noRecord

/-- Every zone of a list is configured. -/
def zonesThere (s : State) (zs : List Nat) : Bool := zs.all s.zones.has

/-- The zones that a record's configuration names are configured, or the device is UNCONFIGURED: there GO's cross-check
finds an unconfigured one (R1). -/
def needZonesThere (zs : List Nat) (s : State) : Check Unit :=
  require (s.device = .unconfigured || zonesThere s zs) .noRecord

/-- The translation of a handle (R5): the zone checks, then the index against the bay count. It answers the global number
and the bay record. -/
def needBay (z i : Nat) (s : State) : Check (Nat × Bay) := do
  let r ← needZone z s
  require (i < r.config.bayCount) .range
  let b ← need (s.bays.find (r.config.bayBase + i)) .noRecord
  return (r.config.bayBase + i, b)

/-- A numbered record of a table with so many slots: RANGE beyond them, NO_RECORD where the slot is not configured. -/
def needRecord {α : Type} (slots : Nat) (t : Table α) (n : Nat) : Check α := do
  require (n < slots) .range
  need (t.find n) .noRecord

/-- The head record of a lane address: RANGE out of range, NO_RECORD where none is configured (R176). -/
def needHead (segment address : Nat) (s : State) : Check Head := do
  require (laneInRange segment address) .range
  need (s.head segment address) .noRecord

/-- A request taken in UNCONFIGURED alone (chapters 1 to 9): NOT_NOW in another device state. -/
def needUnconfigured (s : State) : Check Unit := require (s.device = .unconfigured) .notNow

end Sys2Proof.Machine
end

