-- ==== Sys2Proof/Machine/Holds.lean ====
section
/-!
DEFINITION. Holds and service: CLAIM (R37 to R39), RELEASE (R41), RETIRE (R44), COMMISSION (R45), and the expiry of a hold
(R40).
-/
namespace Sys2Proof.Machine

/-! ### CLAIM -/

/-- A hold is made on a bay, and the device-wide count rises (R36, R38). -/
def makeHold (g : Nat) (h : Hold) (s : State) : State :=
  let s := changeBay g (fun b => { b with hold := some h }) s
  s.setHoldCount (s.holdCount + 1)

/-- A held steer's deadline is the until of its hold, and follows it at a renewal (R63). -/
def renewSteer (h : Nat × Nat) (expiry : Nat) (s : State) : State :=
  match heldSteerOf h s.steers with
  | none => s
  | some id => s.setSteers (s.steers.upd id fun t => { t with deadline := expiry })

/-- A hold is renewed (R38). -/
def renewHold (g : Nat) (h : Nat × Nat) (x : Hold) (s : State) : State :=
  renewSteer h x.expiry (changeBay g (fun b => { b with hold := some x }) s)

/-- What a CLAIM finds: the prior category, whether a hold was taken or renewed, the pending mark, and the bay's index with
the hold's until where one was. -/
structure ClaimAnswer where
  prior : Category
  taken : Bool
  pending : Bool
  holding : Option (Nat × Nat)
  deriving DecidableEq, Repr

/-- The body of a CLAIM response (R37). -/
def ClaimAnswer.bytes (a : ClaimAnswer) : List Byte :=
  u8 a.prior.code ++ flagByte a.taken ++ flagByte a.pending ++ optBytes u8 (a.holding.map Prod.fst) ++
    timeOpt (a.holding.map Prod.snd)

/-- A specific CLAIM against the bay's state (R38). -/
def claimBay (z i g : Nat) (b : Bay) (x : Hold) (s : State) : Check (ClaimAnswer × State) :=
  let no (c : Category) : ClaimAnswer := { prior := c, taken := false, pending := false, holding := none }
  let yes (c : Category) : ClaimAnswer := { prior := c, taken := true, pending := false, holding := some (i, x.expiry) }
  match b.category with
  | .free =>
    if b.occupancy = .vacant then
      if s.holdCount < Config.holdLimit then .ok (yes .free, makeHold g x s) else .error (Reply.refuse .full)
    else .ok ({ no .free with pending := true }, s)
  | .held =>
    match b.hold with
    | some h =>
      if h.client = x.client ∧ h.tag = x.tag then .ok (yes .held, renewHold g (z, i) x s) else .ok (no .held, s)
    | none => .ok (no .held, s)
  | .occupied => .ok (no .occupied, s)
  | .unavailable => .ok (no .unavailable, s)

/-- The bay is of the kind, FREE, and open to the client as to its lock (R39). -/
def Bay.claimable (k : BayKind) (level : Nat) (b : Bay) : Bool :=
  b.kind = k && b.category = .free && (!b.locked || level = 0)

/-- The bays of a zone with their indexes, in index order. -/
def zoneBays (r : Zone) (s : State) : List (Nat × Bay) :=
  (List.range r.config.bayCount).filterMap fun i => (s.bays.find (r.config.bayBase + i)).map fun b => (i, b)

/-- The lowest index that an any-form CLAIM takes (R39). -/
def claimIndex (r : Zone) (k : BayKind) (level : Nat) (s : State) : Option Nat :=
  ((zoneBays r s).find? fun p => p.2.claimable k level && p.2.occupancy = .vacant).map Prod.fst

/-- A bay was passed over only for being ARRIVING (R39). -/
def claimPending (r : Zone) (k : BayKind) (level : Nat) (s : State) : Bool :=
  (zoneBays r s).any fun p => p.2.claimable k level && p.2.occupancy = .arriving

/-- An any-form CLAIM in a zone (R39). -/
def claimAny (r : Zone) (k : BayKind) (level : Nat) (x : Hold) (s : State) : Check (ClaimAnswer × State) :=
  match claimIndex r k level s with
  | some i =>
    if s.holdCount < Config.holdLimit then
      .ok ({ prior := .free, taken := true, pending := false, holding := some (i, x.expiry) },
        makeHold (r.config.bayBase + i) x s)
    else .error (Reply.refuse .full)
  | none => .ok ({ prior := .free, taken := false, pending := claimPending r k level s, holding := none }, s)

/-- What a CLAIM carries after its form, zone, and index or kind: tag, duration (R37). -/
def readTerms : Reader (Half × Option Nat) := fun body => do
  let (tag, body) ← readHalf body
  let (duration, body) ← readOpt readU16 body
  return ((tag, duration), body)

/-- What a CLAIM names: by handle, a bay's global number and record; or a kind in a zone. -/
inductive ClaimTarget
  | bay (index g : Nat) (b : Bay)
  | anyOf (k : BayKind)

/-- The checks of what a CLAIM names, after those of its zone: for form 0 the index, for form 1 the kind; another form code
is FORM in the kind's place (R37). -/
def needClaimTarget (form zone second : Nat) (s : State) : Check ClaimTarget :=
  match form with
  | 0 => do
    let (g, b) ← needBay zone second s
    return .bay second g b
  | 1 => do
    let k ← need (BayKind.ofCode second) .form
    return .anyOf k
  | _ => .error (Reply.refuse .form)

/-- The duration that an absent one gives, in seconds (R37). -/
def claimDefault : Nat := 900
/-- The shortest duration (R37). -/
def claimShortest : Nat := 60
/-- The longest duration (R37). -/
def claimLongest : Nat := 7200

/-- The duration of a CLAIM after its default and clamp. -/
def claimDuration (d : Option Nat) : Nat := clampTo claimShortest claimLongest (d.getD claimDefault)

/-- What a CLAIM that has passed its checks finds, for the hold it wishes (R38, R39). -/
def claimAt (zone : Nat) (r : Zone) (level : Nat) (x : Hold) (s : State) : ClaimTarget → Check (ClaimAnswer × State)
  | .bay i g b => claimBay zone i g b x s
  | .anyOf k => claimAny r k level x s

/-- The lock does not bar the client from what a CLAIM names (R37); an any-form CLAIM passes locked bays over instead. -/
def ClaimTarget.openTo (level : Nat) : ClaimTarget → Bool
  | .bay _ _ b => !b.locked || level = 0
  | .anyOf _ => true

/-- CLAIM (R37). The model's choice for a short body is the place of each field's FORM: the zone is checked as soon as it
is read, then the index or kind, then the tag and duration are read, before the LOCKED check (notes/assumptions/37.md). -/
def serveClaim (client : Nat) (body : List Byte) (s : State) : Served :=
  served s do
    require (s.device ≠ .unconfigured) .notNow
    let (form, body) ← fields readU8 body
    let (zone, body) ← fields readU8 body
    let r ← needZone zone s
    let (second, body) ← fields readU8 body
    let a ← needClaimTarget form zone second s
    let ((tag, duration), _) ← fields readTerms body
    let level := s.clientLevel client
    require (a.openTo level) .locked
    let x : Hold := { client := client, tag := tag, expiry := s.partTime + claimDuration duration }
    let (c, s') ← claimAt zone r level x s a
    return (Reply.clampedIf (claimDuration duration ≠ duration.getD claimDefault) c.bytes, s')

/-! ### RELEASE -/

/-- A handle: zone, index. -/
def readHandle : Reader (Nat × Nat) := fun body => do
  let (zone, body) ← readU8 body
  let (i, body) ← readU8 body
  return ((zone, i), body)

/-- A hold as a response carries it: client, tag, until. -/
def Hold.bytes (h : Hold) : List Byte := u8 h.client ++ halfBytes h.tag ++ u32 h.expiry

/-- RELEASE (R41). The model's choice for a short body: the handle is checked before the tag is read, and the tag is read
before R41's cases (notes/assumptions/37.md). -/
def serveRelease (client : Nat) (body : List Byte) (s : State) : Served :=
  served s do
    let ((z, i), body) ← fields readHandle body
    let (g, b) ← needBay z i s
    let (tag, _) ← fields readHalf body
    let h ← need b.hold .notNow
    if h.client = client then require (h.tag = tag) .combination
    else require (s.clientLevel client ≤ 1) .authority
    return (Reply.done h.bytes, changeBayEnding g .released id s)

/-! ### RETIRE and COMMISSION -/

/-- The record of a bay that is retired (R44). -/
def Bay.retired (now : Nat) (b : Bay) : Bay :=
  { b with
    service := .outOfService, occupancy := b.occupancy.confirmed, pendingSince := none, lastChange := now }

/-- RETIRE (R44). -/
def serveRetire (client : Nat) (body : List Byte) (s : State) : Served :=
  served s do
    let ((z, i), _) ← fields readHandle body
    let (g, b) ← needBay z i s
    require (!b.locked || s.clientLevel client = 0) .locked
    let answer := Reply.done (u8 b.service.code)
    if b.service = .outOfService then return (answer, s)
    else return (answer, changeBayEnding g .lost (Bay.retired s.partTime) s)

/-- What a bay's head last said of its sensor, where the head is LIVE or SILENT and has reported (R45). -/
def lastRaw (x : Binding) (s : State) : Option Raw :=
  match s.head x.segment x.address with
  | none => none
  | some h =>
    if h.kind = .bay && (h.state = .live || h.state = .silent) then
      h.report.map fun r => Raw.ofPayload r.payload x.sensor
    else none

/-- The record of a bay that is commissioned (R45). -/
def Bay.commissioned (now : Nat) (s : State) (b : Bay) : Bay :=
  let b := { b with service := .inService, pendingSince := none, lastChange := now }
  match b.binding with
  | none => { b with sense := .sensed }
  | some x =>
    match lastRaw x s with
    | some .vacant => { b with sense := .sensed, occupancy := .vacant }
    | some .present => { b with sense := .sensed, occupancy := .present }
    | some .fault => { b with sense := .fault }
    | none => { b with sense := .unsensed }

/-- COMMISSION (R45). -/
def serveCommission (client : Nat) (body : List Byte) (s : State) : Served :=
  served s do
    let ((z, i), _) ← fields readHandle body
    let (g, b) ← needBay z i s
    require (!b.locked || s.clientLevel client = 0) .locked
    let answer := Reply.done (u8 b.service.code)
    if b.service = .inService then return (answer, s)
    else return (answer, changeBay g (Bay.commissioned s.partTime s) s)

/-! ### The commands -/

/-- CLAIM, request 04h, minimum level 2. -/
def execClaim (client : Byte) (tag : Half) (body : List Byte) (s : State) : Host.Outcome State Fault Refusal :=
  .next (request (some 2) serveClaim client tag body s)

/-- RELEASE, request 05h, minimum level 2. -/
def execRelease (client : Byte) (tag : Half) (body : List Byte) (s : State) : Host.Outcome State Fault Refusal :=
  .next (request (some 2) serveRelease client tag body s)

/-- RETIRE, request 06h, minimum level 1. -/
def execRetire (client : Byte) (tag : Half) (body : List Byte) (s : State) : Host.Outcome State Fault Refusal :=
  .next (request (some 1) serveRetire client tag body s)

/-- COMMISSION, request 07h, minimum level 1. -/
def execCommission (client : Byte) (tag : Half) (body : List Byte) (s : State) : Host.Outcome State Fault Refusal :=
  .next (request (some 1) serveCommission client tag body s)

/-- A bay's hold has reached its until. -/
def Bay.holdDue (now : Nat) (b : Bay) : Bool := reached now (b.hold.map Hold.expiry)

/-- HOLD_EXPIRY (R40): the hold ends EXPIRED. Before its until, or without a hold, the event does not occur. -/
def execHoldExpiry (bay : Nat) (s : State) : Host.Outcome State Fault Refusal :=
  .next <|
    match s.bays.find bay with
    | none => s
    | some b => if b.holdDue s.partTime then changeBayEnding bay .expired id s else s

end Sys2Proof.Machine
end

