-- ==== Sys2Proof/Machine/Kiosk.lean ====
section
/-!
DEFINITION. Steers for kiosk requests: STEER (R60, R61), CANCEL_STEER (R65); and the time-driven events of the steer table,
the passage unit and the sign driver (R58, R64, R73).
-/
namespace Sys2Proof.Machine

/-! ### STEER -/

/-- The fields of a STEER after its origin (R60). -/
structure SteerFields where
  kind : BayKind
  long : Bool
  holdWish : Bool
  tag : Half

/-- The body of a STEER after its origin; a kind other than STANDARD, WIDE and CHARGE is malformed. -/
def readSteer : Reader SteerFields := fun body => do
  let (code, body) ← readU8 body
  let kind ← BayKind.ofCode code
  let (long, body) ← readFlag body
  let (holdWish, body) ← readFlag body
  let (tag, body) ← readHalf body
  return ({ kind := kind, long := long, holdWish := holdWish, tag := tag }, body)

/-- The shortest duration of the hold of a held steer, in seconds (R61). -/
def steerHoldTime : Nat := 300

/-- The steer of a STEER request, before it is known whether it is held (R61). -/
def kioskSteer (s : State) (p z : Nat) (k : BayKind) (long : Bool) : Steer where
  state := .inTransit
  origin := p
  kind := k
  long := long
  vclass := .unknown
  target := z
  firstTarget := none
  issued := s.partTime
  deadline := s.partTime + s.travelTime z
  holdBay := none

/-- The hold of a STEER that wishes one: the index of the bay found with the state after the claim, or none (R61). -/
def steerHold (client : Nat) (f : SteerFields) (z : Nat) (s : State) : Option (Nat × Nat × State) :=
  match s.zone z with
  | none => none
  | some r =>
    if f.holdWish then
      let x : Hold :=
        { client := client, tag := f.tag, expiry := s.partTime + max r.config.travelTime steerHoldTime }
      match claimAny r f.kind (s.clientLevel client) x s with
      | .ok (a, s') => a.holding.map fun h => (h.1, h.2, s')
      | .error _ => none
    else none

/-- The kiosk wait of a passage rises, to at most 4, and its wait-until is set (R61). -/
def Passage.awaitKiosk (now : Nat) (r : Passage) : Passage :=
  { r with kioskWait := countUpTo 4 r.kioskWait, waitUntil := some (now + r.config.kioskWindow) }

/-- A STEER that finds no zone, or no slot: counted full, ENTRY_FULL raised, answered FULL; the entry sign is not changed
(R61). -/
def steerFull (p : Nat) (r : Passage) (s : State) : Served :=
  (Reply.refuse .full, raiseEntryFull p r (countPassage p (fun c => { c with full := c.full + 1 }) s))

/-- What every issued kiosk steer does besides its issue (R61): the guided counter, the presence, the kiosk wait. -/
def afterSteer (p z : Nat) (s : State) : State :=
  let s := presence z (countPassage p (fun c => { c with guided := c.guided + 1 }) s)
  s.setPassages (s.passages.upd p (Passage.awaitKiosk s.partTime))

/-- The body of the response to a STEER that issued one: steer id, zone, held flag with the bay index when held, deadline,
and the mark set when a hold was wished and none was taken (R61). -/
def steerBytes (id z : Nat) (index : Option Nat) (deadline : Nat) (mark : Bool) : List Byte :=
  u8 id ++ u8 z ++ optBytes u8 index ++ u32 deadline ++ flagByte mark

/-- A kiosk steer issued to a zone in a slot (R61). -/
def issueKiosk (client p : Nat) (f : SteerFields) (z id : Nat) (s : State) : Served :=
  let t := kioskSteer s p z f.kind f.long
  match steerHold client f z s with
  | some (i, expiry, s') =>
    (Reply.done (steerBytes id z (some i) expiry false),
      afterSteer p z (issueSteer id { t with deadline := expiry, holdBay := some (z, i) } s'))
  | none =>
    (Reply.done (steerBytes id z none t.deadline f.holdWish), afterSteer p z (issueSteer id t s))

/-- STEER (R60, R61). The model's choice for a short body: the origin is checked as soon as it is read, and the fields
after it are read in the place of the kind's FORM (notes/assumptions/37.md). -/
def serveSteer (client : Nat) (body : List Byte) (s : State) : Served :=
  served s do
    require s.device.guides .notNow
    let (p, body) ← fields readU8 body
    let r ← needRecord Config.passageSlots s.passages p
    require (r.config.kind = .entry) .combination
    let (f, _) ← fields readSteer body
    match zoneChoice s r.config.preference f.kind f.long [] with
    | none => return steerFull p r s
    | some z =>
      match takeSlot s with
      | none => return steerFull p r s
      | some (id, s') => return issueKiosk client p f z id s'

/-! ### CANCEL_STEER -/

/-- A steer as a response carries it: every field in the order of chapter 3.4. -/
def steerRecord (id : Nat) (t : Steer) : List Byte :=
  u8 id ++ u8 t.state.code ++ u8 t.origin ++ u8 t.kind.code ++ flagByte t.long ++ u8 t.vclass.code ++ u8 t.target ++
    optBytes u8 t.firstTarget ++ u32 t.issued ++ u32 t.deadline ++ optBytes handleBytes t.holdBay

/-- A live steer is cancelled (R65): a held one through the release of its hold, which retires it. -/
def cancelSteer (id : Nat) (t : Steer) (s : State) : State :=
  match t.holdBay with
  | none => retireSteer id .cancelled s
  | some h =>
    match s.zone h.1 with
    | none => retireSteer id .cancelled s
    | some z => changeBayEnding (z.config.bayBase + h.2) .released (fun b => b) s

/-- CANCEL_STEER (R65). -/
def serveCancelSteer (_client : Nat) (body : List Byte) (s : State) : Served :=
  served s do
    let (id, _) ← fields readU8 body
    let t ← needRecord Config.steerSlots s.steers id
    return (Reply.done (steerRecord id t), cancelSteer id t s)

/-! ### The commands -/

/-- STEER, request 08h, minimum level 2. -/
def execSteer (client : Byte) (tag : Half) (body : List Byte) (s : State) : Host.Outcome State Fault Refusal :=
  .next (request (some 2) serveSteer client tag body s)

/-- CANCEL_STEER, request 09h, minimum level 1. -/
def execCancelSteer (client : Byte) (tag : Half) (body : List Byte) (s : State) : Host.Outcome State Fault Refusal :=
  .next (request (some 1) serveCancelSteer client tag body s)

/-- A plain steer expires: retired EXPIRED, STEER_EXPIRED with its target, the steer id and the origin (R64, R74). -/
def expireSteer (id : Nat) (t : Steer) (s : State) : State :=
  raise srcSteerExpired [t.target] (u8 id ++ u8 t.origin) (retireSteer id .expired s)

/-- STEER_EXPIRY (R64). A held steer has no expiry of its own (R63); before the deadline the event does not occur. -/
def execSteerExpiry (steer : Nat) (s : State) : Host.Outcome State Fault Refusal :=
  .next <|
    match s.steers.find steer with
    | none => s
    | some t => if t.plain && t.deadline ≤ s.partTime then expireSteer steer t s else s

/-- A kiosk wait that has reached its wait-until returns to 0 (R58). -/
def Passage.endWait (now : Nat) (r : Passage) : Passage :=
  if reached now r.waitUntil then { r with kioskWait := 0, waitUntil := none } else r

/-- KIOSK_WAIT_EXPIRY (R58). -/
def execKioskWaitExpiry (passage : Nat) (s : State) : Host.Outcome State Fault Refusal :=
  .next (s.setPassages (s.passages.upd passage (Passage.endWait s.partTime)))

/-- A show that has reached its show-until ends (R73). -/
def Sign.endShow (now : Nat) (r : Sign) : Sign :=
  if reached now (r.shown.map Show.expiry) then { r with shown := none } else r

/-- SHOW_UNTIL (R73). -/
def execShowUntil (sign : Nat) (s : State) : Host.Outcome State Fault Refusal :=
  .next (s.setSigns (s.signs.upd sign (Sign.endShow s.partTime)))

end Sys2Proof.Machine
end

