-- ==== Sys2Proof/Machine/FanEvents.lean ====
section
/-!
DEFINITION. The time-driven events of the fan drive (R109, R110) and of lamp control (R122).
-/
namespace Sys2Proof.Machine

/-- The record of a fan whose start ends: RUNNING at its target, or RUNDOWN when the target is 0 (R109). -/
def Fan.endStart (now off : Nat) (f : Fan) : Fan :=
  if 0 < f.target then { f with state := .running, commanded := f.target, startEnds := none } else f.toRundown now off

/-- START_ENDS (R109). Before start-ends, or for a fan that is not STARTING, the event does not occur. -/
def execStartEnds (fan : Nat) (s : State) : Host.Outcome State Fault Refusal :=
  .next <|
    match s.fans.find fan with
    | none => s
    | some f =>
      if f.state = .starting && reached s.partTime f.startEnds then
        putFan fan (f.endStart s.partTime s.fanSettings.minOffTime) s
      else s

/-- The record of a fan whose rundown ends: QUEUED when its target is above 0, STOPPED otherwise (R110). -/
def Fan.endRundown (now : Nat) (f : Fan) : Fan := if 0 < f.target then f.toQueued now else f.toStopped

/-- RUNDOWN_ENDS (R110). Before rundown-ends, or for a fan that is not in RUNDOWN, the event does not occur. -/
def execRundownEnds (fan : Nat) (s : State) : Host.Outcome State Fault Refusal :=
  .next <|
    match s.fans.find fan with
    | none => s
    | some f =>
      if f.state = .rundown && reached s.partTime f.rundownEnds then putFan fan (f.endRundown s.partTime) s else s

/-- BRIGHT_UNTIL (R122): the group goes DIM and its level is settled again. Before bright-until, or for a group that is
DIM, the event does not occur. -/
def execBrightUntil (group : Nat) (s : State) : Host.Outcome State Fault Refusal :=
  .next <|
    match s.lamps.find group with
    | none => s
    | some g =>
      if g.bright && reached s.partTime g.brightUntil then settleLamp group (s.setLamps (s.lamps.put group g.dim)) else s

end Sys2Proof.Machine
end

