-- ==== Sys2Proof/Machine/StackCommands.lean ====
section
/-!
DEFINITION. Override stacks: PUSH (R134, R135), POP (R136) and the expiry of an entry (R137).
-/
namespace Sys2Proof.Machine

/-! ### Layout of entries in responses -/

/-- An entry as a response carries it: every field in the order of chapter 7.1. -/
def StackEntry.bytes (e : StackEntry) : List Byte :=
  u8 e.level ++ u8 e.client ++ e.vent.bytes ++ u8 e.lighting.code ++ u8 e.guide.code ++ u32 e.pushedAt ++
    timeOpt e.expiry

/-- The three effective settings. -/
def settingsBytes (stack : List StackEntry) : List Byte :=
  (effectiveVent stack).bytes ++ u8 (effectiveLight stack).code ++ u8 (effectiveGuide stack).code

/-- The three effective settings, each with the level of its governing entry, absent under AUTO. -/
def settingsLevelBytes (stack : List StackEntry) : List Byte :=
  (effectiveVent stack).bytes ++ optBytes u8 (ventLevel stack) ++
    u8 (effectiveLight stack).code ++ optBytes u8 (lightLevel stack) ++
    u8 (effectiveGuide stack).code ++ optBytes u8 (guideLevel stack)

/-! ### PUSH -/

/-- The fields of a PUSH after its zone (R134). -/
structure PushFields where
  vent : Nat × Option Nat
  lighting : Nat
  guide : Nat
  expiry : Option Nat

/-- The body of a PUSH after its zone. -/
def readPush : Reader PushFields := fun body => do
  let (vent, body) ← readVent body
  let (lighting, body) ← readU8 body
  let (guide, body) ← readU8 body
  let (expiry, body) ← readOpt readU32 body
  return ({ vent := vent, lighting := lighting, guide := guide, expiry := expiry }, body)

/-- The ventilation setting of a code with its n. -/
def Vent.ofFields : Nat × Option Nat → Option Vent
  | (0, _) => some .auto
  | (1, some n) => some (.min n)
  | (2, some n) => some (.hold n)
  | (3, _) => some .extract
  | (4, _) => some .halt
  | _ => none

/-- n is no more than 4 (R134). -/
def Vent.stepInRange : Vent → Bool
  | .min n => n ≤ 4
  | .hold n => n ≤ 4
  | _ => true

/-- The setting stops the zone's fans: HALT, or HOLD 0 (R134). -/
def Vent.stops : Vent → Bool
  | .halt => true
  | .hold 0 => true
  | _ => false

/-- The authority check of a PUSH against the top entry (R134). -/
def mayPush (level : Nat) (stack : List StackEntry) : Bool :=
  match stack.getLast? with
  | none => true
  | some top => level ≤ top.level

/-- The shortest expiry, in seconds (R135). -/
def expiryShortest : Nat := 60
/-- The longest expiry, in seconds (R135). -/
def expiryLongest : Nat := 86400

/-- PUSH (R134, R135). The zone is checked first, and a body too short for the settings, for n of MIN or HOLD or for the
expiry is FORM in the place of the aspects' FORM. -/
def servePush (client : Nat) (body : List Byte) (s : State) : Served :=
  served s do
    let level := s.clientLevel client
    require (level ≤ 2) .authority
    let (z, body) ← fields readU8 body
    let r ← needZone z s
    let (f, _) ← fields readPush body
    let vent ← need (Vent.ofFields f.vent) .form
    let lighting ← need (Lighting.ofCode f.lighting) .form
    let guide ← need (GuideSetting.ofCode f.guide) .form
    require vent.stepInRange .range
    require (level = 0 || !(vent.stops && guide = .auto)) .combination
    require (r.stack.length < Config.stackDepth) .full
    require (mayPush level r.stack) .authority
    let expiry := f.expiry.map (clampTo expiryShortest expiryLongest)
    let e : StackEntry :=
      { level := level, client := client, vent := vent, lighting := lighting, guide := guide, pushedAt := s.partTime,
        expiry := expiry.map (s.partTime + ·) }
    let stack := r.stack ++ [e]
    return (Reply.clampedIf (expiry ≠ f.expiry)
        (e.bytes ++ u8 stack.length ++ u8 stack.length ++ settingsLevelBytes stack),
      changeStack z r stack s)

/-! ### POP -/

/-- POP (R136). -/
def servePop (client : Nat) (body : List Byte) (s : State) : Served :=
  served s do
    let (z, _) ← fields readU8 body
    let r ← needZone z s
    let top ← need r.stack.getLast? .notNow
    require (s.clientLevel client ≤ top.level) .authority
    let stack := r.stack.dropLast
    return (Reply.done (top.bytes ++ u8 stack.length ++ settingsBytes stack), changeStack z r stack s)

/-! ### Expiry -/

/-- An entry expires (R137): it is removed wherever it stands, the settings are derived again, OVERRIDE_EXPIRED is raised
with the zone, the entry's client, level and settings, and the position it stood at. -/
def expireEntry (z position : Nat) (r : Zone) (e : StackEntry) (s : State) : State :=
  raise srcOverrideExpired [z]
    (u8 z ++ u8 e.client ++ u8 e.level ++ e.vent.bytes ++ u8 e.lighting.code ++ u8 e.guide.code ++ u8 position)
    (changeStack z r (r.stack.eraseIdx (position - 1)) s)

/-! ### The commands -/

/-- PUSH, request 0Ah; its serving rule checks the level. -/
def execPush (client : Byte) (tag : Half) (body : List Byte) (s : State) : Host.Outcome State Fault Refusal :=
  .next (request none servePush client tag body s)

/-- POP, request 0Bh; its serving rule checks the level. -/
def execPop (client : Byte) (tag : Half) (body : List Byte) (s : State) : Host.Outcome State Fault Refusal :=
  .next (request none servePop client tag body s)

/-- STACK_ENTRY_EXPIRY (R137), for the entry at a position counted from 1 at the bottom. Before its until the event does
not occur. -/
def execStackEntryExpiry (zone position : Nat) (s : State) : Host.Outcome State Fault Refusal :=
  .next <|
    match s.zone zone with
    | none => s
    | some r =>
      if position = 0 then s
      else
        match r.stack[position - 1]? with
        | none => s
        | some e => if reached s.partTime e.expiry then expireEntry zone position r e s else s

end Sys2Proof.Machine
end

