-- ==== Sys2Proof/Machine/FireCommands.lean ====
section
/-!
DEFINITION. Fire: DECLARE_FIRE (R143), CLEAR_FIRE (R144), a change of the fire line (R140), its activation (R141) and its
release (R142).
-/
namespace Sys2Proof.Machine

/-! ### Requests -/

/-- The zone mask of a fire request: FORM when it names no zone, NO_RECORD when it names an unconfigured one (R143). -/
def needFireZones (body : List Byte) (s : State) : Check (List Nat) := do
  let (m, _) ← fields readMask body
  require (m ≠ 0) .form
  require ((maskZones m).all s.zones.has) .noRecord
  return maskZones m

/-- DECLARE_FIRE (R143); accepted, it is a wake event (R145, R154). -/
def serveDeclareFire (_client : Nat) (body : List Byte) (s : State) : Served :=
  served s do
    let zs ← needFireZones body s
    let changed := fireChanges (declareMove zs) s
    return (Reply.done (maskBytes (maskOf changed)), wakeEvent .fire changed (moveFire .declare (declareMove zs) s))

/-- The zones of a request that are left ACTIVE by the line (R144). -/
def leftActive (zs : List Nat) (s : State) : List Nat :=
  zs.filter fun z => s.zoneIs z fun r => r.fire = .active && r.lineFlag

/-- CLEAR_FIRE (R144). -/
def serveClearFire (_client : Nat) (body : List Byte) (s : State) : Served :=
  served s do
    let zs ← needFireZones body s
    return (Reply.done (maskBytes (maskOf (fireChanges (clearMove zs) s)) ++ maskBytes (maskOf (leftActive zs s))),
      moveFire .clear (clearMove zs) s)

/-! ### The commands -/

/-- DECLARE_FIRE, request 0Ch, minimum level 0. -/
def execDeclareFire (client : Byte) (tag : Half) (body : List Byte) (s : State) : Host.Outcome State Fault Refusal :=
  .next (request (some 0) serveDeclareFire client tag body s)

/-- CLEAR_FIRE, request 0Dh, minimum level 0. -/
def execClearFire (client : Byte) (tag : Half) (body : List Byte) (s : State) : Host.Outcome State Fault Refusal :=
  .next (request (some 0) serveClearFire client tag body s)

/-- FIRE_LINE_CHANGE (R140): FIRE_IN is seen at a level. -/
def execFireLineChange (asserted : Bool) (s : State) : Host.Outcome State Fault Refusal :=
  .next (s.setFireLine (s.fireLine.see s.partTime asserted))

/-- The filter after its count completes: the filtered state moves and change-since is cleared (R140). -/
def FireLine.settle (alarm : Bool) (f : FireLine) : FireLine := { f with alarm := alarm, changeSince := none }

/-- The line activates fire (R141); an activation that changes a zone is a wake event (R145, R154). -/
def activateFire (s : State) : State :=
  let changed := fireChanges activationMove s
  let s := moveFire .line activationMove (s.setFireLine (s.fireLine.settle true))
  if changed.isEmpty then s else wakeEvent .fire changed s

/-- FIRE_LINE_ACTIVATION (R140, R141). Before the count of 2 s completes in NORMAL the event does not occur. -/
def execFireLineActivation (s : State) : Host.Outcome State Fault Refusal :=
  .next (if !s.fireLine.alarm && s.fireLine.complete s.partTime activationTime then activateFire s else s)

/-- The line releases fire (R142). -/
def releaseFire (s : State) : State := moveFire .release releaseMove (s.setFireLine (s.fireLine.settle false))

/-- FIRE_LINE_RELEASE (R140, R142). Before the count of 10 s completes in ALARM the event does not occur. -/
def execFireLineRelease (s : State) : Host.Outcome State Fault Refusal :=
  .next (if s.fireLine.alarm && s.fireLine.complete s.partTime releaseTime then releaseFire s else s)

end Sys2Proof.Machine
end

