-- ==== Sys2Proof/Machine/QuietCommands.lean ====
section
/-!
DEFINITION. Quiet hours: QUIET (R150, R151), WAKE (R156), a change of QUIET_IN (R155), and the arrival of the warm-until
(R157).
-/
namespace Sys2Proof.Machine

/-! ### QUIET -/

/-- The device enters QUIET in a mode (R151). -/
def enterQuiet (mode : QuietMode) (s : State) : State :=
  let s := s.setQuiet { s.quiet with mode := mode, enteredAt := some s.partTime }
  raiseQuietChange [] (u8 quietEntered ++ u8 mode.code) (settleAllLamps (s.setDevice .quiet))

/-- A QUIET request that passes its checks (R151): entry, or straight to WARMING where a WHILE_LINE request finds the line
deasserted. -/
def takeQuiet (mode : QuietMode) (s : State) : State :=
  if mode = .whileLine && !s.quiet.line then enterWarming .line [] s else enterQuiet mode s

/-- A condition of QUIET: NOT_NOW with the code of the condition in the detail and what it names in the body (R150). -/
def requireQuiet (holds : Bool) (code : Nat) (names : List Byte) : Check Unit :=
  if holds then .ok () else .error { result := .notNow, detail := code, body := names }

/-- The lowest configured zone that passes a test. -/
def lowestZone (p : Zone → Bool) (s : State) : Option Nat := (s.zones.find? fun q => p q.2).map Prod.fst

/-- QUIET (R150, R151). -/
def serveQuiet (_client : Nat) (body : List Byte) (s : State) : Served :=
  served s do
    let (code, _) ← fields readU8 body
    let mode ← need (QuietMode.ofCode code) .form
    requireQuiet (s.device = .running) 1 (u8 s.device.code)
    let fire := lowestZone (fun z => z.fire ≠ .noFire) s
    requireQuiet fire.isNone 2 (u8 (fire.getD 0))
    let air := lowestZone (fun z => z.air.state ≠ .clear) s
    requireQuiet air.isNone 3 (u8 (air.getD 0))
    requireQuiet s.steers.isEmpty 4 (u8 s.steers.length)
    let s' := takeQuiet mode s
    return (Reply.done (u8 s'.device.code), s')

/-! ### WAKE -/

/-- WAKE (R156). -/
def serveWake (_client : Nat) (_body : List Byte) (s : State) : Served :=
  match s.device with
  | .quiet => (Reply.done (u8 DeviceState.warming.code), wakeEvent .wake [] s)
  | .warming => (Reply.done (u8 DeviceState.warming.code), s)
  | _ => (Reply.refuse .notNow, s)

/-! ### QUIET_IN -/

/-- The line is deasserted: the wake of a spell in WHILE_LINE mode (R155). -/
def quietInFalls (s : State) : State :=
  let s' := s.setQuiet { s.quiet with line := false }
  if s.quiet.mode = .whileLine then wakeEvent .line [] s' else s'

/-- QUIET_CHANGE reports an assertion of the line in this device state (R155, R158). -/
def DeviceState.hearsLine : DeviceState → Bool
  | .running => true
  | .starting => true
  | .warming => true
  | _ => false

/-- The line is asserted (R155). -/
def quietInRises (s : State) : State :=
  let s' := s.setQuiet { s.quiet with line := true }
  if s.device.hearsLine then raiseQuietChange [] (u8 quietLineAsserted) s' else s'

/-! ### The commands -/

/-- QUIET, request 0Eh, minimum level 1. -/
def execQuiet (client : Byte) (tag : Half) (body : List Byte) (s : State) : Host.Outcome State Fault Refusal :=
  .next (request (some 1) serveQuiet client tag body s)

/-- WAKE, request 0Fh, minimum level 1. -/
def execWake (client : Byte) (tag : Half) (body : List Byte) (s : State) : Host.Outcome State Fault Refusal :=
  .next (request (some 1) serveWake client tag body s)

/-- QUIET_IN_CHANGE (R155): QUIET_IN is seen at a level. The level already seen is no change. -/
def execQuietInChange (asserted : Bool) (s : State) : Host.Outcome State Fault Refusal :=
  .next (if asserted = s.quiet.line then s else if asserted then quietInRises s else quietInFalls s)

/-- WARM_UNTIL (R157): WARMING ends when the warm set is already empty. -/
def execWarmUntil (s : State) : Host.Outcome State Fault Refusal := .next (endWarming s)

end Sys2Proof.Machine
end

