-- ==== Sys2Proof/Machine/Evaluation.lean ====
section
/-!
DEFINITION. The air evaluation as an event of the whole part (R77): the zones' six steps, and what is handed on (R88).
-/
namespace Sys2Proof.Machine

/-- The zones whose candidate wakes the part (R88, R158). -/
def wakingZones (s : State) : List Nat :=
  Table.keys (s.zones.filter fun p =>
    p.2.air.candidate = some .watch || p.2.air.candidate = some .act || p.2.air.candidate = some .bar)

/-- The hand-on of an evaluation (R88): demand and targets with the start gate, lamp levels, guidance states with the
redirect pass over the zones that leave OPEN. -/
def handOnAir (s : State) : State :=
  let zs := s.zones.keys
  deriveAndRedirect zs (settleLampsOf zs (gate (settleDemand zs s)))

/-- The wake of an evaluation, where a candidate is WATCH, ACT or BAR (R88, R154). -/
def wakeByAir (s : State) : State :=
  let zs := wakingZones s
  if zs.isEmpty then s else wakeEvent .air zs s

/-- An air evaluation: the attention it raises is settled on the records as they stood before it (R95 to R97). -/
def airEvaluation (s : State) : State :=
  let raises := zonesRaises s
  let s := raiseAll raises (evaluateZones s)
  let s := s.setNextEvaluation (s.nextEvaluation.map (· + evaluationInterval))
  wakeByAir (handOnAir s)

/-- AIR_EVALUATION (R77). In UNCONFIGURED, or before the next evaluation's part time, the event does not occur. -/
def execAirEvaluation (s : State) : Host.Outcome State Fault Refusal :=
  .next (if s.device ≠ .unconfigured && reached s.partTime s.nextEvaluation then airEvaluation s else s)

end Sys2Proof.Machine
end

