-- ==== Sys2Proof/Machine/LaneEvents.lean ====
section
/-!
DEFINITION. The events of the segment pollers: a poll built (R162), a response within the window (R163, R165), a miss
(R160), the next sweep in QUIET (R167), the first sweep of a start (R174), and a head's lost time (R170).
-/
namespace Sys2Proof.Machine

/-- The next poll of a segment is sent: the poller walks to the head it visits next, and the exchange begins. -/
def pollNext (segment : Nat) (s : State) : State :=
  let s := walkSegment segment s
  let g := s.segment segment
  match g.sweep with
  | .sweeping (a :: todo) =>
    match s.head segment a with
    | none => s
    | some h => sendPoll segment a todo g h s
  | _ => s

/-- POLL_BUILD (R160, R162). While an exchange is in flight, or in UNCONFIGURED, no poll is sent (R160, R166). -/
def execPollBuild (segment : Nat) (s : State) : Host.Outcome State Fault Refusal :=
  .next (if s.device = .unconfigured || (s.segment segment).exchange.isSome then s else pollNext segment s)

/-- An exchange with more bytes received in its window. -/
def Exchange.receive (bytes : List Byte) (x : Exchange) : Exchange := { x with received := x.received ++ bytes }

/-- The exchange of a segment goes on, changed. -/
def keepExchange (segment : Nat) (x : Exchange) (s : State) : State :=
  s.putSegment segment { s.segment segment with exchange := some x }

/-- RESPONSE_ACCEPTED (R160, R163, R165): bytes received within the response window, after those it has received already.
While all the bytes of the window together are no valid response none of them is used, and the window runs on to its end;
bytes outside a window are discarded (notes/assumptions/35.md). -/
def execResponseAccepted (segment : Nat) (bytes : List Byte) (s : State) : Host.Outcome State Fault Refusal :=
  .next <|
    match (s.segment segment).exchange with
    | none => s
    | some x =>
      match parseResponse x.address (x.receive bytes).received with
      | none => keepExchange segment (x.receive bytes) s
      | some r => endExchange segment x (answerHead segment x.address r) s

/-- MISS (R160): the response window closes with no valid response. -/
def execMiss (segment : Nat) (s : State) : Host.Outcome State Fault Refusal :=
  .next <|
    match (s.segment segment).exchange with
    | none => s
    | some x => endExchange segment x (missHead segment x.address) s

/-- A poller that waits in QUIET has a head to visit (R167). -/
def resumes (segment : Nat) (s : State) : Bool :=
  s.device = .quiet && (s.segment segment).sweep = .waiting && (s.listed segment).any (s.visits segment false)

/-- SWEEP_RESUME (R167). Before one of the segment's heads becomes due the event does not occur. -/
def execSweepResume (segment : Nat) (s : State) : Host.Outcome State Fault Refusal :=
  .next (if resumes segment s then s.putSegment segment (nextSweep s segment (s.segment segment)) else s)

/-- STARTUP_SWEEP_BEGIN (R174): the first sweep of a start, once the window of any abandoned exchange has closed. -/
def execStartupSweepBegin (segment : Nat) (s : State) : Host.Outcome State Fault Refusal :=
  .next <|
    if s.device ≠ .unconfigured && (s.segment segment).sweep = .awaitingStart then
      s.putSegment segment (nextSweep s segment (s.segment segment))
    else s

/-- LOST_TIME_REACHED (R170). With fewer than three misses, or before the time, the event does not occur. -/
def execLostTimeReached (segment address : Nat) (s : State) : Host.Outcome State Fault Refusal :=
  .next <|
    match s.head segment address with
    | none => s
    | some h => if h.goesLost s.partTime s.lostTime then loseHead segment address h s else s

end Sys2Proof.Machine
end

