-- ==== Sys2Proof/Machine/PortCommands.lean ====
section
/-!
DEFINITION. The supervisor port's own commands: IDENTIFY (R184), FETCH (R189), FETCH_DONE (R190), a discarded frame (R179),
a read transfer (R180), a frame of an unknown kind (R181), and the passing of a second (R184). Before them, the command
that a selection gives by the bytes it delivered (R178 to R180).
-/
namespace Sys2Proof.Machine

/-! ### Selections -/

/-- The command of a selection that delivered these bytes on MOSI. While READY is asserted it is a read transfer of as many
bytes and MOSI is ignored (R180); otherwise its frame is read (R178, R179). -/
def State.transferOf (s : State) (mosi : List Byte) : Instr :=
  if s.response.isSome then .readTransfer mosi.length else commandOf mosi

/-- A selection ends: its command waits behind those that came before it (notes/assumptions/4.md). -/
def State.select (s : State) (mosi : List Byte) : State := s.setPending (s.pending ++ [s.transferOf mosi])

/-! ### IDENTIFY -/

/-- The bay records: the sum of the configured zones' bay counts (R184). -/
def State.bayRecords (s : State) : Nat := (s.zones.map fun p => p.2.config.bayCount).sum

/-- The body of the response to IDENTIFY (R184). -/
def identifyBytes (s : State) : List Byte :=
  u16 Config.vendorCode ++ u16 Config.partCode ++ u8 Config.revision ++ u8 s.device.code ++ u8 s.resetCause.code ++
    u32 s.partTime ++ u8 s.zones.length ++ u16 s.bayRecords ++ u8 s.heads.length

/-- IDENTIFY (R184). -/
def serveIdentify (_client : Nat) (_body : List Byte) (s : State) : Served := (Reply.done (identifyBytes s), s)

/-! ### FETCH -/

/-- The better of two set latches for FETCH: the lower level, then the lower source number (R189). -/
def moreUrgent (a b : Nat × Source) : Nat × Source := if b.2.level < a.2.level then b else a

/-- The set latches with their source numbers, in source order. -/
def setLatches (s : State) : List (Nat × Source) :=
  (List.range 16).filterMap fun n => if (s.source n).isSet then some (n, s.source n) else none

/-- The set latch that FETCH takes (R189). -/
def urgentLatch (s : State) : Option (Nat × Source) :=
  match setLatches s with
  | [] => none
  | p :: rest => some (rest.foldl moreUrgent p)

/-- The body of the response to FETCH: source number, level, zone mask, count, first-set time, detail. A set latch always
has the last two. -/
def latchBytes (n : Nat) (r : Source) : List Byte :=
  u8 n ++ u8 r.level ++ maskBytes r.mask ++ u8 r.count ++ u32 (r.firstSet.getD 0) ++ r.detail.getD []

/-- FETCH (R189). -/
def serveFetch (_client : Nat) (_body : List Byte) (s : State) : Served :=
  match urgentLatch s with
  | none => (Reply.done [], s)
  | some (n, r) =>
    (Reply.done (latchBytes n r), (s.setSources (s.sources.setIfInBounds n r.clearLatch)).setFetchMask true)

/-- FETCH_DONE (R190). -/
def serveFetchDone (_client : Nat) (_body : List Byte) (s : State) : Served := (Reply.done [], s.setFetchMask false)

/-! ### The commands -/

/-- IDENTIFY, request 01h, minimum level 3. -/
def execIdentify (client : Byte) (tag : Half) (body : List Byte) (s : State) : Host.Outcome State Fault Refusal :=
  .next (request (some 3) serveIdentify client tag body s)

/-- FETCH, request 10h, minimum level 1. -/
def execFetch (client : Byte) (tag : Half) (body : List Byte) (s : State) : Host.Outcome State Fault Refusal :=
  .next (request (some 1) serveFetch client tag body s)

/-- FETCH_DONE, request 11h, minimum level 1. -/
def execFetchDone (client : Byte) (tag : Half) (body : List Byte) (s : State) : Host.Outcome State Fault Refusal :=
  .next (request (some 1) serveFetchDone client tag body s)

/-- DISCARDED_FRAME (R179): no response. Taken while READY is asserted, the selection is a read transfer (R180). -/
def execDiscardedFrame (mosi : List Byte) (s : State) : Host.Outcome State Fault Refusal :=
  .next <|
    match s.response with
    | some r => readOut mosi.length r s
    | none => s.setMiso (zeros mosi.length)

/-- READ_TRANSFER (R180): a selection of so many bytes. With READY deasserted there is nothing to read, and MISO carries
00h (R179). -/
def execReadTransfer (clocks : Nat) (s : State) : Host.Outcome State Fault Refusal :=
  .next <|
    match s.response with
    | some r => readOut clocks r s
    | none => s.setMiso (zeros clocks)

/-- REQUEST_KIND_UNKNOWN (R181): FORM, and no block sees the request. -/
def execRequestKindUnknown (client _kind : Byte) (tag : Half) (body : List Byte) (s : State) :
    Host.Outcome State Fault Refusal :=
  .next (request none (fun _ _ s => (Reply.refuse .form, s)) client tag body s)

/-- PART_TIME_TICK (R184): part time rises by one. What falls due with it are events of their own. -/
def execPartTimeTick (s : State) : Host.Outcome State Fault Refusal := .next (s.setPartTime (s.partTime + 1))

end Sys2Proof.Machine
end

