-- ==== Sys2Proof/Machine/Ranges.lean ====
section
/-!
DEFINITION. Bay ranges and zone counts: the newly ranged bay (R22), what a change of range does to the bay records (R6),
and the counts set from the records (R6, R21).
-/
namespace Sys2Proof.Machine

/-- The record of a newly ranged bay (R22). -/
def Bay.ranged (now : Nat) : Bay where
  kind := .standard
  binding := none
  service := .outOfService
  locked := false
  sense := .sensed
  occupancy := .vacant
  pendingSince := none
  lastChange := now
  hold := none

/-- The bay records with those of a range given up discarded; the numbers that stay in the new range keep theirs (R6). -/
def dropRange (old new : ZoneConfig) (bays : Table Bay) : Table Bay :=
  bays.filter fun p => !old.covers p.1 || new.covers p.1

/-- The bay records with every number of a range there, made anew where it has none (R6, R22). -/
def fillRange (now : Nat) (c : ZoneConfig) (bays : Table Bay) : Table Bay :=
  c.range.foldl (fun t g => if Table.has t g then t else Table.put t g (Bay.ranged now)) bays

/-- How many of some bays are of a kind and category. -/
def countBays (bs : List Bay) (k : BayKind) (c : Category) : Nat :=
  (bs.filter fun b => b.kind = k && b.category = c).length

/-- The category counts of one kind set from the records; the in-transit count is kept. -/
def KindCounts.recount (bs : List Bay) (k : BayKind) (c : KindCounts) : KindCounts where
  free := countBays bs k .free
  occupied := countBays bs k .occupied
  held := countBays bs k .held
  unavailable := countBays bs k .unavailable
  inTransit := c.inTransit

/-- The category counts of a zone set from the records of its range (R6). -/
def Counts.recount (bs : List Bay) (c : Counts) : Counts where
  standard := c.standard.recount bs .standard
  wide := c.wide.recount bs .wide
  charge := c.charge.recount bs .charge

/-- The bay records in a zone's range. -/
def baysIn (c : ZoneConfig) (bays : Table Bay) : List Bay := (bays.filter fun p => c.covers p.1).map Prod.snd

/-- No bay and no steer of any kind. -/
def Counts.zero : Counts := { standard := KindCounts.zero, wide := KindCounts.zero, charge := KindCounts.zero }

/-- The air fields of a zone that has never been evaluated (R15, R21, R99). -/
def ZoneAir.start : ZoneAir where
  coReading := none
  noReading := none
  fCO := 0
  sCO := 0
  fNO := 0
  sNO := 0
  antCO := 0
  seeded := false
  state := .blind
  dwell := 0
  autoDemand := 0
  candidate := none
  blindReported := false

end Sys2Proof.Machine
end

