-- ==== Sys2Proof/Machine/Resets.lean ====
section
/-!
DEFINITION. The two resets: the soft restart that RESTART gives (R187, with the reset rules of every chapter) and the cold
reset (R187).
-/
namespace Sys2Proof.Machine

/-! ### What a soft restart leaves of each record -/

/-- A bay after a soft restart (R48). -/
def Bay.restarted (b : Bay) : Bay :=
  { b with
    sense := if b.binding.isSome then .unsensed else .sensed
    occupancy := .vacant
    pendingSince := none
    lastChange := 0
    hold := none }

/-- A fire state after a soft restart (R148). -/
def FireState.restarted : FireState → FireState
  | .noFire => .noFire
  | .active => .held
  | .held => .held

/-- A zone after a soft restart, its counts rebuilt from the bay records as the restart leaves them (R21, R99, R148). -/
def Zone.restarted (bays : Table Bay) (z : Zone) : Zone where
  config := z.config
  counts := Counts.zero.recount (baysIn z.config bays)
  air := ZoneAir.start
  demand := 0
  fire := z.fire.restarted
  lineFlag := false
  declaredFlag := false
  guidance := if z.fire = .noFire then .closedStart else .closedFire
  stack := []

/-- Eight counters at 0 (R54). -/
def PassageCounters.zero : PassageCounters where
  forward := 0
  reverse := 0
  guided := 0
  full := 0
  settled := 0
  expired := 0
  cancelled := 0
  overflow := 0

/-- A passage after a soft restart, or as it is configured (R49, R54, R75). -/
def Passage.fresh (c : PassageConfig) : Passage where
  config := c
  counters := PassageCounters.zero
  kioskWait := 0
  waitUntil := none
  last := none

/-- A sign after a soft restart, or as it is configured (R75). -/
def Sign.fresh (c : SignConfig) : Sign := { config := c, shown := none, lastSent := none, headFault := false }

/-- A fan in a state with every live field clear (R100, R118). -/
def Fan.fresh (head : HeadId) (zone : Nat) (assist : Option Nat) (st : FanState) : Fan where
  head := head
  zone := zone
  assist := assist
  state := st
  target := 0
  commanded := 0
  observed := 0
  runFlag := false
  tripFlag := false
  localFlag := false
  reportTime := none
  trips := []
  startEnds := none
  rundownEnds := none
  timeQueued := none

/-- A fan after a soft restart (R118). -/
def Fan.restarted (f : Fan) : Fan :=
  Fan.fresh f.head f.zone f.assist (if f.state = .lockedOut then .lockedOut else .unreached)

/-- A lamp group's live fields after a soft restart, before its level is settled (R131). -/
def LampGroup.restarted (g : LampGroup) : LampGroup :=
  { g.dim with observed := 0, failed := 0, motionSeen := false, reportTime := none }

/-- A head that is listed: configured, reconfigured, or after a soft restart (R175, R177). -/
def Head.listed (kind : HeadKind) (wake : Bool) : Head where
  kind := kind
  wake := wake
  state := .listed
  misses := 0
  lastValid := none
  reference := none
  report := none
  status := none
  kindSeen := none
  lastPolled := none
  toggle := false
  lostSince := none

/-- Quiet control after a soft restart: the settings are kept and the line is taken from the pin (R159). -/
def Quiet.restarted (q : Quiet) : Quiet :=
  { q with mode := .noMode, enteredAt := none, wakeTime := none, wakeCause := none, warmUntil := none, warmSet := [] }

/-! ### The soft restart -/

/-- The records of the field after a soft restart: bays, zones, holds, steers, passages, signs, fans, heads. -/
def restartRecords (s : State) : State :=
  let bays := s.bays.mapWith fun _ b => b.restarted
  let s := (s.setBays bays).setZones (s.zones.mapWith fun _ z => z.restarted bays)
  let s := (s.setHoldCount 0).setSteers []
  let s := s.setPassages (s.passages.mapWith fun _ p => Passage.fresh p.config)
  let s := s.setSigns (s.signs.mapWith fun _ r => Sign.fresh r.config)
  let s := s.setFans (s.fans.mapWith fun _ f => f.restarted)
  s.setHeads (s.heads.mapWith fun _ h => Head.listed h.kind h.wake)

/-- The units after a soft restart: the fire line filter, quiet control, the attention unit, the response buffer. -/
def restartUnits (s : State) : State :=
  let s := (s.setFireLine s.fireLine.afterReset).setQuiet s.quiet.restarted
  let s := (s.setSources (s.sources.map Source.clearLatch)).setFetchMask false
  s.setResponse none

/-- Entry to STARTING: the start time, the evaluations counted from it, and the start-up sweeps (R77, R174). -/
def enterStarting (s : State) : State :=
  let s := (s.setStartTime s.partTime).setNextEvaluation (some (s.partTime + evaluationInterval))
  (forSegments (fun _ _ _ => Segment.restarted) s).setDevice .starting

/-- A soft restart (R187). -/
def softRestart (s : State) : State :=
  let s := (s.setPartTime 0).setResetCause .restart
  let s := enterStarting (restartUnits (restartRecords s))
  settleAllLamps (s.setLamps (s.lamps.mapWith fun _ g => g.restarted))

/-- RESTART (R187). -/
def serveRestart (_client : Nat) (_body : List Byte) (s : State) : Served :=
  if s.device = .unconfigured then (Reply.refuse .notNow, s)
  else (Reply.done (u8 DeviceState.starting.code), softRestart s)

/-! ### The cold reset -/

/-- The reset cause of a cold reset (R187). -/
def resetCauseOf : ColdCause → ResetCause
  | .power => .power
  | .pin => .pin

/-- The whole part at its cold reset values, with the two line inputs as they stand (R140, R159, R187). The commands that
wait stand outside the part. -/
def coldReset (c : ColdCause) (s : State) : State :=
  let r := ((State.reset.setPending s.pending).setResetCause (resetCauseOf c)).setFireLine s.fireLine.afterReset
  r.setQuiet { r.quiet with line := s.quiet.line }

/-! ### The commands -/

/-- RESTART, request 14h, minimum level 0. -/
def execRestart (client : Byte) (tag : Half) (body : List Byte) (s : State) : Host.Outcome State Fault Refusal :=
  .next (request (some 0) serveRestart client tag body s)

/-- COLD_RESET (R187): power-on, or RESET_N. -/
def execColdReset (cause : ColdCause) (s : State) : Host.Outcome State Fault Refusal := .next (coldReset cause s)

end Sys2Proof.Machine
end

