-- ==== Sys2Proof/Machine/Start.lean ====
section
/-!
DEFINITION. GO: the cross-check of the configuration, and the start (R185).
-/
namespace Sys2Proof.Machine

/-! ### Class codes (10.3) of the records that GO and a head's binding form name -/

/-- The class code and number of a zone. -/
def zoneName (n : Nat) : List Byte := u8 0x01 ++ u8 n
/-- The class code and global number of a bay. -/
def bayName (g : Nat) : List Byte := u8 0x02 ++ u16 g
/-- The class code and number of a passage. -/
def passageName (n : Nat) : List Byte := u8 0x06 ++ u8 n
/-- The class code and number of a sign. -/
def signName (n : Nat) : List Byte := u8 0x08 ++ u8 n
/-- The class code and number of a fan. -/
def fanName (n : Nat) : List Byte := u8 0x0B ++ u8 n
/-- The class code and number of a lamp group. -/
def lampName (n : Nat) : List Byte := u8 0x0D ++ u8 n

/-! ### The cross-check -/

/-- A failed check: its detail code and the offending record's class and number. -/
structure GoFailure where
  detail : Nat
  name : List Byte
  deriving DecidableEq, Repr

/-- The check of a zone. -/
def checkZone (n : Nat) (z : Zone) : Option GoFailure :=
  if z.config.airHeads.isEmpty then some { detail := 2, name := zoneName n } else none

/-- The head of a binding is configured and of kind BAY. -/
def bindsBayHead (s : State) (x : Binding) : Bool :=
  match s.head x.segment x.address with
  | none => false
  | some h => h.kind = .bay

/-- The checks of a bay; a SENSORLESS one passes. -/
def checkBay (s : State) (g : Nat) (b : Bay) : Option GoFailure :=
  match b.binding with
  | none => none
  | some x =>
    if !bindsBayHead s x then some { detail := 3, name := bayName g }
    else if s.bays.any fun p => p.1 < g && p.2.binding = some x then some { detail := 4, name := bayName g }
    else none

/-- The zones that a passage names. -/
def PassageConfig.zones (c : PassageConfig) : List Nat := optList c.fromZone ++ optList c.toZone ++ c.preference

/-- The checks of a passage. -/
def checkPassage (s : State) (n : Nat) (p : Passage) : Option GoFailure :=
  if !zonesThere s p.config.zones then some { detail := 5, name := passageName n }
  else if p.config.kind = .entry && p.config.preference.isEmpty then some { detail := 6, name := passageName n }
  else none

/-- The check of a fan. -/
def checkFan (s : State) (n : Nat) (f : Fan) : Option GoFailure :=
  if !zonesThere s (f.zone :: optList f.assist) then some { detail := 5, name := fanName n } else none

/-- The check of a lamp group. -/
def checkLamp (s : State) (n : Nat) (g : LampGroup) : Option GoFailure :=
  if !zonesThere s [g.zone] then some { detail := 5, name := lampName n } else none

/-- The check of a sign. -/
def checkSign (s : State) (n : Nat) (r : Sign) : Option GoFailure :=
  if !zonesThere s (r.config.watched ++ r.config.directions.map Prod.fst) then some { detail := 5, name := signName n }
  else none

/-- The first failure among the records of a class, in record order. -/
def firstFailure {α : Type} (check : Nat → α → Option GoFailure) (t : Table α) : Option GoFailure :=
  t.findSome? fun p => check p.1 p.2

/-- The first failure of the cross-check, class by class; with no zone configured there is no record to name. -/
def crossCheck (s : State) : Option GoFailure :=
  if s.zones.isEmpty then some { detail := 1, name := [] }
  else
    (firstFailure checkZone s.zones).or <| (firstFailure (checkBay s) s.bays).or <|
      (firstFailure (checkPassage s) s.passages).or <| (firstFailure (checkFan s) s.fans).or <|
        (firstFailure (checkLamp s) s.lamps).or (firstFailure (checkSign s) s.signs)

/-! ### The start -/

/-- The device goes from UNCONFIGURED to STARTING (R185): every guidance state is derived again, the fans take up a fire
that stands (R139), and every lamp group is settled. -/
def start (s : State) : State :=
  let s := takeUpFire (enterStarting s)
  settleAllLamps (deriveAndRedirect s.zones.keys s)

/-- GO (R185). -/
def serveGo (_client : Nat) (_body : List Byte) (s : State) : Served :=
  if s.device ≠ .unconfigured then (Reply.refuse .notNow, s)
  else
    match crossCheck s with
    | some f => ({ result := .combination, detail := f.detail, body := f.name }, s)
    | none => (Reply.done [], start s)

/-- GO, request 13h, minimum level 0. -/
def execGo (client : Byte) (tag : Half) (body : List Byte) (s : State) : Host.Outcome State Fault Refusal :=
  .next (request (some 0) serveGo client tag body s)

end Sys2Proof.Machine
end

