-- ==== Sys2Proof/Machine/Look.lean ====
section
/-!
DEFINITION. LOOK (R183): each class's record as a response carries it, and the request.
-/
namespace Sys2Proof.Machine

/-! ### Zones (R17) -/

/-- The flags of a zone in the bits of its flag set (R183). -/
def ZoneConfig.flags (c : ZoneConfig) : List Bool := [c.longAllowed, c.fireGroup, c.haltRole]

/-- The CONFIG view. -/
def zoneConfigBytes (n : Nat) (c : ZoneConfig) : List Byte :=
  u8 n ++ u8 c.level ++ u16 c.bayBase ++ u8 c.bayCount ++ listBytes headBytes c.airHeads ++ u16 c.travelTime ++
    u8 c.baseStep ++ u8 c.quietBase ++ u8 c.blindStep ++ flagSet c.flags

/-- The four category counts of a kind. -/
def KindCounts.bytes (c : KindCounts) : List Byte := u8 c.free ++ u8 c.occupied ++ u8 c.held ++ u8 c.unavailable

/-- The COUNTS view. -/
def zoneCountsBytes (z : Zone) : List Byte :=
  let c := z.counts
  c.standard.bytes ++ c.wide.bytes ++ c.charge.bytes ++
    u8 c.standard.inTransit ++ u8 c.wide.inTransit ++ u8 c.charge.inTransit ++
    u8 (c.offered .standard) ++ u8 (c.offered .wide) ++ u8 (c.offered .charge) ++
    u8 z.guidance.code ++ u8 z.fire.code ++ u8 z.air.state.code ++ u8 z.demand

/-- A zone reading with its reading time. -/
def Reading.bytes (r : Reading) : List Byte := u16 r.value ++ u32 r.time

/-- The AIR view. Each zone reading and its reading time are absent together, so the model carries value and time of a gas as
one group with one presence byte, where R17 and R178 name two fields (notes/assumptions/10.md). -/
def zoneAirBytes (a : ZoneAir) : List Byte :=
  optBytes Reading.bytes a.coReading ++ optBytes Reading.bytes a.noReading ++
    u32 a.fCO ++ u32 a.sCO ++ u32 a.fNO ++ u32 a.sNO ++ u16 a.antCO ++
    flagByte a.seeded ++ u8 a.state.code ++ u8 a.dwell

/-- LOOK of a zone: zone, view. -/
def lookZone (body : List Byte) (s : State) : Check (List Byte) := do
  let (n, body) ← fields readU8 body
  let z ← needZone n s
  let (view, _) ← fields readU8 body
  match view with
  | 0 => return zoneConfigBytes n z.config
  | 1 => return zoneCountsBytes z
  | 2 => return zoneAirBytes z.air
  | _ => .error (Reply.refuse .form)

/-! ### Bays (R26, R47) -/

/-- A bay record. -/
def bayRecord (z i g : Nat) (b : Bay) : List Byte :=
  u8 z ++ u8 i ++ u16 g ++ u8 b.kind.code ++ optBytes bindingBytes b.binding ++ u8 b.service.code ++
    flagByte b.locked ++ u8 b.sense.code ++ u8 b.occupancy.code ++ timeOpt b.pendingSince ++ u32 b.lastChange ++
    u8 b.category.code ++ optBytes Hold.bytes b.hold

/-- LOOK of a bay: zone, index. -/
def lookBay (body : List Byte) (s : State) : Check (List Byte) := do
  let ((z, i), _) ← fields readHandle body
  let (g, b) ← needBay z i s
  return bayRecord z i g b

/-- LOOK of the bay table settings. -/
def baySettingsBytes (s : State) : List Byte := u8 s.settleTime ++ u16 s.holdCount ++ u16 Config.holdLimit

/-! ### Steers (R68) -/

/-- LOOK of a steer: steer id. -/
def lookSteer (body : List Byte) (s : State) : Check (List Byte) := do
  let (id, _) ← fields readU8 body
  let t ← needRecord Config.steerSlots s.steers id
  return steerRecord id t

/-- LOOK of the steer table. -/
def steerTableBytes (s : State) : List Byte :=
  u8 s.steers.length ++ u8 (s.steers.filter fun p => !p.2.plain).length ++
    optBytes u8 ((oldestSteer (fun _ => true) s.steers).map Prod.fst)

/-! ### Passages (R51, R69) -/

/-- The configuration of a passage, in the order of chapter 3.1. -/
def PassageConfig.bytes (c : PassageConfig) : List Byte :=
  u8 c.kind.code ++ headBytes c.head ++ optBytes u8 c.fromZone ++ optBytes u8 c.toZone ++ listBytes u8 c.preference ++
    optBytes u8 c.entrySign ++ u16 c.spacing ++ u16 c.loopLength ++ flagByte c.wakeFlag ++ u16 c.kioskWindow

/-- The eight counters, in the order of R54. -/
def PassageCounters.bytes (c : PassageCounters) : List Byte :=
  halfBytes c.forward ++ halfBytes c.reverse ++ halfBytes c.guided ++ halfBytes c.full ++ halfBytes c.settled ++
    halfBytes c.expired ++ halfBytes c.cancelled ++ halfBytes c.overflow

/-- The last passage taken. -/
def LastPassage.bytes (l : LastPassage) : List Byte :=
  u8 l.direction.code ++ u8 l.vclass.code ++ optBytes u16 l.length ++ u32 l.time

/-- A passage record. -/
def Passage.bytes (p : Passage) : List Byte :=
  p.config.bytes ++ p.counters.bytes ++ u8 p.kioskWait ++ timeOpt p.waitUntil ++ optBytes LastPassage.bytes p.last

/-- LOOK of a passage: passage number. -/
def lookPassage (body : List Byte) (s : State) : Check (List Byte) := do
  let (n, _) ← fields readU8 body
  let p ← needRecord Config.passageSlots s.passages n
  return p.bytes

/-- LOOK of the passage unit settings. -/
def passageSettingsBytes (c : PassageSettings) : List Byte := u16 c.carLimit ++ u16 c.vanLimit

/-! ### Signs (R70, R71) -/

/-- A pair of a direction map. -/
def pairBytes (p : Nat × Nat) : List Byte := u8 p.1 ++ u8 p.2

/-- The configuration of a sign, in the order of chapter 3.9. -/
def SignConfig.bytes (c : SignConfig) : List Byte :=
  headBytes c.head ++ listBytes u8 c.watched ++ listBytes pairBytes c.directions ++ u8 c.showTime ++ flagByte c.hostFlag

/-- A show: situation, zone, show-until. -/
def Show.bytes (x : Show) : List Byte := u8 x.situation ++ optBytes u8 x.zone ++ u32 x.expiry

/-- What a sign was last sent. -/
def LastSent.bytes (l : LastSent) : List Byte := u8 l.situation ++ halfBytes l.word ++ u16 l.count

/-- A sign record, with the situation and count it would be sent now. -/
def signRecord (n : Nat) (r : Sign) (s : State) : List Byte :=
  r.config.bytes ++ optBytes Show.bytes r.shown ++ optBytes LastSent.bytes r.lastSent ++ flagByte r.headFault ++
    u8 (signOutput n r s).situation ++ u16 (signOutput n r s).count

/-- LOOK of a sign: sign number. -/
def lookSign (body : List Byte) (s : State) : Check (List Byte) := do
  let (n, _) ← fields readU8 body
  let r ← needRecord Config.signSlots s.signs n
  return signRecord n r s

/-- A pattern entry. -/
def Pattern.bytes (p : Pattern) : List Byte := halfBytes p.word ++ flagByte p.showCount

/-- LOOK of a pattern entry: situation code. -/
def lookPattern (body : List Byte) (s : State) : Check (List Byte) := do
  let (code, _) ← fields readU8 body
  require (code < 32) .range
  return (s.pattern code).bytes

/-! ### The evaluator (R98) -/

/-- The settings form. -/
def evaluatorBytes (s : State) : List Byte :=
  let c := s.airSettings
  u16 c.watchCO ++ u16 c.actCO ++ u16 c.barCO ++ u16 c.watchNO ++ u16 c.actNO ++ u16 c.barNO ++ u8 c.coldCredit ++
    u8 c.passCredit ++ u16 c.staleHold ++ u32 s.startTime ++ timeOpt s.nextEvaluation

/-- The two status flags of an air report, in the bits of R161. -/
def AirReport.flags (r : AirReport) : List Bool := [r.warming, r.fault]

/-- The report of a head: clamped CO and NO2, flags, report time. -/
def AirReport.bytes (r : AirReport) : List Byte := u16 r.co ++ u16 r.no2 ++ flagSet r.flags ++ u32 r.time

/-- One head of a zone's air head list: its state, whether its last report is valid and fresh, the report. -/
def airHeadBytes (s : State) (id : HeadId) : List Byte :=
  match s.heads.find id.key with
  | none => u8 HeadState.listed.code ++ flagByte false ++ flagByte false ++ optBytes AirReport.bytes none
  | some h => u8 h.state.code ++ flagByte h.airValid ++ flagByte (h.airFresh s.partTime) ++
      optBytes AirReport.bytes h.airReport

/-- The zone form. -/
def evaluatorZoneBytes (z : Zone) (s : State) : List Byte :=
  u8 z.air.autoDemand ++ optBytes (fun c => u8 c.code) z.air.candidate ++ flagByte z.air.blindReported ++
    listBytes (airHeadBytes s) z.config.airHeads

/-- LOOK of the evaluator: form, and zone for the zone form. -/
def lookEvaluator (body : List Byte) (s : State) : Check (List Byte) := do
  let (form, body) ← fields readU8 body
  match form with
  | 0 => return evaluatorBytes s
  | 1 =>
    let (n, _) ← fields readU8 body
    let z ← needZone n s
    return evaluatorZoneBytes z s
  | _ => .error (Reply.refuse .form)

/-! ### Fans (R116) -/

/-- A fan's place in the start queue, counted from 1. -/
def queuePlace (n : Nat) (s : State) : Option Nat :=
  ((startQueue s).findIdx? fun p => p.1 = n).map (· + 1)

/-- A fan record. -/
def fanRecord (n : Nat) (f : Fan) (s : State) : List Byte :=
  headBytes f.head ++ u8 f.zone ++ optBytes u8 f.assist ++ u8 f.state.code ++ u8 f.target ++ u8 f.commanded ++
    u8 f.observed ++ flagByte f.runFlag ++ flagByte f.tripFlag ++ flagByte f.localFlag ++ timeOpt f.reportTime ++
    listBytes u32 f.trips ++ timeOpt f.startEnds ++ timeOpt f.rundownEnds ++ timeOpt f.timeQueued ++
    optBytes u8 (queuePlace n s)

/-- LOOK of a fan: fan number. -/
def lookFan (body : List Byte) (s : State) : Check (List Byte) := do
  let (n, _) ← fields readU8 body
  let f ← needRecord Config.fanSlots s.fans n
  return fanRecord n f s

/-- The settings form of the fan drive. -/
def fanDriveBytes (s : State) : List Byte :=
  u8 s.fanSettings.startLimit ++ u8 s.fanSettings.startTime ++ u8 s.fanSettings.minOffTime ++ u8 (startingCount s) ++
    listBytes (fun p => u8 p.1 ++ u8 (urgency s p.2.zone)) (startQueue s)

/-- The zone form of the fan drive. -/
def fanDriveZoneBytes (n : Nat) (z : Zone) (s : State) : List Byte :=
  u8 z.air.autoDemand ++ (effectiveVent z.stack).bytes ++ optBytes u8 (ventLevel z.stack) ++ u8 z.demand ++
    flagByte (s.short n) ++ u8 (urgency s n) ++
    listBytes u8 (Table.keys (s.fans.filter fun p => p.2.zone = n)) ++
    listBytes u8 (Table.keys (s.fans.filter fun p => p.2.assist = some n))

/-- LOOK of the fan drive: form, and zone for the zone form. -/
def lookFanDrive (body : List Byte) (s : State) : Check (List Byte) := do
  let (form, body) ← fields readU8 body
  match form with
  | 0 => return fanDriveBytes s
  | 1 =>
    let (n, _) ← fields readU8 body
    let z ← needZone n s
    return fanDriveZoneBytes n z s
  | _ => .error (Reply.refuse .form)

/-! ### Lamp groups (R120, R130) -/

/-- The flags of a group in the bits of its flag set (R183). -/
def LampGroup.flags (g : LampGroup) : List Bool := [g.egress, g.motionFlag]

/-- A lamp group record. -/
def lampRecord (g : LampGroup) (s : State) : List Byte :=
  headBytes g.head ++ u8 g.zone ++ u8 g.guardLevel ++ u8 g.lowLevel ++ u16 g.holdTime ++ flagSet g.flags ++
    flagByte g.bright ++ timeOpt g.brightUntil ++ u8 g.effective ++ u8 g.reason.code ++ u8 g.commanded ++
    u8 g.observed ++ u8 g.failed ++ flagByte g.motionSeen ++ timeOpt g.reportTime ++
    flagByte (s.faultThreshold ≤ g.failed)

/-- LOOK of a lamp group: group number. -/
def lookLamp (body : List Byte) (s : State) : Check (List Byte) := do
  let (n, _) ← fields readU8 body
  let g ← needRecord Config.lampSlots s.lamps n
  return lampRecord g s

/-- The settings form of lamp control. -/
def lampControlBytes (s : State) : List Byte :=
  u8 s.faultThreshold ++ u8 (s.lamps.filter fun p => s.faultThreshold ≤ p.2.failed).length

/-- The most records that a form returns at once (R130, R176). -/
def formLimit : Nat := 16

/-- The zone form of lamp control: at most 16 groups of the zone from a first number on, and the next one. -/
def lampControlZoneBytes (n first : Nat) (z : Zone) (s : State) : List Byte :=
  let groups := s.lamps.filter fun p => p.2.zone = n && first ≤ p.1
  u8 (effectiveLight z.stack).code ++ optBytes u8 (lightLevel z.stack) ++
    listBytes (fun p => u8 p.1 ++ flagByte p.2.bright ++ u8 p.2.commanded) (groups.take formLimit) ++
    optBytes u8 (groups[formLimit]?.map Prod.fst)

/-- LOOK of lamp control: form, and for the zone form zone and first group number. -/
def lookLampControl (body : List Byte) (s : State) : Check (List Byte) := do
  let (form, body) ← fields readU8 body
  match form with
  | 0 => return lampControlBytes s
  | 1 =>
    let (n, body) ← fields readU8 body
    let z ← needZone n s
    let (first, _) ← fields readU8 body
    require (first < Config.lampSlots) .range
    return lampControlZoneBytes n first z s
  | _ => .error (Reply.refuse .form)

/-! ### Override stacks and fire (R138, R147) -/

/-- The position and level of an aspect's governing entry, absent under AUTO. -/
def governingBytes (speaks : StackEntry → Bool) (stack : List StackEntry) : List Byte :=
  match governingPosition speaks stack, governing speaks stack with
  | some p, some e => optBytes (fun (x : Nat × Nat) => u8 x.1 ++ u8 x.2) (some (p, e.level))
  | _, _ => optBytes u8 none

/-- The summary form. -/
def stackSummaryBytes (z : Zone) : List Byte :=
  u8 z.stack.length ++
    (effectiveVent z.stack).bytes ++ governingBytes (fun e => e.vent ≠ .auto) z.stack ++
    u8 (effectiveLight z.stack).code ++ governingBytes (fun e => e.lighting ≠ .auto) z.stack ++
    u8 (effectiveGuide z.stack).code ++ governingBytes (fun e => e.guide ≠ .auto) z.stack ++
    u8 z.fire.code

/-- LOOK of an override stack: zone, form, and position for the entry form. -/
def lookStack (body : List Byte) (s : State) : Check (List Byte) := do
  let (n, body) ← fields readU8 body
  let z ← needZone n s
  let (form, body) ← fields readU8 body
  match form with
  | 0 => return stackSummaryBytes z
  | 1 =>
    let (position, _) ← fields readU8 body
    require (1 ≤ position && position ≤ Config.stackDepth) .range
    let e ← need z.stack[position - 1]? .noRecord
    return u8 z.stack.length ++ e.bytes
  | _ => .error (Reply.refuse .form)

/-- The mask of the configured zones that pass a test. -/
def zonesWhere (p : Zone → Bool) (s : State) : ZoneMask := maskOf (Table.keys (s.zones.filter fun q => p q.2))

/-- LOOK of fire. -/
def fireBytes (s : State) : List Byte :=
  flagByte s.fireLine.alarm ++ flagByte s.fireLine.asserted ++ timeOpt s.fireLine.changeSince ++
    maskBytes (zonesWhere (fun z => z.fire = .noFire) s) ++ maskBytes (zonesWhere (fun z => z.fire = .active) s) ++
    maskBytes (zonesWhere (fun z => z.fire = .held) s) ++ maskBytes (zonesWhere Zone.lineFlag s) ++
    maskBytes (zonesWhere Zone.declaredFlag s)

/-! ### Quiet control (R149) -/

/-- LOOK of quiet control. -/
def quietBytes (s : State) : List Byte :=
  let q := s.quiet
  u8 s.device.code ++ u8 q.mode.code ++ flagByte q.line ++ timeOpt q.enteredAt ++ timeOpt q.wakeTime ++
    optBytes (fun c => u8 c.code) q.wakeCause ++ timeOpt q.warmUntil ++ u8 q.warmSet.length ++ u16 q.keepalive ++
    u16 q.warmTime

/-! ### Heads and the lane poller (R176) -/

/-- A byte of a sensor as R163 takes it. -/
def rawByte (b : Byte) : Byte := if b = 0 || b = 1 then b else 2

/-- A passage report as R163 takes it: gap and occupancy. -/
def passageReportBytes (p : Int × Nat) : List Byte := halfBytes (BitVec.ofInt 16 p.1) ++ u16 p.2

/-- A payload decoded by kind, its values taken within the limits of R163. -/
def decodedBytes (kind : HeadKind) (payload : List Byte) : List Byte :=
  match kind, payload with
  | .bay, bs => u8 bs.length ++ bs.map rawByte
  | .loop, overflow :: rest => overflow :: listBytes passageReportBytes (decodePassages rest)
  | .sign, result :: _ => flagByte (result ≠ 0)
  | _, bs => bs

/-- A last report with its report time. -/
def reportBytes (kind : HeadKind) (r : HeadReport) : List Byte := decodedBytes kind r.payload ++ u32 r.time

/-- Whether a head polled at the keepalive rate in QUIET is due; absent for any other head. -/
def dueMark (h : Head) (s : State) : Option Bool :=
  if s.device = .quiet && !h.normalRate then some (h.due s.partTime s.quiet.keepalive) else none

/-- The record form. -/
def headRecord (segment address : Nat) (h : Head) (s : State) : List Byte :=
  u8 segment ++ u8 address ++ u8 h.kind.code ++ flagByte h.wake ++ u8 h.state.code ++ u8 h.misses ++
    timeOpt h.lastValid ++ timeOpt h.reference ++ optBytes (reportBytes h.kind) h.report ++
    optBytes (fun b => [b]) h.status ++ optBytes (fun k => u8 k.code) h.kindSeen ++ timeOpt h.lastPolled ++
    flagByte h.toggle ++ optBytes flagByte (dueMark h s)

/-- The records that bind a head, each as class code and number, in the class order of R185 and then in record order. -/
def bindings (segment address : Nat) (s : State) : List (List Byte) :=
  let id : HeadId := { segment := segment, address := address }
  (Table.keys (s.zones.filter fun p => p.2.config.airHeads.contains id)).map zoneName ++
    (baysOf segment address s).map (fun p => bayName p.1) ++
    (Table.keys (s.passages.filter fun p => p.2.config.head = id)).map passageName ++
    (Table.keys (s.fans.filter fun p => p.2.head = id)).map fanName ++
    (Table.keys (s.lamps.filter fun p => p.2.head = id)).map lampName ++
    (Table.keys (s.signs.filter fun p => p.2.config.head = id)).map signName

/-- The binding form: how many records bind the head, and at most 16 of them from a first index on. -/
def bindingForm (segment address first : Nat) (s : State) : List Byte :=
  let bs := bindings segment address s
  u16 bs.length ++ listBytes id ((bs.drop first).take formLimit)

/-- LOOK of a head: segment, address, form, and first index for the binding form. -/
def lookHead (body : List Byte) (s : State) : Check (List Byte) := do
  let (id, body) ← fields readHead body
  let h ← needHead id.segment id.address s
  let (form, body) ← fields readU8 body
  match form with
  | 0 => return headRecord id.segment id.address h s
  | 1 =>
    let (first, _) ← fields readU16 body
    return bindingForm id.segment id.address first s
  | _ => .error (Reply.refuse .form)

/-- A segment in the LOOK of the lane poller. -/
def segmentBytes (s : State) (i : Nat) : List Byte :=
  u8 (s.listed i).length ++ u8 (s.segment i).sweepCount ++ optBytes u8 ((s.segment i).exchange.map Exchange.address)

/-- LOOK of the lane poller. -/
def lanePollerBytes (s : State) : List Byte := u8 s.lostTime ++ (List.range 4).flatMap (segmentBytes s)

/-! ### The port's own records (R182, R190) -/

/-- LOOK of the client table. -/
def clientBytes (s : State) : List Byte := s.clients.toList.flatMap u8

/-- A 2-byte source mask, source 0 in the lowest bit. -/
def sourceMask (p : Source → Bool) (s : State) : Half :=
  BitVec.ofNat 16 ((s.sources.toList.map p).foldr (fun b n => (if b then 1 else 0) + 2 * n) 0)

/-- LOOK of the attention unit. -/
def attentionBytes (s : State) : List Byte :=
  flagByte s.fetchMask ++ halfBytes (sourceMask Source.enabled s) ++ halfBytes (sourceMask Source.isSet s) ++
    s.sources.toList.flatMap fun r => u8 r.level ++ u8 r.count

/-! ### The request -/

/-- The body of the response to LOOK, by class code (10.3). -/
def lookBody (cls : Nat) (body : List Byte) (s : State) : Check (List Byte) :=
  match cls with
  | 0x01 => lookZone body s
  | 0x02 => lookBay body s
  | 0x03 => .ok (baySettingsBytes s)
  | 0x04 => lookSteer body s
  | 0x05 => .ok (steerTableBytes s)
  | 0x06 => lookPassage body s
  | 0x07 => .ok (passageSettingsBytes s.passageSettings)
  | 0x08 => lookSign body s
  | 0x09 => lookPattern body s
  | 0x0A => lookEvaluator body s
  | 0x0B => lookFan body s
  | 0x0C => lookFanDrive body s
  | 0x0D => lookLamp body s
  | 0x0E => lookLampControl body s
  | 0x0F => lookStack body s
  | 0x10 => .ok (fireBytes s)
  | 0x11 => .ok (quietBytes s)
  | 0x12 => lookHead body s
  | 0x13 => .ok (lanePollerBytes s)
  | 0x14 => .ok (clientBytes s)
  | 0x15 => .ok (attentionBytes s)
  | _ => .error (Reply.refuse .form)

/-- The reply to LOOK: the record, or the check it failed. -/
def lookReply (c : Check (List Byte)) : Reply :=
  match c with
  | .ok b => Reply.done b
  | .error r => r

/-- LOOK (R183): no record is changed. -/
def serveLook (_client : Nat) (body : List Byte) (s : State) : Served :=
  (lookReply (do
    let (cls, body) ← fields readU8 body
    lookBody cls body s), s)

/-- LOOK, request 02h, minimum level 3. -/
def execLook (client : Byte) (tag : Half) (body : List Byte) (s : State) : Host.Outcome State Fault Refusal :=
  .next (request (some 3) serveLook client tag body s)

end Sys2Proof.Machine
end

