-- ==== Sys2Proof/Machine/Records.lean ====
section
/-!
DEFINITION. What AMEND and CONFIGURE share: the checks that a record's configuration passes, and what replacing it does to
the records that depend on it.
-/
namespace Sys2Proof.Machine

/-! ### Zones (R2, R6, R14, R15) -/

/-- The ranges of two zones have a bay in common (R2); an empty range has none. -/
def ZoneConfig.overlaps (a b : ZoneConfig) : Bool :=
  max a.bayBase b.bayBase < min (a.bayBase + a.bayCount) (b.bayBase + b.bayCount)

/-- The checks of a zone's level, base and count (R14). -/
def needRange (n : Nat) (c : ZoneConfig) (s : State) : Check Unit := do
  require (1 ≤ c.level && c.level ≤ 6 && c.bayBase ≤ 2047 && c.bayCount ≤ 255) .range
  require (c.bayBase + c.bayCount ≤ Config.bayNumbers) .range
  require (s.zones.all fun p => p.1 = n || !p.2.config.overlaps c) .combination

/-- The head of an address is configured and of kind AIR. -/
def isAirHead (s : State) (id : HeadId) : Bool :=
  laneInRange id.segment id.address &&
    match s.head id.segment id.address with
    | none => false
    | some h => h.kind = .air

/-- The checks of an air head list (R14). -/
def needAirHeads (l : List HeadId) (s : State) : Check Unit := do
  require (l.length ≤ 4) .form
  require (l.all (isAirHead s) && distinct (l.map HeadId.key)) .combination

/-- The record of a zone as it is first configured (R15). -/
def Zone.fresh (c : ZoneConfig) : Zone where
  config := c
  counts := Counts.zero
  air := ZoneAir.start
  demand := 0
  fire := .noFire
  lineFlag := false
  declaredFlag := false
  guidance := .closedStart
  stack := []

/-- A zone is configured where it was not: its bay records come into being and its counts are set (R6, R15). -/
def addZone (n : Nat) (c : ZoneConfig) (s : State) : State :=
  let s := s.setBays (fillRange s.partTime c s.bays)
  s.setZones (s.zones.put n { Zone.fresh c with counts := Counts.zero.recount (baysIn c s.bays) })

/-- The configuration of a configured zone is replaced; where the base or count differs, the bay records and the counts
follow (R6, R15). -/
def replaceZone (n : Nat) (z : Zone) (c : ZoneConfig) (s : State) : State :=
  if z.config.bayBase = c.bayBase ∧ z.config.bayCount = c.bayCount then s.setZones (s.zones.put n { z with config := c })
  else
    let s := s.setBays (fillRange s.partTime c (dropRange z.config c s.bays))
    s.setZones (s.zones.put n { z with config := c, counts := z.counts.recount (baysIn c s.bays) })

/-- What takes up a zone's configuration is settled: the targets of its fans and of those that assist it with the start
gate, and the levels of its lamp groups (R104, R125). The zone's demand step stands (R15). -/
def settleZone (n : Nat) (s : State) : State := settleLampsOf [n] (gate (retargetZones [n] s))

/-- The configuration of a zone is set; the live fields of one that is configured already keep their values (R15). -/
def setZoneConfig (n : Nat) (c : ZoneConfig) (s : State) : State :=
  settleZone n <|
    match s.zone n with
    | none => addZone n c s
    | some z => replaceZone n z c s

/-- A zone is removed with its bay records (R16). -/
def removeZone (n : Nat) (z : Zone) (s : State) : State :=
  settleZone n ((s.setBays (s.bays.filter fun p => !z.config.covers p.1)).setZones (s.zones.del n))

/-! ### Bays (R25) -/

/-- A binding in range: segment 0 to 3, address 1 to 30, sensor 0 to 15; SENSORLESS is in range. -/
def bindingInRange : Option Binding → Bool
  | none => true
  | some x => laneInRange x.segment x.address && x.sensor ≤ 15

/-- The record of a bay that takes a binding: sense UNSENSED, or SENSED where SENSORLESS, and VACANT (R25). -/
def Bay.rebound (now : Nat) (x : Option Binding) (b : Bay) : Bay :=
  { b with
    binding := x
    sense := if x.isSome then .unsensed else .sensed
    occupancy := .vacant
    pendingSince := none
    lastChange := now }

/-! ### Passages (R50, R51) -/

/-- The zones that the kind needs are present. -/
def PassageConfig.complete (c : PassageConfig) : Bool :=
  match c.kind with
  | .entry => c.toZone.isSome
  | .exit => c.fromZone.isSome
  | .ramp => c.fromZone.isSome && c.toZone.isSome

/-- The fields that the kind does not use are absent. -/
def PassageConfig.unusedAbsent (c : PassageConfig) : Bool :=
  match c.kind with
  | .entry => c.fromZone.isNone
  | .exit => c.toZone.isNone && c.preference.isEmpty && c.entrySign.isNone
  | .ramp => c.preference.isEmpty && c.entrySign.isNone

/-- Segment, address, zone numbers and sign number within their ranges. -/
def PassageConfig.inRange (c : PassageConfig) : Bool :=
  laneInRange c.head.segment c.head.address && c.zones.all (fun z => z < Config.zoneSlots) &&
    (optList c.entrySign).all fun n => n < Config.signSlots

/-- A preference list no longer than 8 with no zone twice. -/
def preferenceFits (l : List Nat) : Bool := l.length ≤ 8 && distinct l

/-- The checks of a passage's configuration after its number (R50). `unused` says that the fields its kind does not use
are absent. -/
def needPassageConfig (n : Nat) (c : PassageConfig) (unused : Bool) (s : State) : Check Unit := do
  require c.complete .form
  require c.inRange .range
  require (preferenceFits c.preference) .form
  require unused .form
  require (c.kind ≠ .ramp || c.fromZone ≠ c.toZone) .combination
  require (s.passages.all fun p => p.1 = n || p.2.config.head ≠ c.head) .combination
  require (s.passages.all fun p => p.1 = n || c.entrySign.isNone || p.2.config.entrySign ≠ c.entrySign) .combination

/-- The spacing clamped to its range. -/
def clampSpacing (v : Nat) : Nat := clampTo 100 1000 v
/-- The loop length clamped to its range. -/
def clampLoop (v : Nat) : Nat := clampTo 100 400 v
/-- The kiosk window clamped to its range. -/
def clampWindow (v : Nat) : Nat := clampTo 10 300 v
/-- The car limit clamped to its range (R51). -/
def clampCar (v : Nat) : Nat := clampTo 200 1500 v
/-- The van limit clamped to its range (R51). -/
def clampVan (v : Nat) : Nat := clampTo 200 3000 v

/-- The car limit stands no higher than the van limit (R51). -/
def PassageSettings.ordered (c : PassageSettings) : Bool := c.carLimit ≤ c.vanLimit

/-! ### Signs (R70) -/

/-- The segment, address, zone numbers and situations of a sign within their ranges. -/
def SignConfig.inRange (c : SignConfig) : Bool :=
  laneInRange c.head.segment c.head.address && c.watched.all (fun z => z < Config.zoneSlots) &&
    c.directions.all fun p => p.1 < Config.zoneSlots && 8 ≤ p.2 && p.2 ≤ 31

/-- No more than 4 watched zones and 8 pairs, and no zone twice in either. -/
def SignConfig.fits (c : SignConfig) : Bool :=
  c.watched.length ≤ 4 && distinct c.watched && c.directions.length ≤ 8 && distinct (c.directions.map Prod.fst)

/-- The checks of a sign's configuration after its number (R70). -/
def needSignConfig (n : Nat) (c : SignConfig) (s : State) : Check Unit := do
  require c.inRange .range
  require c.fits .form
  require (s.signs.all fun p => p.1 = n || p.2.config.head ≠ c.head) .combination

/-- The show time clamped to its range. -/
def clampShow (v : Nat) : Nat := clampTo 3 30 v

/-! ### The evaluator (R93) -/

/-- The thresholds of each gas stand in the order watch < act < bar. -/
def AirSettings.ordered (c : AirSettings) : Bool :=
  c.watchCO < c.actCO && c.actCO < c.barCO && c.watchNO < c.actNO && c.actNO < c.barNO

/-- A CO threshold clamped to its range. -/
def clampCO (v : Nat) : Nat := clampTo 5 500 v
/-- An NO2 threshold clamped to its range. -/
def clampNO (v : Nat) : Nat := clampTo 100 10000 v
/-- The cold credit clamped to its range. -/
def clampCold (v : Nat) : Nat := clampTo 0 16 v
/-- The pass credit clamped to its range. -/
def clampPass (v : Nat) : Nat := clampTo 0 8 v
/-- The stale hold clamped to its range. -/
def clampStale (v : Nat) : Nat := clampTo 30 600 v

/-! ### Fans (R100, R101) -/

/-- The checks of a fan's head, zone and assist zone after its number (R100). -/
def needFanConfig (n : Nat) (head : HeadId) (zone : Nat) (assist : Option Nat) (s : State) : Check Unit := do
  require (laneInRange head.segment head.address && zone < Config.zoneSlots &&
    (optList assist).all fun z => z < Config.zoneSlots) .range
  require (assist ≠ some zone) .combination
  require (s.fans.all fun p => p.1 = n || p.2.head ≠ head) .combination

/-- The fans are changed in UNCONFIGURED; the targets of the zones of a list whose shortness that changes are computed
again (R103). -/
def changeFans (zs : List Nat) (f : State → State) (s : State) : State :=
  let s' := f s
  gate (retargetZones (zs.filter fun z => s'.short z ≠ s.short z) s')

/-- The start limit clamped to its range. -/
def clampLimit (v : Nat) : Nat := clampTo 1 4 v
/-- The start time clamped to its range. -/
def clampStart (v : Nat) : Nat := clampTo 2 30 v
/-- The minimum off time clamped to its range. -/
def clampOff (v : Nat) : Nat := clampTo 5 120 v

/-! ### Lamp groups (R119, R120) -/

/-- The checks of a group's head and zone after its number (R119). -/
def needLampConfig (n : Nat) (head : HeadId) (zone : Nat) (s : State) : Check Unit := do
  require (laneInRange head.segment head.address && zone < Config.zoneSlots) .range
  require (s.lamps.all fun p => p.1 = n || p.2.head ≠ head) .combination

/-- The guard level clamped to its range. -/
def clampGuard (v : Nat) : Nat := clampTo 10 40 v
/-- The low level clamped to the range from the guard level to 100. -/
def clampLow (guard v : Nat) : Nat := clampTo guard 100 v
/-- The hold time clamped to its range. -/
def clampHold (v : Nat) : Nat := clampTo 30 900 v
/-- The fault threshold clamped to its range. -/
def clampFault (v : Nat) : Nat := clampTo 1 32 v

/-! ### Settings of the bay table, quiet control and the lane poller (R26, R149, R176) -/

/-- The settle time clamped to its range. -/
def clampSettle (v : Nat) : Nat := clampTo 2 60 v
/-- The keepalive interval clamped to its range. -/
def clampKeepalive (v : Nat) : Nat := clampTo 10 600 v
/-- The warm time clamped to its range. -/
def clampWarm (v : Nat) : Nat := clampTo 5 120 v
/-- The lost time clamped to its range. -/
def clampLost (v : Nat) : Nat := clampTo 5 120 v

/-! ### Heads (R175) -/

/-- The head is named in some zone's air head list. -/
def inAirList (segment address : Nat) (s : State) : Bool :=
  s.zones.any fun p => p.2.config.airHeads.contains { segment := segment, address := address }

/-- Some record binds the head. -/
def isBound (segment address : Nat) (s : State) : Bool := !(bindings segment address s).isEmpty

/-- A kind of head on which the wake-enabled flag may be set. -/
def HeadKind.takesWake (k : HeadKind) : Bool := k ≠ .air && k ≠ .loop

/-- The checks of a set form after the kind's own (R175): the flag, the air head lists, and outside UNCONFIGURED the
bindings of a head that is configured. -/
def needHeadConfig (segment address : Nat) (kind : HeadKind) (wake : Bool) (s : State) : Check Unit := do
  require (!wake || kind.takesWake) .combination
  match s.head segment address with
  | none => .ok ()
  | some h =>
    require (h.kind = kind || !inAirList segment address s) .combination
    require (s.device = .unconfigured || !isBound segment address s) .combination

/-- No exchange with a listed head is in flight. -/
def Segment.quietLine (g : Segment) : Bool :=
  match g.exchange with
  | none => true
  | some x => x.discarded

/-- The present sweep does not visit a head any more; where that leaves none to visit it ends, unless an exchange with a
listed head is in flight (R166). -/
def Segment.skipping (s : State) (address : Nat) (i : Nat) (todo : List Nat) (g : Segment) : Segment :=
  let g := { g with sweep := .sweeping (todo.filter fun a => a ≠ address) }
  if g.quietLine then walkOn s i g else g

/-- A segment poller at the configuring of a head: the head joins at the next sweep, whether the present one has visited it
or not (R175); an idle poller begins a sweep and a waiting one starts its next sweep earlier (R166, R167); in UNCONFIGURED
the lane bus is idle. -/
def Segment.headAdded (s : State) (address : Nat) (i : Nat) (g : Segment) : Segment :=
  if s.device = .unconfigured then g
  else
    match g.sweep with
    | .idle => nextSweep s i g
    | .waiting => nextSweep s i g
    | .sweeping todo => g.skipping s address i todo
    | .awaitingStart => g

/-- A head is configured or reconfigured (R175): it is LISTED, which is handed on (R172), and joins its segment's sweeps
and, in WARMING, the warm set. Where the present sweep was to visit it last, that sweep ends, which may end STARTING
(R174). -/
def configureHead (segment address : Nat) (kind : HeadKind) (wake : Bool) (s : State) : State :=
  let s := s.setHeads (s.heads.put (headKey segment address) (Head.listed kind wake))
  let s := headGone segment address s
  let s := if s.device = .warming then joinWarmSet (headKey segment address) s else s
  endStarting (s.putSegment segment (Segment.headAdded s address segment (s.segment segment)))

/-- An exchange in flight with a head that is removed: its result is to be discarded (R166). -/
def Exchange.drop (address : Nat) (x : Exchange) : Exchange := if x.address = address then { x with discarded := true } else x

/-- A segment poller at the removal of a head (R166): the head is not visited again, and where that leaves none to visit
the sweep ends, unless an exchange with a listed head is in flight. -/
def Segment.headRemoved (s : State) (address : Nat) (i : Nat) (g : Segment) : Segment :=
  let g := { g with exchange := g.exchange.map (Exchange.drop address) }
  match g.sweep with
  | .sweeping todo => g.skipping s address i todo
  | .waiting => if (s.listed i).isEmpty then { g with sweep := .idle } else g
  | _ => g

/-- A head is removed (R175): it leaves its segment's sweeps and the warm set, which may end WARMING (R157) or STARTING
(R174). -/
def removeHead (segment address : Nat) (s : State) : State :=
  let s := leaveWarmSet (headKey segment address) (s.setHeads (s.heads.del (headKey segment address)))
  let s := s.putSegment segment (Segment.headRemoved s address segment (s.segment segment))
  endStarting (endWarming s)

end Sys2Proof.Machine
end

