-- ==== Sys2Proof/Machine/Amend.lean ====
section
/-!
DEFINITION. AMEND (R183): the amendable fields of each class with their levels, device states, clamps and combinations, and
the request. A field's checks run in the order of R183: the field code, the level, the device state, the value.
-/
namespace Sys2Proof.Machine

/-! ### What every AMEND shares (R183) -/

/-- A field code that the class does not give, or a field that is not amendable. -/
def notAmendable : Check Served := .error (Reply.refuse .form)

/-- The client's level allows the field. -/
def mayAmend (client level : Nat) (s : State) : Check Unit := require (s.clientLevel client ≤ level) .authority

/-- A number: it replaces the old one, brought to the nearer end of its range. The response carries the prior value. -/
def amendNumber (r : Reader Nat) (enc : Nat → List Byte) (clamp : Nat → Nat) (prior : Nat) (put : Nat → State)
    (body : List Byte) : Check Served := do
  let (v, _) ← fields r body
  return (Reply.clampedIf (clamp v ≠ v) (enc prior), put (clamp v))

/-- A flag of a flag set: those named in the mask take their state from the value, the others keep their own. -/
def maskedFlag (value mask : Byte) (bit : Nat) (old : Bool) : Bool :=
  if mask.getLsbD bit then value.getLsbD bit else old

/-- A flag set as it is amended: value, mask. -/
def readFlagSet : Reader (Byte × Byte) := fun body => do
  let (value, body) ← readByte body
  let (mask, body) ← readByte body
  return ((value, mask), body)

/-! ### Zones (R18 to R20) -/

/-- A structural field of a zone: level 0, in UNCONFIGURED only (R19). -/
def amendStructure (client n : Nat) (z : Zone) (r : Reader Nat) (prior : List Byte)
    (set : Nat → ZoneConfig → ZoneConfig) (body : List Byte) (s : State) : Check Served := do
  mayAmend client 0 s
  needUnconfigured s
  let (v, _) ← fields r body
  needRange n (set v z.config) s
  return (Reply.done prior, replaceZone n z (set v z.config) s)

/-- The air head list of a zone: level 0, in every device state, and never empty outside UNCONFIGURED (R19). -/
def amendAirHeads (client n : Nat) (z : Zone) (body : List Byte) (s : State) : Check Served := do
  mayAmend client 0 s
  let (l, _) ← fields (readList readHead) body
  needAirHeads l s
  require (s.device = .unconfigured || !l.isEmpty) .combination
  return (Reply.done (listBytes headBytes z.config.airHeads), replaceZone n z { z.config with airHeads := l } s)

/-- A numeric operational field of a zone: level 1, in every device state (R18). -/
def amendSetting (client n : Nat) (z : Zone) (r : Reader Nat) (enc : Nat → List Byte) (clamp : Nat → Nat) (prior : Nat)
    (set : Nat → ZoneConfig → ZoneConfig) (body : List Byte) (s : State) : Check Served := do
  mayAmend client 1 s
  amendNumber r enc clamp prior (fun v => replaceZone n z (set v z.config) s) body

/-- The flags of a zone amended by mask (R18). -/
def ZoneConfig.withFlags (value mask : Byte) (c : ZoneConfig) : ZoneConfig :=
  { c with
    longAllowed := maskedFlag value mask 0 c.longAllowed
    fireGroup := maskedFlag value mask 1 c.fireGroup
    haltRole := maskedFlag value mask 2 c.haltRole }

/-- The flag set of a zone: level 1, in every device state (R18). A change of the fire role is an input of the demand step
and of the targets (R102, R104). -/
def amendZoneFlags (client n : Nat) (z : Zone) (body : List Byte) (s : State) : Check Served := do
  mayAmend client 1 s
  let ((value, mask), _) ← fields readFlagSet body
  let c := z.config.withFlags value mask
  let s' := replaceZone n z c s
  return (Reply.done (flagSet z.config.flags), if c.haltRole = z.config.haltRole then s' else settleZone n (settleDemand [n] s'))

/-- AMEND of a zone: zone, field. -/
def amendZone (client : Nat) (body : List Byte) (s : State) : Check Served := do
  let (n, body) ← fields readU8 body
  let z ← needZone n s
  let c := z.config
  let (field, body) ← fields readU8 body
  match field with
  | 1 => amendStructure client n z readU8 (u8 c.level) (fun v c => { c with level := v }) body s
  | 2 => amendStructure client n z readU16 (u16 c.bayBase) (fun v c => { c with bayBase := v }) body s
  | 3 => amendStructure client n z readU8 (u8 c.bayCount) (fun v c => { c with bayCount := v }) body s
  | 4 => amendAirHeads client n z body s
  | 5 =>
    amendSetting client n z readU16 u16 (clampTo 30 900) c.travelTime (fun v c => { c with travelTime := v }) body s
  | 6 => amendSetting client n z readU8 u8 (clampTo 0 2) c.baseStep (fun v c => { c with baseStep := v }) body s
  | 7 => amendSetting client n z readU8 u8 (clampTo 0 2) c.quietBase (fun v c => { c with quietBase := v }) body s
  | 8 => amendSetting client n z readU8 u8 (clampTo 0 4) c.blindStep (fun v c => { c with blindStep := v }) body s
  | 9 => amendZoneFlags client n z body s
  | _ => notAmendable

/-! ### Bays (R26, R33, R46) -/

/-- The locked flag: level 0, in every device state. -/
def amendLocked (client g : Nat) (b : Bay) (body : List Byte) (s : State) : Check Served := do
  mayAmend client 0 s
  let (v, _) ← fields readFlag body
  return (Reply.done (flagByte b.locked), changeBay g (fun x => { x with locked := v }) s)

/-- The kind: level 0, in UNCONFIGURED. -/
def amendBayKind (client g : Nat) (b : Bay) (body : List Byte) (s : State) : Check Served := do
  mayAmend client 0 s
  needUnconfigured s
  let (v, _) ← fields readU8 body
  let k ← need (BayKind.ofCode v) .form
  return (Reply.done (u8 b.kind.code), changeBay g (fun x => { x with kind := k }) s)

/-- The binding: level 0, in UNCONFIGURED, as a CONFIGURE of that field. -/
def amendBinding (client g : Nat) (b : Bay) (body : List Byte) (s : State) : Check Served := do
  mayAmend client 0 s
  needUnconfigured s
  let (v, _) ← fields (readOpt readBinding) body
  require (bindingInRange v) .range
  return (Reply.done (optBytes bindingBytes b.binding), changeBay g (Bay.rebound s.partTime v) s)

/-- A host-set occupancy (R33): `present` says which. In UNCONFIGURED it is no arrival or departure. -/
def hostSet (g : Nat) (b : Bay) (present : Bool) (s : State) : State :=
  if decide (b.occupancy = .present) = present then s
  else if s.device = .unconfigured then
    changeBay g (if present then Bay.arrived s.partTime else Bay.departed s.partTime) s
  else if present then arrival g s
  else departure g s

/-- The occupancy an AMEND may carry: VACANT or PRESENT (R33). -/
def hostOccupancy : Nat → Option Bool
  | 0 => some false
  | 2 => some true
  | _ => none

/-- The occupancy of a SENSORLESS bay: level 2 (R33). -/
def amendOccupancy (client g : Nat) (b : Bay) (body : List Byte) (s : State) : Check Served := do
  mayAmend client 2 s
  let (v, _) ← fields readU8 body
  let present ← need (hostOccupancy v) .form
  require b.binding.isNone .combination
  require (b.service = .inService) .notNow
  return (Reply.done (u8 b.occupancy.code), hostSet g b present s)

/-- AMEND of a bay: zone, index, field. -/
def amendBay (client : Nat) (body : List Byte) (s : State) : Check Served := do
  let ((z, i), body) ← fields readHandle body
  let (g, b) ← needBay z i s
  let (field, body) ← fields readU8 body
  match field with
  | 1 => amendLocked client g b body s
  | 2 => amendBayKind client g b body s
  | 3 => amendBinding client g b body s
  | 4 => amendOccupancy client g b body s
  | _ => notAmendable

/-- AMEND of the bay table settings: field (R26). -/
def amendBaySettings (client : Nat) (body : List Byte) (s : State) : Check Served := do
  let (field, body) ← fields readU8 body
  match field with
  | 1 => do
    mayAmend client 1 s
    amendNumber readU8 u8 clampSettle s.settleTime s.setSettleTime body
  | _ => notAmendable

/-! ### Passages (R51, R69) -/

/-- The state with a passage's configuration replaced; its live fields are kept. -/
def setPassageConfig (n : Nat) (c : PassageConfig) (s : State) : State :=
  s.setPassages (s.passages.upd n fun p => { p with config := c })

/-- The preference list: level 1, in every device state; outside UNCONFIGURED its zones are configured (R1) and an ENTRY's is
never empty. The NO_RECORD of R1 stands after the list's RANGE and FORM, before that COMBINATION
(notes/assumptions/36.md). -/
def amendPreference (client n : Nat) (c : PassageConfig) (body : List Byte) (s : State) : Check Served := do
  mayAmend client 1 s
  let (l, _) ← fields (readList readU8) body
  require (l.all fun z => z < Config.zoneSlots) .range
  require (preferenceFits l) .form
  needZonesThere l s
  require (s.device = .unconfigured || c.kind ≠ .entry || !l.isEmpty) .combination
  return (Reply.done (listBytes u8 c.preference), setPassageConfig n { c with preference := l } s)

/-- The wake flag: level 1, in every device state. -/
def amendPassageWake (client n : Nat) (c : PassageConfig) (body : List Byte) (s : State) : Check Served := do
  mayAmend client 1 s
  let (v, _) ← fields readFlag body
  return (Reply.done (flagByte c.wakeFlag), setPassageConfig n { c with wakeFlag := v } s)

/-- A number of a passage. -/
def amendPassageNumber (client level n : Nat) (clamp : Nat → Nat) (prior : Nat) (c : Nat → PassageConfig)
    (body : List Byte) (s : State) : Check Served := do
  mayAmend client level s
  amendNumber readU16 u16 clamp prior (fun v => setPassageConfig n (c v) s) body

/-- Kind, loop head, from zone, to zone and entry sign: level 0, in UNCONFIGURED, the resulting record checked as R50
states. -/
def amendPassageStructure {α : Type} (client n : Nat) (r : Reader α) (prior : List Byte) (c : α → PassageConfig)
    (body : List Byte) (s : State) : Check Served := do
  mayAmend client 0 s
  needUnconfigured s
  let (v, _) ← fields r body
  needPassageConfig n (c v) (c v).unusedAbsent s
  return (Reply.done prior, setPassageConfig n (c v) s)

/-- A passage kind, by its code; another code is malformed. -/
def readPassageKind : Reader PassageKind := fun body => do
  let (v, body) ← readU8 body
  let k ← PassageKind.ofCode v
  return (k, body)

/-- AMEND of a passage: passage number, field. -/
def amendPassage (client : Nat) (body : List Byte) (s : State) : Check Served := do
  let (n, body) ← fields readU8 body
  let p ← needRecord Config.passageSlots s.passages n
  let c := p.config
  let (field, body) ← fields readU8 body
  match field with
  | 1 => amendPreference client n c body s
  | 2 => amendPassageWake client n c body s
  | 3 => amendPassageNumber client 1 n clampWindow c.kioskWindow (fun v => { c with kioskWindow := v }) body s
  | 4 => amendPassageNumber client 0 n clampSpacing c.spacing (fun v => { c with spacing := v }) body s
  | 5 => amendPassageNumber client 0 n clampLoop c.loopLength (fun v => { c with loopLength := v }) body s
  | 6 => amendPassageStructure client n readPassageKind (u8 c.kind.code) (fun v => { c with kind := v }) body s
  | 7 => amendPassageStructure client n readHead (headBytes c.head) (fun v => { c with head := v }) body s
  | 8 =>
    amendPassageStructure client n (readOpt readU8) (optBytes u8 c.fromZone) (fun v => { c with fromZone := v }) body s
  | 9 =>
    amendPassageStructure client n (readOpt readU8) (optBytes u8 c.toZone) (fun v => { c with toZone := v }) body s
  | 10 =>
    amendPassageStructure client n (readOpt readU8) (optBytes u8 c.entrySign) (fun v => { c with entrySign := v }) body s
  | _ => notAmendable

/-- A limit of the passage unit: level 1, in every device state, refused where the car limit would stand above the van
limit (R51). -/
def amendLimit (client : Nat) (clamp : Nat → Nat) (prior : Nat) (c : Nat → PassageSettings) (body : List Byte)
    (s : State) : Check Served := do
  mayAmend client 1 s
  let (v, _) ← fields readU16 body
  require (c (clamp v)).ordered .combination
  return (Reply.clampedIf (clamp v ≠ v) (u16 prior), s.setPassageSettings (c (clamp v)))

/-- AMEND of the passage unit settings: field. -/
def amendPassageSettings (client : Nat) (body : List Byte) (s : State) : Check Served := do
  let c := s.passageSettings
  let (field, body) ← fields readU8 body
  match field with
  | 1 => amendLimit client clampCar c.carLimit (fun v => { c with carLimit := v }) body s
  | 2 => amendLimit client clampVan c.vanLimit (fun v => { c with vanLimit := v }) body s
  | _ => notAmendable

/-! ### Signs (R70, R71) -/

/-- The state with a sign's configuration replaced; its live fields are kept (R73). -/
def setSignConfig (n : Nat) (c : SignConfig) (s : State) : State :=
  s.setSigns (s.signs.upd n fun r => { r with config := c })

/-- A field of a sign, the resulting record checked as R70 states; outside UNCONFIGURED the zones that the value names are
configured (R1). That NO_RECORD stands after the RANGE and FORM of R70 (notes/assumptions/36.md). -/
def amendSignField {α : Type} (client level n : Nat) (r : Reader α) (prior : List Byte) (c : α → SignConfig)
    (names : α → List Nat) (body : List Byte) (s : State) : Check Served := do
  mayAmend client level s
  require (level = 1 || s.device = .unconfigured) .notNow
  let (v, _) ← fields r body
  needSignConfig n (c v) s
  needZonesThere (names v) s
  return (Reply.done prior, setSignConfig n (c v) s)

/-- AMEND of a sign: sign number, field. -/
def amendSign (client : Nat) (body : List Byte) (s : State) : Check Served := do
  let (n, body) ← fields readU8 body
  let r ← needRecord Config.signSlots s.signs n
  let c := r.config
  let (field, body) ← fields readU8 body
  match field with
  | 1 =>
    amendSignField client 1 n (readList readU8) (listBytes u8 c.watched) (fun v => { c with watched := v }) (fun v => v)
      body s
  | 2 =>
    amendSignField client 1 n (readList readPair) (listBytes pairBytes c.directions)
      (fun v => { c with directions := v }) (List.map Prod.fst) body s
  | 3 => do
    mayAmend client 1 s
    amendNumber readU8 u8 clampShow c.showTime (fun v => setSignConfig n { c with showTime := v } s) body
  | 4 => amendSignField client 1 n readFlag (flagByte c.hostFlag) (fun v => { c with hostFlag := v }) (fun _ => []) body s
  | 5 => amendSignField client 0 n readHead (headBytes c.head) (fun v => { c with head := v }) (fun _ => []) body s
  | _ => notAmendable

/-- The state with a pattern entry replaced. -/
def setPattern (code : Nat) (p : Pattern) (s : State) : State := s.setPatterns (s.patterns.setIfInBounds code p)

/-- A pattern word with its show-count flag. -/
def readPattern : Reader Pattern := fun body => do
  let (word, body) ← readHalf body
  let (flag, body) ← readFlag body
  return ({ word := word, showCount := flag }, body)

/-- AMEND of a pattern entry: situation code, field; level 1, in every device state (R71). -/
def amendPattern (client : Nat) (body : List Byte) (s : State) : Check Served := do
  let (code, body) ← fields readU8 body
  require (code < 32) .range
  let (field, body) ← fields readU8 body
  match field with
  | 1 => do
    mayAmend client 1 s
    let (p, _) ← fields readPattern body
    return (Reply.done (s.pattern code).bytes, setPattern code p s)
  | _ => notAmendable

/-! ### The evaluator (R93) -/

/-- How a setting of the evaluator is carried, clamped, read and written. -/
structure AirField where
  wide : Bool
  clamp : Nat → Nat
  get : AirSettings → Nat
  set : Nat → AirSettings → AirSettings

/-- The settings of the evaluator by field code. -/
def airField : Nat → Option AirField
  | 1 => some { wide := true, clamp := clampCO, get := AirSettings.watchCO, set := fun v c => { c with watchCO := v } }
  | 2 => some { wide := true, clamp := clampCO, get := AirSettings.actCO, set := fun v c => { c with actCO := v } }
  | 3 => some { wide := true, clamp := clampCO, get := AirSettings.barCO, set := fun v c => { c with barCO := v } }
  | 4 => some { wide := true, clamp := clampNO, get := AirSettings.watchNO, set := fun v c => { c with watchNO := v } }
  | 5 => some { wide := true, clamp := clampNO, get := AirSettings.actNO, set := fun v c => { c with actNO := v } }
  | 6 => some { wide := true, clamp := clampNO, get := AirSettings.barNO, set := fun v c => { c with barNO := v } }
  | 7 => some { wide := false, clamp := clampCold, get := AirSettings.coldCredit,
                set := fun v c => { c with coldCredit := v } }
  | 8 => some { wide := false, clamp := clampPass, get := AirSettings.passCredit,
                set := fun v c => { c with passCredit := v } }
  | 9 => some { wide := true, clamp := clampStale, get := AirSettings.staleHold,
                set := fun v c => { c with staleHold := v } }
  | _ => none

/-- The reader of an evaluator setting. -/
def AirField.read (f : AirField) : Reader Nat := if f.wide then readU16 else readU8

/-- An evaluator setting as a response carries it. -/
def AirField.bytes (f : AirField) (c : AirSettings) : List Byte := if f.wide then u16 (f.get c) else u8 (f.get c)

/-- AMEND of the evaluator: field; level 1, in every device state, the order of the thresholds kept (R93). -/
def amendEvaluator (client : Nat) (body : List Byte) (s : State) : Check Served := do
  let (field, body) ← fields readU8 body
  let f ← need (airField field) .form
  mayAmend client 1 s
  let (v, _) ← fields f.read body
  let c := f.set (f.clamp v) s.airSettings
  require c.ordered .combination
  return (Reply.clampedIf (f.clamp v ≠ v) (f.bytes s.airSettings), s.setAirSettings c)

/-! ### Fans (R101, R112, R117) -/

/-- What a change serves where the same body goes with DONE and with a refusal (R117). -/
def withPrior (prior : List Byte) (s : State) (c : Check State) : Served :=
  match c with
  | .ok s' => (Reply.done prior, s')
  | .error r => ({ r with body := prior }, s)

/-- The state of a fan and its commanded step, as they stood. -/
def Fan.standing (f : Fan) : List Byte := u8 f.state.code ++ u8 f.commanded

/-- The head of a fan is LIVE or SILENT. -/
def fanHeard (s : State) (f : Fan) : Bool :=
  match s.head f.head.segment f.head.address with
  | none => false
  | some h => h.state = .live || h.state = .silent

/-- The record of a fan whose lockout is cleared (R112). -/
def Fan.unlocked (now off : Nat) (heard : Bool) (f : Fan) : Fan :=
  let f := { f with trips := [] }
  if heard then f.toRundown now off else f.toUnhealthy .unreached

/-- Field 1, lockout: level 1, in every device state but UNCONFIGURED; given as clear, on a LOCKED_OUT fan. -/
def amendLockout (client n : Nat) (f : Fan) (body : List Byte) (s : State) : Check State := do
  mayAmend client 1 s
  require (s.device ≠ .unconfigured) .notNow
  let (v, _) ← fields readFlag body
  require (!v) .form
  require (f.state = .lockedOut) .notNow
  return putFan n (f.unlocked s.partTime s.fanSettings.minOffTime (fanHeard s f)) s

/-- A fan's target computed again; it moves on a change (R104, R106). -/
def retargetFan (n : Nat) (s : State) : State :=
  s.setFans (s.fans.upd n fun f =>
    let t := fanTarget s f
    if t = f.target then f else f.retarget s.partTime s.fanSettings.minOffTime t)

/-- Field 2, assist zone: level 1, in every device state. -/
def amendAssist (client n : Nat) (f : Fan) (body : List Byte) (s : State) : Check State := do
  mayAmend client 1 s
  let (v, _) ← fields (readOpt readU8) body
  require ((optList v).all fun z => z < Config.zoneSlots) .range
  require (v ≠ some f.zone) .combination
  needZonesThere (optList v) s
  return gate (retargetFan n (s.setFans (s.fans.put n { f with assist := v })))

/-- Field 3, fan head: level 0, in UNCONFIGURED, checked as R100 states. -/
def amendFanHead (client n : Nat) (f : Fan) (body : List Byte) (s : State) : Check State := do
  mayAmend client 0 s
  needUnconfigured s
  let (v, _) ← fields readHead body
  needFanConfig n v f.zone f.assist s
  return s.setFans (s.fans.put n { f with head := v })

/-- Field 4, zone: level 0, in UNCONFIGURED, checked as R100 states. -/
def amendFanZone (client n : Nat) (f : Fan) (body : List Byte) (s : State) : Check State := do
  mayAmend client 0 s
  needUnconfigured s
  let (v, _) ← fields readU8 body
  needFanConfig n f.head v f.assist s
  return gate (retargetFan n (changeFans [f.zone, v] (fun s => s.setFans (s.fans.put n { f with zone := v })) s))

/-- The change of one field of a fan: its prior value, where the code names a field, and the change or the refusal. -/
def fanField (client n : Nat) (f : Fan) (body : List Byte) (s : State) : List Byte × Check State :=
  match readU8 body with
  | some (1, body) => (flagByte (f.state = .lockedOut), amendLockout client n f body s)
  | some (2, body) => (optBytes u8 f.assist, amendAssist client n f body s)
  | some (3, body) => (headBytes f.head, amendFanHead client n f body s)
  | some (4, body) => (u8 f.zone, amendFanZone client n f body s)
  | _ => ([], .error (Reply.refuse .form))

/-- AMEND of a fan: fan number, field. Accepted or refused after the fan checks, it returns the prior value with the fan's
state and commanded step (R117); a body that ends before the field code names no field. -/
def amendFan (client : Nat) (body : List Byte) (s : State) : Check Served := do
  let (n, body) ← fields readU8 body
  let f ← needRecord Config.fanSlots s.fans n
  let c := fanField client n f body s
  return withPrior (c.1 ++ f.standing) s c.2

/-- The start limit: refused below the number of fans now STARTING; a rise admits queued fans (R101). -/
def amendStartLimit (client : Nat) (body : List Byte) (s : State) : Check Served := do
  mayAmend client 1 s
  let c := s.fanSettings
  let (v, _) ← fields readU8 body
  require (startingCount s ≤ clampLimit v) .notNow
  return (Reply.clampedIf (clampLimit v ≠ v) (u8 c.startLimit),
    gate (s.setFanSettings { c with startLimit := clampLimit v }))

/-- AMEND of the fan drive settings: field; level 1, in every device state (R101). -/
def amendFanDrive (client : Nat) (body : List Byte) (s : State) : Check Served := do
  let c := s.fanSettings
  let (field, body) ← fields readU8 body
  match field with
  | 1 => amendStartLimit client body s
  | 2 => do
    mayAmend client 1 s
    amendNumber readU8 u8 clampStart c.startTime (fun v => s.setFanSettings { c with startTime := v }) body
  | 3 => do
    mayAmend client 1 s
    amendNumber readU8 u8 clampOff c.minOffTime (fun v => s.setFanSettings { c with minOffTime := v }) body
  | _ => notAmendable

/-! ### Lamp groups (R120, R127, R129) -/

/-- The change of one field of a lamp group: whether a clamp applied, and the state after it. -/
abbrev GroupChange := Check (Bool × State)

/-- A group's record replaced and its level settled again (R129). -/
def putGroup (n : Nat) (g : LampGroup) (s : State) : State := settleLamp n (s.setLamps (s.lamps.put n g))

/-- Guard level: level 1, in every device state; refused above the low level. -/
def amendGuard (client n : Nat) (g : LampGroup) (body : List Byte) (s : State) : GroupChange := do
  mayAmend client 1 s
  let (v, _) ← fields readU8 body
  require (clampGuard v ≤ g.lowLevel) .combination
  return (clampGuard v ≠ v, putGroup n { g with guardLevel := clampGuard v } s)

/-- Low level: level 1, in every device state. -/
def amendLow (client n : Nat) (g : LampGroup) (body : List Byte) (s : State) : GroupChange := do
  mayAmend client 1 s
  let (v, _) ← fields readU8 body
  return (clampLow g.guardLevel v ≠ v, putGroup n { g with lowLevel := clampLow g.guardLevel v } s)

/-- Hold time: level 1, in every device state; a running bright-until is kept (R122). -/
def amendHoldTime (client n : Nat) (g : LampGroup) (body : List Byte) (s : State) : GroupChange := do
  mayAmend client 1 s
  let (v, _) ← fields readU16 body
  return (clampHold v ≠ v, s.setLamps (s.lamps.put n { g with holdTime := clampHold v }))

/-- The flag set: level 1, in every device state. -/
def amendLampFlags (client n : Nat) (g : LampGroup) (body : List Byte) (s : State) : GroupChange := do
  mayAmend client 1 s
  let ((value, mask), _) ← fields readFlagSet body
  return (false, putGroup n
    { g with egress := maskedFlag value mask 0 g.egress, motionFlag := maskedFlag value mask 1 g.motionFlag } s)

/-- Lamp head: level 0, in UNCONFIGURED, checked as R119 states. -/
def amendLampHead (client n : Nat) (g : LampGroup) (body : List Byte) (s : State) : GroupChange := do
  mayAmend client 0 s
  needUnconfigured s
  let (v, _) ← fields readHead body
  needLampConfig n v g.zone s
  return (false, s.setLamps (s.lamps.put n { g with head := v }))

/-- Zone: level 0, in UNCONFIGURED, checked as R119 states; the group goes DIM. -/
def amendLampZone (client n : Nat) (g : LampGroup) (body : List Byte) (s : State) : GroupChange := do
  mayAmend client 0 s
  needUnconfigured s
  let (v, _) ← fields readU8 body
  needLampConfig n g.head v s
  return (false, putGroup n { g.dim with zone := v } s)

/-- The change of one field of a lamp group, with its prior value where the code names a field. -/
def lampField (client n : Nat) (g : LampGroup) (body : List Byte) (s : State) : List Byte × GroupChange :=
  match readU8 body with
  | some (1, body) => (u8 g.guardLevel, amendGuard client n g body s)
  | some (2, body) => (u8 g.lowLevel, amendLow client n g body s)
  | some (3, body) => (u16 g.holdTime, amendHoldTime client n g body s)
  | some (4, body) => (flagSet g.flags, amendLampFlags client n g body s)
  | some (5, body) => (headBytes g.head, amendLampHead client n g body s)
  | some (6, body) => (u8 g.zone, amendLampZone client n g body s)
  | _ => ([], .error (Reply.refuse .form))

/-- AMEND of a lamp group: group number, field. Accepted or refused after the group checks, it returns the prior value with
the group's commanded level (R129); a body that ends before the field code names no field. -/
def amendLamp (client : Nat) (body : List Byte) (s : State) : Check Served := do
  let (n, body) ← fields readU8 body
  let g ← needRecord Config.lampSlots s.lamps n
  let c := lampField client n g body s
  let prior := c.1 ++ u8 g.commanded
  match c.2 with
  | .ok (clamped, s') => return (Reply.clampedIf clamped prior, s')
  | .error r => return ({ r with body := prior }, s)

/-- AMEND of the fault threshold: level 1, in every device state; LAMP_FAULT for the groups that newly stand at it (R120,
R127). -/
def amendLampControl (client : Nat) (body : List Byte) (s : State) : Check Served := do
  let (field, body) ← fields readU8 body
  match field with
  | 1 => do
    mayAmend client 1 s
    amendNumber readU8 u8 clampFault s.faultThreshold
      (fun v => thresholdFaults s.faultThreshold v (s.setFaultThreshold v)) body
  | _ => notAmendable

/-! ### Override stacks, fire, steers: nothing is amendable (R138, R147) -/

/-- AMEND of an override stack: zone. -/
def amendStack (body : List Byte) (s : State) : Check Served := do
  let (n, _) ← fields readU8 body
  let _ ← needZone n s
  notAmendable

/-- AMEND of a steer: steer id. -/
def amendSteer (body : List Byte) (s : State) : Check Served := do
  let (id, _) ← fields readU8 body
  let _ ← needRecord Config.steerSlots s.steers id
  notAmendable

/-! ### Quiet control (R149) -/

/-- AMEND of quiet control: field; level 1, in every device state. -/
def amendQuiet (client : Nat) (body : List Byte) (s : State) : Check Served := do
  let q := s.quiet
  let (field, body) ← fields readU8 body
  match field with
  | 1 => do
    mayAmend client 1 s
    amendNumber readU16 u16 clampKeepalive q.keepalive (fun v => s.setQuiet { q with keepalive := v }) body
  | 2 => do
    mayAmend client 1 s
    amendNumber readU16 u16 clampWarm q.warmTime (fun v => s.setQuiet { q with warmTime := v }) body
  | _ => notAmendable

/-! ### Heads and the lane poller (R175, R176) -/

/-- The wake-enabled flag: level 1, in every device state; COMBINATION on AIR or LOOP. -/
def amendHeadWake (client : Nat) (id : HeadId) (h : Head) (body : List Byte) (s : State) : Check Served := do
  mayAmend client 1 s
  let (v, _) ← fields readFlag body
  require h.kind.takesWake .combination
  return (Reply.done (flagByte h.wake), s.setHeads (s.heads.put id.key { h with wake := v }))

/-- The kind: level 0, checked and applied as a set-form CONFIGURE that gives no wake-enabled flag, which clears it (R175,
R176). -/
def amendHeadKind (client : Nat) (id : HeadId) (h : Head) (body : List Byte) (s : State) : Check Served := do
  mayAmend client 0 s
  let (v, _) ← fields readU8 body
  let k ← need (HeadKind.ofCode v) .form
  needHeadConfig id.segment id.address k false s
  return (Reply.done (u8 h.kind.code), configureHead id.segment id.address k false s)

/-- AMEND of a head: segment, address, field. -/
def amendHead (client : Nat) (body : List Byte) (s : State) : Check Served := do
  let (id, body) ← fields readHead body
  let h ← needHead id.segment id.address s
  let (field, body) ← fields readU8 body
  match field with
  | 1 => amendHeadWake client id h body s
  | 2 => amendHeadKind client id h body s
  | _ => notAmendable

/-- One head goes LOST where it has waited long enough (R176). -/
def loseLate (s : State) (key : Nat) : State :=
  match s.heads.find key with
  | none => s
  | some h =>
    if h.goesLost s.partTime s.lostTime then loseHead (keySegment key) (keyAddress key) h s else s

/-- The lost time set; where it is lowered, the heads that have waited long enough go LOST in segment then address order
(R176). -/
def setLost (v : Nat) (s : State) : State :=
  let s' := s.setLostTime v
  if v < s.lostTime then s'.heads.keys.foldl loseLate s' else s'

/-- AMEND of the lane poller: field; level 1, in every device state. -/
def amendLanePoller (client : Nat) (body : List Byte) (s : State) : Check Served := do
  let (field, body) ← fields readU8 body
  match field with
  | 1 => do
    mayAmend client 1 s
    amendNumber readU8 u8 clampLost s.lostTime (fun v => setLost v s) body
  | _ => notAmendable

/-! ### The port's own records (R182, R188) -/

/-- The checks of a level change of a client slot, and the change (R182). -/
def setClientLevel (slot level : Nat) (s : State) : Check Served := do
  require (level ≤ 3) .range
  require (slot ≠ 0) .combination
  return (Reply.done (u8 (s.clientLevel slot)), s.setClients (s.clients.setIfInBounds slot level))

/-- AMEND of the client table: slot, field; sent for client 0. -/
def amendClient (client : Nat) (body : List Byte) (s : State) : Check Served := do
  require (client = 0) .authority
  let (slot, body) ← fields readU8 body
  require (slot < 8) .range
  let (field, body) ← fields readU8 body
  match field with
  | 1 => do
    let (v, _) ← fields readU8 body
    setClientLevel slot v s
  | _ => notAmendable

/-- An attention source's level and enable flag set; the response carries the prior level and flag (R188). -/
def setSource (n level : Nat) (enabled : Bool) (s : State) : Check Served := do
  require (level ≤ 3) .range
  let r := s.source n
  return (Reply.done (u8 r.level ++ flagByte r.enabled),
    s.setSources (s.sources.setIfInBounds n { r with level := level, enabled := enabled }))

/-- AMEND of the attention unit: source, field; level 0, in every device state. -/
def amendAttention (client : Nat) (body : List Byte) (s : State) : Check Served := do
  let (n, body) ← fields readU8 body
  require (n < 16) .range
  let (field, body) ← fields readU8 body
  match field with
  | 1 => do
    mayAmend client 0 s
    let (v, _) ← fields readU8 body
    setSource n v (s.source n).enabled s
  | 2 => do
    mayAmend client 0 s
    let (v, _) ← fields readFlag body
    setSource n (s.source n).level v s
  | _ => notAmendable

/-! ### The request -/

/-- AMEND by class code (10.3). -/
def amendClass (cls client : Nat) (body : List Byte) (s : State) : Check Served :=
  match cls with
  | 0x01 => amendZone client body s
  | 0x02 => amendBay client body s
  | 0x03 => amendBaySettings client body s
  | 0x04 => amendSteer body s
  | 0x05 => notAmendable
  | 0x06 => amendPassage client body s
  | 0x07 => amendPassageSettings client body s
  | 0x08 => amendSign client body s
  | 0x09 => amendPattern client body s
  | 0x0A => amendEvaluator client body s
  | 0x0B => amendFan client body s
  | 0x0C => amendFanDrive client body s
  | 0x0D => amendLamp client body s
  | 0x0E => amendLampControl client body s
  | 0x0F => amendStack body s
  | 0x10 => notAmendable
  | 0x11 => amendQuiet client body s
  | 0x12 => amendHead client body s
  | 0x13 => amendLanePoller client body s
  | 0x14 => amendClient client body s
  | 0x15 => amendAttention client body s
  | _ => notAmendable

/-- AMEND (R183). -/
def serveAmend (client : Nat) (body : List Byte) (s : State) : Served :=
  served s do
    let (cls, body) ← fields readU8 body
    amendClass cls client body s

/-- AMEND, request 03h; each field's rule checks the level. -/
def execAmend (client : Byte) (tag : Half) (body : List Byte) (s : State) : Host.Outcome State Fault Refusal :=
  .next (request none serveAmend client tag body s)

end Sys2Proof.Machine
end

