-- ==== Sys2Proof/Machine/Configure.lean ====
section
/-!
DEFINITION. CONFIGURE (R183): the set and remove forms of each class, and the request. The remove form names the record and
carries nothing more. The port has checked level 0 (R181).
-/
namespace Sys2Proof.Machine

/-- A class that no chapter configures, or a field that is not one that may be set. -/
def notConfigurable : Check Served := .error (Reply.refuse .form)

/-- A number after its clamp, with whether the clamp applied. -/
def clamped (clamp : Nat → Nat) (v : Nat) : Nat × Bool := (clamp v, clamp v ≠ v)

/-- A number that may be absent: its default, or the value after its clamp with whether the clamp applied. -/
def clampedOr (clamp : Nat → Nat) (default : Nat) (v : Option Nat) : Nat × Bool :=
  match v with
  | none => (default, false)
  | some v => clamped clamp v

/-! ### Zones (R13 to R16) -/

/-- The set form of a zone, after its number: level, base and count, then the fields that may be absent. -/
structure ZoneFields where
  level : Nat
  base : Nat
  count : Nat
  airHeads : Option (List HeadId)
  travel : Option Nat
  baseStep : Option Nat
  quietBase : Option Nat
  blindStep : Option Nat
  longAllowed : Option Bool
  fireGroup : Option Bool
  haltRole : Option Bool

/-- The set form of a zone. -/
def readZone : Reader ZoneFields := fun body => do
  let (level, body) ← readU8 body
  let (base, body) ← readU16 body
  let (count, body) ← readU8 body
  let (airHeads, body) ← readOpt (readList readHead) body
  let (travel, body) ← readOpt readU16 body
  let (baseStep, body) ← readOpt readU8 body
  let (quietBase, body) ← readOpt readU8 body
  let (blindStep, body) ← readOpt readU8 body
  let (longAllowed, body) ← readOpt readFlag body
  let (fireGroup, body) ← readOpt readFlag body
  let (haltRole, body) ← readOpt readFlag body
  return ({ level, base, count, airHeads, travel, baseStep, quietBase, blindStep, longAllowed, fireGroup, haltRole }, body)

/-- The configuration of a set form, with whether a setting was clamped (R14, chapter 1.2). -/
def ZoneFields.config (f : ZoneFields) : ZoneConfig × Bool :=
  let travel := clampedOr (clampTo 30 900) 180 f.travel
  let base := clampedOr (clampTo 0 2) 1 f.baseStep
  let quiet := clampedOr (clampTo 0 2) 0 f.quietBase
  let blind := clampedOr (clampTo 0 4) 2 f.blindStep
  ({ level := f.level
     bayBase := f.base
     bayCount := f.count
     airHeads := f.airHeads.getD []
     travelTime := travel.1
     baseStep := base.1
     quietBase := quiet.1
     blindStep := blind.1
     longAllowed := f.longAllowed.getD false
     fireGroup := f.fireGroup.getD true
     haltRole := f.haltRole.getD false },
   travel.2 || base.2 || quiet.2 || blind.2)

/-- CONFIGURE of a zone: zone, then the set form or nothing. -/
def configureZone (body : List Byte) (s : State) : Check Served := do
  let (n, body) ← fields readU8 body
  needUnconfigured s
  require (n < Config.zoneSlots) .range
  if body.isEmpty then
    let z ← need (s.zone n) .noRecord
    return (Reply.done [], removeZone n z s)
  else
    let (f, _) ← fields readZone body
    let (c, wasClamped) := f.config
    needRange n c s
    needAirHeads c.airHeads s
    return (Reply.clampedIf wasClamped (zoneConfigBytes n c), setZoneConfig n c s)

/-! ### Bays (R25, R26) -/

/-- The set form of a bay, after its handle: four fields that may be absent. -/
structure BayFields where
  kind : Option Nat
  binding : Option Binding
  service : Option Nat
  locked : Option Bool

/-- The set form of a bay. An absent binding is SENSORLESS, which is also its default. -/
def readBay : Reader BayFields := fun body => do
  let (kind, body) ← readOpt readU8 body
  let (binding, body) ← readOpt readBinding body
  let (service, body) ← readOpt readU8 body
  let (locked, body) ← readOpt readFlag body
  return ({ kind, binding, service, locked }, body)

/-- A field that may be absent and is carried as a code: its default, or the value of the code if it has one. -/
def codeOr {α : Type} (ofCode : Nat → Option α) (default : α) : Option Nat → Option α
  | none => some default
  | some v => ofCode v

/-- The record of a bay that takes its configuration (R25). -/
def Bay.configured (now : Nat) (k : BayKind) (x : Option Binding) (sv : Service) (locked : Bool) (b : Bay) : Bay :=
  { b.rebound now x with kind := k, service := sv, locked := locked }

/-- The bay record of a handle as LOOK gives it. -/
def bayResponse (z i g : Nat) (s : State) : List Byte :=
  match s.bays.find g with
  | none => []
  | some b => bayRecord z i g b

/-- CONFIGURE of a bay: zone, index, then the set form (R25). The spec does not order FORM for a body too short for the
handle against NOT_NOW, nor FORM for an unknown service code against the numbered checks. The model's choice is that the
handle is read before the device state is checked, so that such a body is FORM in every device state, and that FORM for the
service code comes after FORM for the kind and before the RANGE of the binding (notes/assumptions/37.md). -/
def configureBay (body : List Byte) (s : State) : Check Served := do
  let ((z, i), body) ← fields readHandle body
  needUnconfigured s
  let (g, _) ← needBay z i s
  let (f, _) ← fields readBay body
  let k ← need (codeOr BayKind.ofCode .standard f.kind) .form
  let sv ← need (codeOr Service.ofCode .inService f.service) .form
  require (bindingInRange f.binding) .range
  let s' := changeBay g (Bay.configured s.partTime k f.binding sv (f.locked.getD false)) s
  return (Reply.done (bayResponse z i g s'), s')

/-- CONFIGURE of the bay table settings: settle time. -/
def configureBaySettings (body : List Byte) (s : State) : Check Served := do
  needUnconfigured s
  let (v, _) ← fields (readOpt readU8) body
  let settle := clampedOr clampSettle s.settleTime v
  return (Reply.clampedIf settle.2 [], s.setSettleTime settle.1)

/-! ### Passages (R50, R51) -/

/-- The set form of a passage, after its number. -/
structure PassageFields where
  kind : Nat
  head : HeadId
  fromZone : Option Nat
  toZone : Option Nat
  preference : Option (List Nat)
  entrySign : Option Nat
  spacing : Option Nat
  loopLength : Option Nat
  wakeFlag : Option Bool
  kioskWindow : Option Nat

/-- The set form of a passage, in the order of chapter 3.1. -/
def readPassage : Reader PassageFields := fun body => do
  let (kind, body) ← readU8 body
  let (head, body) ← readHead body
  let (fromZone, body) ← readOpt readU8 body
  let (toZone, body) ← readOpt readU8 body
  let (preference, body) ← readOpt (readList readU8) body
  let (entrySign, body) ← readOpt readU8 body
  let (spacing, body) ← readOpt readU16 body
  let (loopLength, body) ← readOpt readU16 body
  let (wakeFlag, body) ← readOpt readFlag body
  let (kioskWindow, body) ← readOpt readU16 body
  return ({ kind, head, fromZone, toZone, preference, entrySign, spacing, loopLength, wakeFlag, kioskWindow }, body)

/-- The fields that a kind does not use are absent from a set form (R50). -/
def PassageFields.unusedAbsent (f : PassageFields) : PassageKind → Bool
  | .entry => f.fromZone.isNone
  | .exit => f.toZone.isNone && f.preference.isNone && f.entrySign.isNone && f.kioskWindow.isNone
  | .ramp => f.preference.isNone && f.entrySign.isNone && f.kioskWindow.isNone

/-- The configuration of a set form, with whether a setting was clamped. -/
def PassageFields.config (k : PassageKind) (f : PassageFields) : PassageConfig × Bool :=
  let spacing := clampedOr clampSpacing 300 f.spacing
  let loop := clampedOr clampLoop 200 f.loopLength
  let window := clampedOr clampWindow 60 f.kioskWindow
  ({ kind := k
     head := f.head
     fromZone := f.fromZone
     toZone := f.toZone
     preference := f.preference.getD []
     entrySign := f.entrySign
     spacing := spacing.1
     loopLength := loop.1
     wakeFlag := f.wakeFlag.getD false
     kioskWindow := window.1 },
   spacing.2 || loop.2 || window.2)

/-- CONFIGURE of a passage: passage number, then the set form or nothing. -/
def configurePassage (body : List Byte) (s : State) : Check Served := do
  let (n, body) ← fields readU8 body
  needUnconfigured s
  require (n < Config.passageSlots) .range
  if body.isEmpty then
    let _ ← need (s.passages.find n) .noRecord
    return (Reply.done [], s.setPassages (s.passages.del n))
  else
    let (f, _) ← fields readPassage body
    let k ← need (PassageKind.ofCode f.kind) .form
    let (c, wasClamped) := f.config k
    needPassageConfig n c (f.unusedAbsent k) s
    return (Reply.clampedIf wasClamped [], s.setPassages (s.passages.put n (Passage.fresh c)))

/-- CONFIGURE of the passage unit settings: car limit, van limit. -/
def configurePassageSettings (body : List Byte) (s : State) : Check Served := do
  needUnconfigured s
  let (car, body) ← fields (readOpt readU16) body
  let (van, _) ← fields (readOpt readU16) body
  let car := clampedOr clampCar s.passageSettings.carLimit car
  let van := clampedOr clampVan s.passageSettings.vanLimit van
  let c : PassageSettings := { carLimit := car.1, vanLimit := van.1 }
  require c.ordered .combination
  return (Reply.clampedIf (car.2 || van.2) [], s.setPassageSettings c)

/-! ### Signs (R70, R71) -/

/-- The set form of a sign, after its number. -/
structure SignFields where
  head : HeadId
  watched : Option (List Nat)
  directions : Option (List (Nat × Nat))
  showTime : Option Nat
  hostFlag : Option Bool

/-- The set form of a sign, in the order of chapter 3.9. -/
def readSign : Reader SignFields := fun body => do
  let (head, body) ← readHead body
  let (watched, body) ← readOpt (readList readU8) body
  let (directions, body) ← readOpt (readList readPair) body
  let (showTime, body) ← readOpt readU8 body
  let (hostFlag, body) ← readOpt readFlag body
  return ({ head, watched, directions, showTime, hostFlag }, body)

/-- The configuration of a set form, with whether the show time was clamped. -/
def SignFields.config (f : SignFields) : SignConfig × Bool :=
  let time := clampedOr clampShow 8 f.showTime
  ({ head := f.head
     watched := f.watched.getD []
     directions := f.directions.getD []
     showTime := time.1
     hostFlag := f.hostFlag.getD false },
   time.2)

/-- CONFIGURE of a sign: sign number, then the set form or nothing. -/
def configureSign (body : List Byte) (s : State) : Check Served := do
  let (n, body) ← fields readU8 body
  needUnconfigured s
  require (n < Config.signSlots) .range
  if body.isEmpty then
    let _ ← need (s.signs.find n) .noRecord
    return (Reply.done [], s.setSigns (s.signs.del n))
  else
    let (f, _) ← fields readSign body
    let (c, wasClamped) := f.config
    needSignConfig n c s
    return (Reply.clampedIf wasClamped [], s.setSigns (s.signs.put n (Sign.fresh c)))

/-- CONFIGURE of the pattern table: one or more entries, each code, word, flag (R71). The entries are taken in the order
given: where a code comes twice the later entry stands, which is the model's choice (notes/assumptions/38.md). -/
def configurePatterns (body : List Byte) (s : State) : Check Served := do
  needUnconfigured s
  let (entries, _) ← fields (readList readPatternEntry) body
  require (!entries.isEmpty) .form
  require (entries.all fun e => e.1 < 32) .range
  return (Reply.done [], entries.foldl (fun s e => setPattern e.1 e.2 s) s)

/-! ### The evaluator (R93) -/

/-- Settings of the evaluator, each of which may be absent, taken in field order: the settings they give, whether any was
clamped. -/
def readAirSettings : List Nat → List Byte → AirSettings × Bool → Option (AirSettings × Bool)
  | [], _, p => some p
  | code :: codes, body, p => do
    let f ← airField code
    let (v, body) ← readOpt f.read body
    match v with
    | none => readAirSettings codes body p
    | some v => readAirSettings codes body (f.set (f.clamp v) p.1, p.2 || f.clamp v ≠ v)

/-- CONFIGURE of the evaluator: the nine settings, each of which may be absent. -/
def configureEvaluator (body : List Byte) (s : State) : Check Served := do
  needUnconfigured s
  let (c, wasClamped) ← need (readAirSettings [1, 2, 3, 4, 5, 6, 7, 8, 9] body (s.airSettings, false)) .form
  require c.ordered .combination
  return (Reply.clampedIf wasClamped [], s.setAirSettings c)

/-! ### Fans (R100, R101) -/

/-- The set form of a fan, after its number: fan head, zone, assist zone. -/
def readFan : Reader (HeadId × Nat × Option Nat) := fun body => do
  let (head, body) ← readHead body
  let (zone, body) ← readU8 body
  let (assist, body) ← readOpt readU8 body
  return ((head, zone, assist), body)

/-- The zone of a configured fan, as a list of at most one. -/
def fanZone (n : Nat) (s : State) : List Nat := optList ((s.fans.find n).map Fan.zone)

/-- CONFIGURE of a fan: fan number, then the set form or nothing. A fan comes into being with target 0 (R100); where its
zone is in fire state ACTIVE it takes the fire up as it is configured (R139, notes/assumptions/20.md). -/
def configureFan (body : List Byte) (s : State) : Check Served := do
  let (n, body) ← fields readU8 body
  needUnconfigured s
  require (n < Config.fanSlots) .range
  if body.isEmpty then
    let f ← need (s.fans.find n) .noRecord
    return (Reply.done [], changeFans [f.zone] (fun s => s.setFans (s.fans.del n)) s)
  else
    let ((head, zone, assist), _) ← fields readFan body
    needFanConfig n head zone assist s
    return (Reply.done [],
      changeFans (zone :: fanZone n s) 
        (fun s => takeUpFire (s.setFans (s.fans.put n (Fan.fresh head zone assist .unreached)))) s)

/-- CONFIGURE of the fan drive settings: start limit, start time, minimum off time. -/
def configureFanDrive (body : List Byte) (s : State) : Check Served := do
  needUnconfigured s
  let (limit, body) ← fields (readOpt readU8) body
  let (time, body) ← fields (readOpt readU8) body
  let (off, _) ← fields (readOpt readU8) body
  let limit := clampedOr clampLimit s.fanSettings.startLimit limit
  let time := clampedOr clampStart s.fanSettings.startTime time
  let off := clampedOr clampOff s.fanSettings.minOffTime off
  return (Reply.clampedIf (limit.2 || time.2 || off.2) [],
    s.setFanSettings { startLimit := limit.1, startTime := time.1, minOffTime := off.1 })

/-! ### Lamp groups (R119, R120) -/

/-- The set form of a lamp group, after its number. -/
structure LampFields where
  head : HeadId
  zone : Nat
  guardLevel : Option Nat
  lowLevel : Option Nat
  holdTime : Option Nat
  egress : Option Bool
  motion : Option Bool

/-- The set form of a lamp group, in the order of chapter 6.1. -/
def readLamp : Reader LampFields := fun body => do
  let (head, body) ← readHead body
  let (zone, body) ← readU8 body
  let (guardLevel, body) ← readOpt readU8 body
  let (lowLevel, body) ← readOpt readU8 body
  let (holdTime, body) ← readOpt readU16 body
  let (egress, body) ← readOpt readFlag body
  let (motion, body) ← readOpt readFlag body
  return ({ head, zone, guardLevel, lowLevel, holdTime, egress, motion }, body)

/-- The record of a lamp group as it is configured, before its level is settled, with whether a setting was clamped: the
guard level first, then the low level from the guard level as stored (R119). -/
def LampFields.group (f : LampFields) : LampGroup × Bool :=
  let guard := clampedOr clampGuard 10 f.guardLevel
  let low := clamped (clampLow guard.1) (f.lowLevel.getD 30)
  let hold := clampedOr clampHold 180 f.holdTime
  ({ head := f.head
     zone := f.zone
     guardLevel := guard.1
     lowLevel := low.1
     holdTime := hold.1
     egress := f.egress.getD false
     motionFlag := f.motion.getD false
     bright := false
     brightUntil := none
     effective := 100
     reason := .starting
     commanded := 100
     observed := 0
     failed := 0
     motionSeen := false
     reportTime := none },
   guard.2 || low.2 || hold.2)

/-- CONFIGURE of a lamp group: group number, then the set form or nothing. -/
def configureLamp (body : List Byte) (s : State) : Check Served := do
  let (n, body) ← fields readU8 body
  needUnconfigured s
  require (n < Config.lampSlots) .range
  if body.isEmpty then
    let _ ← need (s.lamps.find n) .noRecord
    return (Reply.done [], s.setLamps (s.lamps.del n))
  else
    let (f, _) ← fields readLamp body
    needLampConfig n f.head f.zone s
    return (Reply.clampedIf f.group.2 [], putGroup n f.group.1 s)

/-- CONFIGURE of the lamp control settings: fault threshold. -/
def configureLampControl (body : List Byte) (s : State) : Check Served := do
  needUnconfigured s
  let (v, _) ← fields (readOpt readU8) body
  let threshold := clampedOr clampFault s.faultThreshold v
  return (Reply.clampedIf threshold.2 [], s.setFaultThreshold threshold.1)

/-! ### Quiet control, heads, the lane poller (R149, R175, R176) -/

/-- CONFIGURE of the quiet settings: keepalive interval, warm time. -/
def configureQuiet (body : List Byte) (s : State) : Check Served := do
  needUnconfigured s
  let (keepalive, body) ← fields (readOpt readU16) body
  let (warm, _) ← fields (readOpt readU16) body
  let keepalive := clampedOr clampKeepalive s.quiet.keepalive keepalive
  let warm := clampedOr clampWarm s.quiet.warmTime warm
  return (Reply.clampedIf (keepalive.2 || warm.2) [],
    s.setQuiet { s.quiet with keepalive := keepalive.1, warmTime := warm.1 })

/-- The set form of a head, after its address: kind, wake-enabled flag. -/
def readHeadFields : Reader (Nat × Option Bool) := fun body => do
  let (kind, body) ← readU8 body
  let (wake, body) ← readOpt readFlag body
  return ((kind, wake), body)

/-- CONFIGURE of a head: segment, address, then the set form or nothing; taken in every device state (R175). -/
def configureHeadRecord (body : List Byte) (s : State) : Check Served := do
  let (id, body) ← fields readHead body
  require (laneInRange id.segment id.address) .range
  if body.isEmpty then
    let _ ← need (s.head id.segment id.address) .noRecord
    require (!inAirList id.segment id.address s) .combination
    require (s.device = .unconfigured || !isBound id.segment id.address s) .combination
    return (Reply.done [], removeHead id.segment id.address s)
  else
    let ((kind, wake), _) ← fields readHeadFields body
    let k ← need (HeadKind.ofCode kind) .form
    needHeadConfig id.segment id.address k (wake.getD false) s
    return (Reply.done [], configureHead id.segment id.address k (wake.getD false) s)

/-- CONFIGURE of the lane poller: lost time. -/
def configureLanePoller (body : List Byte) (s : State) : Check Served := do
  needUnconfigured s
  let (v, _) ← fields (readOpt readU8) body
  let lost := clampedOr clampLost s.lostTime v
  return (Reply.clampedIf lost.2 [], s.setLostTime lost.1)

/-! ### The port's own records (R182, R188) -/

/-- CONFIGURE of the client table: slot, level; sent for client 0, in every device state. -/
def configureClient (client : Nat) (body : List Byte) (s : State) : Check Served := do
  require (client = 0) .authority
  let (slot, body) ← fields readU8 body
  require (slot < 8) .range
  let (v, _) ← fields readU8 body
  setClientLevel slot v s

/-- CONFIGURE of the attention unit: source, level and enable flag, each of which may be absent; in every device state. -/
def configureAttention (body : List Byte) (s : State) : Check Served := do
  let (n, body) ← fields readU8 body
  require (n < 16) .range
  let (level, body) ← fields (readOpt readU8) body
  let (enabled, _) ← fields (readOpt readFlag) body
  setSource n (level.getD (s.source n).level) (enabled.getD (s.source n).enabled) s

/-! ### The request -/

/-- CONFIGURE by class code (10.3). Steers, the steer table, override stacks and fire have no CONFIGURE. -/
def configureClass (cls client : Nat) (body : List Byte) (s : State) : Check Served :=
  match cls with
  | 0x01 => configureZone body s
  | 0x02 => configureBay body s
  | 0x03 => configureBaySettings body s
  | 0x06 => configurePassage body s
  | 0x07 => configurePassageSettings body s
  | 0x08 => configureSign body s
  | 0x09 => configurePatterns body s
  | 0x0A => configureEvaluator body s
  | 0x0B => configureFan body s
  | 0x0C => configureFanDrive body s
  | 0x0D => configureLamp body s
  | 0x0E => configureLampControl body s
  | 0x11 => configureQuiet body s
  | 0x12 => configureHeadRecord body s
  | 0x13 => configureLanePoller body s
  | 0x14 => configureClient client body s
  | 0x15 => configureAttention body s
  | _ => notConfigurable

/-- CONFIGURE (R183). The model's choice for a short body: the number or handle of a record is read, with FORM where the body
ends before it, before the chapter's device state and record checks (in the client table after AUTHORITY), and the fields of
a set form after them; the settings records and the pattern table, which are named by nothing, are read after the device
state check (notes/assumptions/37.md). -/
def serveConfigure (client : Nat) (body : List Byte) (s : State) : Served :=
  served s do
    let (cls, body) ← fields readU8 body
    configureClass cls client body s

/-- CONFIGURE, request 12h, minimum level 0. -/
def execConfigure (client : Byte) (tag : Half) (body : List Byte) (s : State) : Host.Outcome State Fault Refusal :=
  .next (request (some 0) serveConfigure client tag body s)

end Sys2Proof.Machine
end

