-- ==== Sys2Proof/Machine/Dispatch.lean ====
section
/-!
DEFINITION. Which meaning each command has: one arm for each constructor of Instr.
-/
namespace Sys2Proof.Machine

/-- The effect of a command on everything but the queue. -/
def exec (i : Instr) (s : State) : Host.Outcome State Fault Refusal :=
  match i with
  | .identify client tag body => Sys2Proof.Machine.execIdentify client tag body s
  | .look client tag body => Sys2Proof.Machine.execLook client tag body s
  | .amend client tag body => Sys2Proof.Machine.execAmend client tag body s
  | .claim client tag body => Sys2Proof.Machine.execClaim client tag body s
  | .release client tag body => Sys2Proof.Machine.execRelease client tag body s
  | .retire client tag body => Sys2Proof.Machine.execRetire client tag body s
  | .commission client tag body => Sys2Proof.Machine.execCommission client tag body s
  | .steer client tag body => Sys2Proof.Machine.execSteer client tag body s
  | .cancelSteer client tag body => Sys2Proof.Machine.execCancelSteer client tag body s
  | .push client tag body => Sys2Proof.Machine.execPush client tag body s
  | .pop client tag body => Sys2Proof.Machine.execPop client tag body s
  | .declareFire client tag body => Sys2Proof.Machine.execDeclareFire client tag body s
  | .clearFire client tag body => Sys2Proof.Machine.execClearFire client tag body s
  | .quiet client tag body => Sys2Proof.Machine.execQuiet client tag body s
  | .wake client tag body => Sys2Proof.Machine.execWake client tag body s
  | .fetch client tag body => Sys2Proof.Machine.execFetch client tag body s
  | .fetchDone client tag body => Sys2Proof.Machine.execFetchDone client tag body s
  | .configure client tag body => Sys2Proof.Machine.execConfigure client tag body s
  | .go client tag body => Sys2Proof.Machine.execGo client tag body s
  | .restart client tag body => Sys2Proof.Machine.execRestart client tag body s
  | .discardedFrame mosi => Sys2Proof.Machine.execDiscardedFrame mosi s
  | .readTransfer clocks => Sys2Proof.Machine.execReadTransfer clocks s
  | .coldReset cause => Sys2Proof.Machine.execColdReset cause s
  | .partTimeTick => Sys2Proof.Machine.execPartTimeTick s
  | .fireLineChange asserted => Sys2Proof.Machine.execFireLineChange asserted s
  | .fireLineActivation => Sys2Proof.Machine.execFireLineActivation s
  | .fireLineRelease => Sys2Proof.Machine.execFireLineRelease s
  | .quietInChange asserted => Sys2Proof.Machine.execQuietInChange asserted s
  | .airEvaluation => Sys2Proof.Machine.execAirEvaluation s
  | .holdExpiry bay => Sys2Proof.Machine.execHoldExpiry bay s
  | .steerExpiry steer => Sys2Proof.Machine.execSteerExpiry steer s
  | .kioskWaitExpiry passage => Sys2Proof.Machine.execKioskWaitExpiry passage s
  | .showUntil sign => Sys2Proof.Machine.execShowUntil sign s
  | .startEnds fan => Sys2Proof.Machine.execStartEnds fan s
  | .rundownEnds fan => Sys2Proof.Machine.execRundownEnds fan s
  | .brightUntil group => Sys2Proof.Machine.execBrightUntil group s
  | .stackEntryExpiry zone position => Sys2Proof.Machine.execStackEntryExpiry zone position s
  | .warmUntil => Sys2Proof.Machine.execWarmUntil s
  | .lostTimeReached segment address => Sys2Proof.Machine.execLostTimeReached segment address s
  | .pollBuild segment => Sys2Proof.Machine.execPollBuild segment s
  | .responseAccepted segment bytes => Sys2Proof.Machine.execResponseAccepted segment bytes s
  | .miss segment => Sys2Proof.Machine.execMiss segment s
  | .sweepResume segment => Sys2Proof.Machine.execSweepResume segment s
  | .startupSweepBegin segment => Sys2Proof.Machine.execStartupSweepBegin segment s
  | .requestKindUnknown client kind tag body => Sys2Proof.Machine.execRequestKindUnknown client kind tag body s

end Sys2Proof.Machine
end

