-- ==== Sys2Proof/Safety.lean ====
section
/-!
DEFINITION. The terms that claims use: which fields of the state a command may write, when a request is taken by its
serving rule, and the invariants of the part.
-/
namespace Sys2Proof.Machine

/-! ### Frames -/

/-- The fields of State, by name. -/
inductive Field
  | pending
  | partTime
  | resetCause
  | device
  | zones
  | bays
  | settleTime
  | holdCount
  | steers
  | passages
  | passageSettings
  | signs
  | patterns
  | airSettings
  | startTime
  | nextEvaluation
  | fans
  | fanSettings
  | lamps
  | faultThreshold
  | fireLine
  | quiet
  | heads
  | segments
  | lostTime
  | clients
  | sources
  | fetchMask
  | response
  | miso
  deriving DecidableEq, Repr

/-- A field has the same value in two states. -/
def sameField (f : Field) (s t : State) : Prop :=
  match f with
  | .pending => t.pending = s.pending
  | .partTime => t.partTime = s.partTime
  | .resetCause => t.resetCause = s.resetCause
  | .device => t.device = s.device
  | .zones => t.zones = s.zones
  | .bays => t.bays = s.bays
  | .settleTime => t.settleTime = s.settleTime
  | .holdCount => t.holdCount = s.holdCount
  | .steers => t.steers = s.steers
  | .passages => t.passages = s.passages
  | .passageSettings => t.passageSettings = s.passageSettings
  | .signs => t.signs = s.signs
  | .patterns => t.patterns = s.patterns
  | .airSettings => t.airSettings = s.airSettings
  | .startTime => t.startTime = s.startTime
  | .nextEvaluation => t.nextEvaluation = s.nextEvaluation
  | .fans => t.fans = s.fans
  | .fanSettings => t.fanSettings = s.fanSettings
  | .lamps => t.lamps = s.lamps
  | .faultThreshold => t.faultThreshold = s.faultThreshold
  | .fireLine => t.fireLine = s.fireLine
  | .quiet => t.quiet = s.quiet
  | .heads => t.heads = s.heads
  | .segments => t.segments = s.segments
  | .lostTime => t.lostTime = s.lostTime
  | .clients => t.clients = s.clients
  | .sources => t.sources = s.sources
  | .fetchMask => t.fetchMask = s.fetchMask
  | .response => t.response = s.response
  | .miso => t.miso = s.miso

/-- Two states agree in every field outside a list. -/
def SameExcept (fs : List Field) (s t : State) : Prop := ∀ f, f ∉ fs → sameField f s t

/-- What every transfer on the supervisor port may write. -/
def portFields : List Field := [.response, .miso]

/-- What the end of a hold, a retired steer and a redirect pass may write. -/
def steerFields : List Field := [.bays, .zones, .holdCount, .steers, .passages, .sources]

/-- What a redirect pass, with the presence it gives, may write. -/
def redirectFields : List Field := .lamps :: steerFields

/-- What a change of fire, air or a stack may write. -/
def zoneFields : List Field := .fans :: redirectFields

/-- What a wake or the end of WARMING may write. -/
def quietFields : List Field := [.quiet, .device, .segments, .lamps, .sources]

/-- What an exchange with a head may write. -/
def laneFields : List Field := [.heads, .segments, .quiet, .device, .signs] ++ zoneFields

/-- The fields that a command may write, whatever its operands and the state it meets. -/
def writes : Instr → List Field
  | .identify _ _ _ => portFields
  | .look _ _ _ => portFields
  | .amend _ _ _ =>
    portFields ++ zoneFields ++
      [.settleTime, .passageSettings, .signs, .patterns, .airSettings, .fanSettings, .faultThreshold, .quiet, .heads,
        .segments, .lostTime, .clients, .device]
  | .claim _ _ _ => portFields ++ [.bays, .zones, .holdCount, .steers]
  | .release _ _ _ => portFields ++ steerFields
  | .retire _ _ _ => portFields ++ steerFields
  | .commission _ _ _ => portFields ++ [.bays, .zones]
  | .steer _ _ _ => portFields ++ redirectFields
  | .cancelSteer _ _ _ => portFields ++ steerFields
  | .push _ _ _ => portFields ++ zoneFields
  | .pop _ _ _ => portFields ++ zoneFields
  | .declareFire _ _ _ => portFields ++ zoneFields ++ quietFields
  | .clearFire _ _ _ => portFields ++ zoneFields
  | .quiet _ _ _ => portFields ++ quietFields
  | .wake _ _ _ => portFields ++ quietFields
  | .fetch _ _ _ => portFields ++ [.sources, .fetchMask]
  | .fetchDone _ _ _ => portFields ++ [.fetchMask]
  | .configure _ _ _ =>
    portFields ++ zoneFields ++
      [.settleTime, .passageSettings, .signs, .patterns, .airSettings, .fanSettings, .faultThreshold, .quiet, .heads,
        .segments, .lostTime, .clients, .device]
  | .go _ _ _ => portFields ++ zoneFields ++ [.startTime, .nextEvaluation, .segments, .device]
  | .restart _ _ _ =>
    portFields ++ zoneFields ++
      [.partTime, .resetCause, .device, .signs, .startTime, .nextEvaluation, .fireLine, .quiet, .heads, .segments,
        .fetchMask]
  | .discardedFrame _ => portFields
  | .readTransfer _ => portFields
  | .coldReset _ =>
    [.partTime, .resetCause, .device, .zones, .bays, .settleTime, .holdCount, .steers, .passages, .passageSettings, .signs,
      .patterns, .airSettings, .startTime, .nextEvaluation, .fans, .fanSettings, .lamps, .faultThreshold, .fireLine,
      .quiet, .heads, .segments, .lostTime, .clients, .sources, .fetchMask, .response, .miso]
  | .partTimeTick => [.partTime]
  | .fireLineChange _ => [.fireLine]
  | .fireLineActivation => .fireLine :: zoneFields ++ quietFields
  | .fireLineRelease => .fireLine :: zoneFields
  | .quietInChange _ => quietFields
  | .airEvaluation => .nextEvaluation :: zoneFields ++ quietFields
  | .holdExpiry _ => steerFields
  | .steerExpiry _ => [.zones, .steers, .passages, .sources]
  | .kioskWaitExpiry _ => [.passages]
  | .showUntil _ => [.signs]
  | .startEnds _ => [.fans]
  | .rundownEnds _ => [.fans]
  | .brightUntil _ => [.lamps]
  | .stackEntryExpiry _ _ => zoneFields
  | .warmUntil => quietFields
  | .lostTimeReached _ _ => .heads :: .fans :: steerFields
  | .pollBuild _ => [.heads, .segments, .signs]
  | .responseAccepted _ _ => laneFields
  | .miss _ => laneFields
  | .sweepResume _ => [.segments]
  | .startupSweepBegin _ => [.segments]
  | .requestKindUnknown _ _ _ _ => portFields

/-! ### Requests -/

/-- The minimum level of a request kind in the table of 10.2; absent where the serving rule checks the level, and for a
command that is no request. -/
def minLevel : Instr → Option Nat
  | .identify _ _ _ => some 3
  | .look _ _ _ => some 3
  | .claim _ _ _ => some 2
  | .release _ _ _ => some 2
  | .retire _ _ _ => some 1
  | .commission _ _ _ => some 1
  | .steer _ _ _ => some 2
  | .cancelSteer _ _ _ => some 1
  | .declareFire _ _ _ => some 0
  | .clearFire _ _ _ => some 0
  | .quiet _ _ _ => some 1
  | .wake _ _ _ => some 1
  | .fetch _ _ _ => some 1
  | .fetchDone _ _ _ => some 1
  | .configure _ _ _ => some 0
  | .go _ _ _ => some 0
  | .restart _ _ _ => some 0
  | _ => none

/-- Client byte, tag and body of a request command. -/
def requestParts : Instr → Option (Byte × Half × List Byte)
  | .identify c t b => some (c, t, b)
  | .look c t b => some (c, t, b)
  | .amend c t b => some (c, t, b)
  | .claim c t b => some (c, t, b)
  | .release c t b => some (c, t, b)
  | .retire c t b => some (c, t, b)
  | .commission c t b => some (c, t, b)
  | .steer c t b => some (c, t, b)
  | .cancelSteer c t b => some (c, t, b)
  | .push c t b => some (c, t, b)
  | .pop c t b => some (c, t, b)
  | .declareFire c t b => some (c, t, b)
  | .clearFire c t b => some (c, t, b)
  | .quiet c t b => some (c, t, b)
  | .wake c t b => some (c, t, b)
  | .fetch c t b => some (c, t, b)
  | .fetchDone c t b => some (c, t, b)
  | .configure c t b => some (c, t, b)
  | .go c t b => some (c, t, b)
  | .restart c t b => some (c, t, b)
  | .requestKindUnknown c _ t b => some (c, t, b)
  | _ => none

/-- The kind code of a request (the table of 10.2; R178). -/
def kindCode : Instr → Byte
  | .identify _ _ _ => 0x01
  | .look _ _ _ => 0x02
  | .amend _ _ _ => 0x03
  | .claim _ _ _ => 0x04
  | .release _ _ _ => 0x05
  | .retire _ _ _ => 0x06
  | .commission _ _ _ => 0x07
  | .steer _ _ _ => 0x08
  | .cancelSteer _ _ _ => 0x09
  | .push _ _ _ => 0x0A
  | .pop _ _ _ => 0x0B
  | .declareFire _ _ _ => 0x0C
  | .clearFire _ _ _ => 0x0D
  | .quiet _ _ _ => 0x0E
  | .wake _ _ _ => 0x0F
  | .fetch _ _ _ => 0x10
  | .fetchDone _ _ _ => 0x11
  | .configure _ _ _ => 0x12
  | .go _ _ _ => 0x13
  | .restart _ _ _ => 0x14
  | .requestKindUnknown _ kind _ _ => kind
  | _ => 0x00

/-- A request frame meets no bar before its serving rule: READY is deasserted, the body fits a frame, the client is one of
the eight, and its level is no higher than the kind's minimum (R178 to R181). -/
def Reaches (level : Nat) (client : Byte) (body : List Byte) (s : State) : Prop :=
  s.response = none ∧ bodyFits body = true ∧ client.toNat < 8 ∧ s.clientLevel client.toNat ≤ level

/-- The state that a serving rule sees: MISO has carried 00h while the frame was read (R179). -/
def received (body : List Byte) (s : State) : State := s.setMiso (zeros (5 + body.length))

/-- A response frame of a tag, a result code, a result detail and a body stands in the buffer (R178, R180). -/
def Answers (tag : Half) (result : Result) (detail : Nat) (body : List Byte) (t : State) : Prop :=
  t.response = some (({ result := result, detail := detail, body := body } : Reply).frame tag)

/-! ### Records -/

/-- The handle z, i names bay g: z is a configured zone with record r, i lies within its bay count, g is its global number,
and b is the bay's record (R2, R5). -/
def Names (s : State) (z i g : Nat) (r : Zone) (b : Bay) : Prop :=
  z < 32 ∧ i < 256 ∧ s.zone z = some r ∧ i < r.config.bayCount ∧ g = r.config.bayBase + i ∧
    handleOf s.zones g = some (z, i) ∧ s.bays.find g = some b

/-- Every bay but one has the same record in two states. -/
def OnlyBay (g : Nat) (s t : State) : Prop := ∀ n, n ≠ g → t.bays.find n = s.bays.find n

/-- Every zone but one has the same record in two states. -/
def OnlyZone (z : Nat) (s t : State) : Prop := ∀ n, n ≠ z → t.zone n = s.zone n

/-- The zone can take a steer of a kind (R56): not excluded, configured, OPEN, more FREE bays of the kind than plain steers
that head for them, and long-allowed for a LONG vehicle. -/
def Qualifies (s : State) (k : BayKind) (long : Bool) (excluded : List Nat) (z : Nat) : Prop :=
  z ∉ excluded ∧ ∃ r, s.zone z = some r ∧ r.guidance = .opened ∧ (r.counts.of k).inTransit < (r.counts.of k).free ∧
    (long = true → r.config.longAllowed = true)

/-- What a wake leaves of the device state, quiet control and QUIET_CHANGE (R154): WARMING, no mode and no entered-at, the
wake's time and cause, warm-until, every listed head in the warm set, and WOKEN with the cause raised for the zones that
the wake names. -/
def WakeTaken (cause : WakeCause) (zs : List Nat) (s t : State) : Prop :=
  t.device = .warming ∧
    t.quiet = { s.quiet with
      mode := .noMode, enteredAt := none, wakeTime := some s.partTime, wakeCause := some cause,
      warmUntil := some (s.partTime + s.quiet.warmTime), warmSet := s.heads.keys } ∧
    t.source 15 = (s.source 15).raise s.partTime (maskOf zs) (number 1 1 ++ number 1 cause.code)

/-- No wake was taken: the device state, quiet control and QUIET_CHANGE stand. -/
def NotWoken (s t : State) : Prop := t.device = s.device ∧ t.quiet = s.quiet ∧ t.source 15 = s.source 15

/-- What a wake that concerns no zone leaves when it is all that an event does (R154): every lamp group is settled for
WARMING, and no other source is raised. -/
def Woken (cause : WakeCause) (s t : State) : Prop :=
  WakeTaken cause [] s t ∧
    (∀ n, t.lamps.find n = (s.lamps.find n).map fun g => settleGroup .warming (s.zone g.zone) g) ∧
    ∀ n, n ≠ 15 → t.source n = s.source n

/-- A list names, in number order, the zones whose records before and after an event pass a test. -/
def NamesZones (zs : List Nat) (p : Zone → Zone → Prop) (s t : State) : Prop :=
  zs.Pairwise (· < ·) ∧ ∀ n, n ∈ zs ↔ ∃ y y', s.zone n = some y ∧ t.zone n = some y' ∧ p y y'

/-- A source is raised for the zones of a list, one after another, each with its own detail (R188). -/
def RaisedOver (src : Nat) (zs : List Nat) (detail : Nat → List Byte) (s t : State) : Prop :=
  t.source src = zs.foldl (fun r n => r.raise s.partTime (maskOf [n]) (detail n)) (s.source src)

/-- The detail of a raise that names a zone, with what the zone's record gives. -/
def zoneDetail (f : Zone → List Byte) (t : State) (n : Nat) : List Byte :=
  number 1 n ++
    match t.zone n with
    | none => []
    | some z => f z

/-- The gas that decided a candidate at a CO and an NO2 threshold: CO 00h, NO2 01h, both 02h (R95, R178). -/
def gasCode (co no : Nat) (z : Zone) : List Byte :=
  if co * 256 ≤ z.air.fCO then (if no * 256 ≤ z.air.fNO then [0x02] else [0x00]) else [0x01]

/-- What presence in the zones of a list leaves of the lamp groups (R122): their groups BRIGHT until now plus the hold time,
with their levels settled, and every other group as it was. -/
def Brightened (zs : List Nat) (s t : State) : Prop :=
  ∀ n, t.lamps.find n = (s.lamps.find n).map fun g =>
    if g.zone ∈ zs then
      settleGroup s.device (s.zone g.zone) { g with bright := true, brightUntil := some (s.partTime + g.holdTime) }
    else g

/-! ### Steers and passages -/

/-- The records of the zones are those before an event, each changed by a function of its number and itself. -/
def ZonesChanged (f : Nat → Zone → Zone) (s t : State) : Prop := ∀ n, t.zone n = (s.zone n).map (f n)

/-- A zone record with one FREE bay of a kind less and one OCCUPIED more (R34). -/
def Zone.takenFree (k : BayKind) (z : Zone) : Zone :=
  { z with counts := z.counts.upd k fun c => { c with free := c.free - 1, occupied := c.occupied + 1 } }

/-- A zone record with one HELD bay of a kind less and one OCCUPIED more (R34). -/
def Zone.takenHeld (k : BayKind) (z : Zone) : Zone :=
  { z with counts := z.counts.upd k fun c => { c with held := c.held - 1, occupied := c.occupied + 1 } }

/-- A zone record with one OCCUPIED bay of a kind less and one FREE more (R35). -/
def Zone.vacated (k : BayKind) (z : Zone) : Zone :=
  { z with counts := z.counts.upd k fun c => { c with free := c.free + 1, occupied := c.occupied - 1 } }

/-- A zone record with one HELD bay of a kind less and one FREE more (R43). -/
def Zone.unheld (k : BayKind) (z : Zone) : Zone :=
  { z with counts := z.counts.upd k fun c => { c with free := c.free + 1, held := c.held - 1 } }

/-- A zone record with one plain steer of a kind more on its way (R8). -/
def Zone.moreInTransit (k : BayKind) (z : Zone) : Zone :=
  { z with counts := z.counts.upd k fun c => { c with inTransit := c.inTransit + 1 } }

/-- A zone record with one plain steer of a kind less on its way (R8). -/
def Zone.lessInTransit (k : BayKind) (z : Zone) : Zone :=
  { z with counts := z.counts.upd k fun c => { c with inTransit := c.inTransit - 1 } }

/-- A zone record with an anticipation credit in 1/256 ppm (R91). -/
def Zone.credited (amount : Nat) (z : Zone) : Zone := { z with air := { z.air with antCO := min 16384 (z.air.antCO + amount) } }

/-- The steer x, in slot id, is the oldest of the live plain steers that pass a test: the lowest issued time, and of those
the lowest slot (R57), over a canonical steer table. -/
def OldestPlain (p : Steer → Prop) (s : State) (id : Nat) (x : Steer) : Prop :=
  s.steers.wf = true ∧ (id, x) ∈ s.steers ∧ x.holdBay = none ∧ p x ∧
    ∀ q ∈ s.steers, q.2.holdBay = none → p q.2 → x.issued < q.2.issued ∨ (x.issued = q.2.issued ∧ id ≤ q.1)

/-- A steer is retired (R57): its slot is free, every other slot as it was, and a counter of its origin has moved. -/
def Retired (id : Nat) (x : Steer) (f : PassageCounters → PassageCounters) (s t : State) : Prop :=
  t.steers.find id = none ∧ (∀ m, m ≠ id → t.steers.find m = s.steers.find m) ∧
    ∀ n, t.passages.find n = (s.passages.find n).map fun p =>
      if n = x.origin then { p with counters := f p.counters } else p

/-- What the end of a hold on the HELD bay z, i (global number g, record b, its zone's record r) leaves, if it ends
EXPIRED (1), RELEASED (2) or LOST (3) outside a redirect pass (R24, R40 to R43, R63): the bay's record is b', the device
has one hold less, the zone has one HELD bay of the kind less and one more in the category of b', HOLD_ENDED is raised with
the handle and the ending, and the steer of the hold, if there is one, is retired CANCELLED. -/
def HoldEnded (z i g ending : Nat) (r : Zone) (b b' : Bay) (s t : State) : Prop :=
  t.bays.find g = some b' ∧ OnlyBay g s t ∧ t.holdCount = s.holdCount - 1 ∧
    t.zone z =
      some { r with counts := r.counts.upd b.kind fun c => (c.upd .held (· - 1)).upd b'.category (· + 1) } ∧
    OnlyZone z s t ∧
    t.source 13 =
      (s.source 13).raise s.partTime (maskOf [z]) (number 1 z ++ number 1 i ++ number 1 ending) ∧
    (∀ n, n ≠ 13 → t.source n = s.source n) ∧
    ((∀ q ∈ s.steers, q.2.holdBay ≠ some (z, i)) → t.steers = s.steers ∧ t.passages = s.passages) ∧
    ∀ id y, s.steers.wf = true → (id, y) ∈ s.steers → y.holdBay = some (z, i) →
      (∀ q ∈ s.steers, q.2.holdBay = some (z, i) → q.1 = id) →
      Retired id y (fun c => { c with cancelled := c.cancelled + 1 }) s t

/-- The bay can take the hold of an any-form CLAIM for a kind by a client of a level: of the kind, FREE, VACANT, and not
locked unless the level is 0 (R39). -/
def Bay.Takes (k : BayKind) (level : Nat) (b : Bay) : Prop :=
  b.kind = k ∧ b.category = .free ∧ b.occupancy = .vacant ∧ (b.locked = false ∨ level = 0)

/-- The zone that a passage credits (R55): forward, the to zone of an ENTRY or RAMP and the from zone of an EXIT; in
reverse, the from zone of a RAMP. -/
def creditedZone (c : PassageConfig) (gap : Int) : Option Nat :=
  match c.kind with
  | .entry => if gap < 0 then none else c.toZone
  | .exit => if gap < 0 then none else c.fromZone
  | .ramp => if gap < 0 then c.fromZone else c.toZone

/-- A passage's record after a report of it (R54, R55): its counter of the direction one higher, and the report as its last
passage. -/
def Passage.passed (s : State) (gap : Int) (occupancy : Nat) (r : Passage) : Passage :=
  let l := vehicleLength r.config.spacing r.config.loopLength gap occupancy
  { r with
    counters := if gap < 0 then { r.counters with reverse := r.counters.reverse + 1 }
      else { r.counters with forward := r.counters.forward + 1 }
    last := some { direction := passageDirection gap, vclass := vehicleClass s.passageSettings l, length := l,
                   time := s.partTime } }

/-- The class of the vehicle of a report (R53). -/
def Passage.classOf (s : State) (gap : Int) (occupancy : Nat) (r : Passage) : VehicleClass :=
  vehicleClass s.passageSettings (vehicleLength r.config.spacing r.config.loopLength gap occupancy)

/-- A zone record with the credit of a passage, if it is the zone credited: the pass credit times 256 times the class
weight of 1 for CAR and UNKNOWN, 2 for VAN, 3 for LONG (R91). -/
def Zone.passCredited (s : State) (z : Option Nat) (c : VehicleClass) (n : Nat) (y : Zone) : Zone :=
  if z = some n then
    y.credited (s.airSettings.passCredit * 256 * match c with
      | .car => 1
      | .unknown => 1
      | .van => 2
      | .long => 3)
  else y

/-! ### Responses of heads (R161, R163) -/

/-- The payload lengths that a kind of head may answer with (R161). -/
def PayloadFits : HeadKind → Nat → Prop
  | .bay, n => n ≤ 16
  | .air, n => n = 5
  | .loop, n => n = 1 ∨ n = 5 ∨ n = 9 ∨ n = 13
  | .fan, n => n = 2
  | .lamp, n => n = 3
  | .sign, n => n = 1

/-- The frame of a response: lead byte, address, kind code, status, payload length, payload, CRC-8 (R161). -/
def Response.frame (address : Nat) (r : Response) : List Byte :=
  let covered := number 1 address ++ number 1 r.kind.code ++ [r.status] ++ number 1 r.payload.length ++ r.payload
  [0xA3] ++ covered ++ [crc8 covered]

/-- The bytes received in a window begin with a valid response of the head polled (R163). -/
def ValidResponse (address : Nat) (bytes : List Byte) (r : Response) : Prop :=
  PayloadFits r.kind r.payload.length ∧ ∃ after, bytes = r.frame address ++ after

/-! ### Records of a table -/

/-- Every record of a table has a property. -/
def EachRecord {α : Type} (p : Nat → α → Prop) (t : Table α) : Prop := ∀ q ∈ t, p q.1 q.2

/-- Every configured zone's stored guidance state is the one its four inputs give (R10, R11), over a canonical zone
table. -/
def GuidanceSettled (s : State) : Prop :=
  s.zones.wf = true ∧ EachRecord (fun _ z => z.guidance = deriveGuidance s.device z) s.zones

/-! ### Sweeps and the end of an exchange (R157, R166, R167, R174) -/

/-- A sweep passes over an address of a segment (R152, R167): in QUIET, or in the tail of a sweep begun there, a head that is
outside the normal-rate set and was polled less than a keepalive interval ago. -/
def PassedOver (s : State) (i : Nat) (tail : Bool) (a : Nat) : Prop :=
  ∀ h, s.head i a = some h → (s.device = .quiet ∨ tail = true) ∧ ¬(h.kind = .air ∨ h.kind = .loop ∨ h.wake = true) ∧
    ∃ w, h.lastPolled = some w ∧ s.partTime < w + s.quiet.keepalive

/-- The next sweep of a segment with record g leaves it g' (R166, R167): idle with no listed head; under way from the first
head not passed over; or, with every head passed over, counted and waiting. -/
def SweepBegun (s : State) (i : Nat) (g g' : Segment) : Prop :=
  (s.listed i = [] → g' = { g with keepaliveTail := false, sweep := .idle }) ∧
    (∀ before a after, s.listed i = before ++ a :: after → (∀ b ∈ before, PassedOver s i false b) →
      ¬PassedOver s i false a → g' = { g with keepaliveTail := false, sweep := .sweeping (a :: after) }) ∧
    (s.listed i ≠ [] → (∀ a ∈ s.listed i, PassedOver s i false a) →
      g' = { g with keepaliveTail := false, sweep := .waiting, sweepCount := min 3 (g.sweepCount + 1) })

/-- The sweep of a segment with record g goes on and leaves it g' (R166, R167, R174): from the first head left that is not
passed over; with none left the sweep has ended, is counted up to 3, and the next begins. -/
def SweepGoesOn (s : State) (i : Nat) (g g' : Segment) : Prop :=
  ((∀ todo, g.sweep ≠ .sweeping todo) → g' = g) ∧
    (∀ before a after, g.sweep = .sweeping (before ++ a :: after) → (∀ b ∈ before, PassedOver s i g.keepaliveTail b) →
      ¬PassedOver s i g.keepaliveTail a → g' = { g with sweep := .sweeping (a :: after) }) ∧
    ∀ todo, g.sweep = .sweeping todo → (∀ a ∈ todo, PassedOver s i g.keepaliveTail a) →
      SweepBegun s i { g with sweepCount := min 3 (g.sweepCount + 1) } g'

/-- The state t after the exchange x of segment i, where v is the state with its result settled and `warming` says that the
exchange ended in WARMING. The head leaves the warm set if it was polled since the wake (R157); the segment's sweep goes on
(R166); and where this event completes it, WARMING ends (R157) or STARTING ends (R174, R186). -/
def ExchangeConcluded (i : Nat) (x : Exchange) (warming : Prop) (v t : State) : Prop :=
  ∃ quiet : Quiet,
    (warming → x.beforeWake = false →
      quiet = { v.quiet with warmSet := v.quiet.warmSet.filter fun k => k ≠ 32 * i + x.address }) ∧
    (¬warming ∨ x.beforeWake = true → quiet = v.quiet) ∧
    (∀ j, j ≠ i → t.segment j = v.segment j) ∧ SweepGoesOn v i (v.segment i) (t.segment i) ∧
    let warm := v.device = .warming ∧ quiet.warmSet = [] ∧ ∃ w, v.quiet.warmUntil = some w ∧ w ≤ v.partTime
    let started := v.device = .starting ∧ ∀ j, j < 4 → 3 ≤ (t.segment j).sweepCount ∨ v.listed j = []
    let lampsSettled := ∀ n, t.lamps.find n = (v.lamps.find n).map fun g => settleGroup .running (v.zone g.zone) g
    (¬warm → ¬started → SameExcept [.segments, .quiet] v t ∧ t.quiet = quiet) ∧
      (warm → SameExcept [.segments, .quiet, .device, .lamps, .sources] v t ∧ t.device = .running ∧
        t.quiet = { quiet with warmUntil := none } ∧ lampsSettled ∧
        t.source 15 = (v.source 15).raise v.partTime 0 [0x02] ∧ ∀ n, n ≠ 15 → t.source n = v.source n) ∧
      (started → t.device = .running ∧ t.quiet = quiet ∧
        (∀ n z, v.zone n = some z → ∃ c, t.zone n = some { z with guidance := deriveGuidance .running z, counts := c }) ∧
        (GuidanceSettled v → SameExcept [.segments, .quiet, .device, .zones, .lamps] v t ∧ lampsSettled ∧
          ∀ n, t.zone n = (v.zone n).map fun z => { z with guidance := deriveGuidance .running z }))

/-! ### Invariants -/

/-- Every number of a table is below a limit. -/
def KeysBelow {α : Type} (n : Nat) (t : Table α) : Prop := ∀ k ∈ t.keys, k < n

/-- The canonical form of the part's tables: numbers strictly rising, within the slots that the part has. -/
def TablesCanonical (s : State) : Prop :=
  (s.zones.wf = true ∧ KeysBelow Config.zoneSlots s.zones) ∧
    (s.steers.wf = true ∧ KeysBelow Config.steerSlots s.steers) ∧
    (s.passages.wf = true ∧ KeysBelow Config.passageSlots s.passages) ∧
    (s.signs.wf = true ∧ KeysBelow Config.signSlots s.signs) ∧
    (s.fans.wf = true ∧ KeysBelow Config.fanSlots s.fans) ∧
    (s.lamps.wf = true ∧ KeysBelow Config.lampSlots s.lamps) ∧
    (s.bays.wf = true ∧ KeysBelow Config.bayNumbers s.bays) ∧
    s.heads.wf = true ∧ ∀ k ∈ s.heads.keys, laneInRange (keySegment k) (keyAddress k) = true

/-- Levels that never increase numerically from the bottom of a stack to its top. -/
def LevelsOrdered : List StackEntry → Prop
  | [] => True
  | e :: above => (∀ x ∈ above, x.level ≤ e.level) ∧ LevelsOrdered above

/-- A stack of at most 4 entries, in order of authority, of levels 0 to 2, with n of MIN and HOLD at most 4 (chapter 7.1,
R132, R134). -/
def StackFits (stack : List StackEntry) : Prop :=
  stack.length ≤ Config.stackDepth ∧ LevelsOrdered stack ∧ ∀ e ∈ stack, e.level ≤ 2 ∧ e.vent.stepInRange = true

/-- Every zone's override stack fits (R132). -/
def StacksFit (s : State) : Prop := EachRecord (fun _ z => StackFits z.stack) s.zones

/-- The bounds of a zone's accumulators (R83). -/
def AirInBounds (a : ZoneAir) : Prop :=
  a.fCO ≤ 128000 ∧ a.sCO ≤ 128000 ∧ a.fNO ≤ 2560000 ∧ a.sNO ≤ 2560000 ∧ a.antCO ≤ 16384

/-- Every zone's accumulators stay within their bounds (R83). -/
def AccumulatorsBounded (s : State) : Prop := EachRecord (fun _ z => AirInBounds z.air) s.zones

/-- The settings of the blocks that carry a rule of combination keep it (R51, R93). -/
def SettingsOrdered (s : State) : Prop :=
  s.passageSettings.carLimit ≤ s.passageSettings.vanLimit ∧
    s.airSettings.watchCO < s.airSettings.actCO ∧ s.airSettings.actCO < s.airSettings.barCO ∧
    s.airSettings.watchNO < s.airSettings.actNO ∧ s.airSettings.actNO < s.airSettings.barNO

/-- The target of every live steer is a configured zone whose guidance state is OPEN (R66). -/
def TargetsOpen (s : State) : Prop := ∀ q ∈ s.steers, ∃ z, s.zone q.2.target = some z ∧ z.guidance = .opened

/-- No steer heads for a closed zone, with what keeps it so: the steer table is canonical and guidance is settled. -/
def SteersGuided (s : State) : Prop := s.steers.wf = true ∧ GuidanceSettled s ∧ TargetsOpen s

/-- The number of live plain steers of a kind whose target is a zone (R8). -/
def steersTo (s : State) (z : Nat) (k : BayKind) : Nat :=
  (s.steers.filter fun q => q.2.plain && q.2.target = z && q.2.kind = k).length

/-- Each zone's in-transit count of each kind is the number of live plain steers of that kind whose target it is (R8, R57);
in UNCONFIGURED there are none. -/
def TransitMatches (s : State) : Prop :=
  s.zones.wf = true ∧ s.steers.wf = true ∧ (s.device = .unconfigured → s.steers = []) ∧
    EachRecord (fun n z => ∀ k, (z.counts.of k).inTransit = steersTo s n k) s.zones

/-- The ranges of two different configured zones have no bay in common (R2). -/
def RangesApart (s : State) : Prop :=
  ∀ p ∈ s.zones, ∀ q ∈ s.zones, p.1 ≠ q.1 → p.2.config.overlaps q.2.config = false

/-- For every zone and kind, the category counts are the numbers of the zone's bay records in each category (R24). -/
def CountsMatch (s : State) : Prop :=
  s.zones.wf = true ∧ s.bays.wf = true ∧ RangesApart s ∧
    EachRecord (fun _ z => ∀ k c, (z.counts.of k).of c = countBays (baysIn z.config s.bays) k c) s.zones

/-- A zone's automatic demand stands at or above the floor of its air state (R90), and every step that a demand step is
settled from lies in 0 to 4. -/
def StepsInRange (z : Zone) : Prop :=
  airFloor z.air.state ≤ z.air.autoDemand ∧ z.air.autoDemand ≤ 4 ∧ z.config.baseStep ≤ 4 ∧ z.config.quietBase ≤ 4 ∧
    z.config.blindStep ≤ 4 ∧ ∀ e ∈ z.stack, e.vent.stepInRange = true

/-- A zone's demand step is settled (R102). -/
def ZoneDemand (z : Zone) : Prop := z.demand = demandStep z ∧ StepsInRange z

/-- What every step keeps of a zone's demand step: it is settled outside fire, and in fire it is 0 or 4. A CONFIGURE that
changes the fire role of a zone in fire leaves its demand step as it stands (R15). -/
def ZoneDemandKept (z : Zone) : Prop :=
  (z.fire ≠ .active → z.demand = demandStep z) ∧ (z.fire = .active → z.demand = 0 ∨ z.demand = 4) ∧ StepsInRange z

/-- Every zone's demand step is settled, over a canonical zone table. -/
def DemandSettled (s : State) : Prop := s.zones.wf = true ∧ EachRecord (fun _ z => ZoneDemand z) s.zones

/-- Every zone's demand step is kept, over a canonical zone table. -/
def DemandKept (s : State) : Prop := s.zones.wf = true ∧ EachRecord (fun _ z => ZoneDemandKept z) s.zones

/-- No more fans are STARTING than the start limit (R108), with what keeps it so: the fan table is canonical, and in
UNCONFIGURED no fan has left UNREACHED and no exchange is in flight. -/
def StartGateHolds (s : State) : Prop :=
  s.fans.wf = true ∧ startingCount s ≤ s.fanSettings.startLimit ∧
    (s.device = .unconfigured →
      EachRecord (fun _ f => f.state = .unreached) s.fans ∧ ∀ i, (s.segment i).exchange = none)

/-- A fan stands on its target as R105 and R106 have it: its commanded step is its target in STARTING and RUNNING and 0 in
the other states; in STOPPED its target is 0, in QUEUED and RUNNING above 0; start-ends, rundown-ends and time queued are
held exactly in STARTING, RUNDOWN and QUEUED; and at most three trip times are held (R111). -/
def FanStands (f : Fan) : Prop :=
  f.commanded = (match f.state with
    | .starting => f.target
    | .running => f.target
    | _ => 0) ∧
    (f.state = .stopped → f.target = 0) ∧ (f.state = .queued ∨ f.state = .running → 0 < f.target) ∧
    (f.startEnds.isSome = true ↔ f.state = .starting) ∧ (f.rundownEnds.isSome = true ↔ f.state = .rundown) ∧
    (f.timeQueued.isSome = true ↔ f.state = .queued) ∧ f.trips.length ≤ 3

/-- Every fan stands on its target, over a canonical fan table. -/
def FansStand (s : State) : Prop := s.fans.wf = true ∧ EachRecord (fun _ f => FanStands f) s.fans

/-- Every fan's target is the one that R104 computes for it, over canonical zone and fan tables. -/
def FansOnTarget (s : State) : Prop :=
  s.zones.wf = true ∧ s.fans.wf = true ∧ EachRecord (fun _ f => f.target = fanTarget s f) s.fans

/-- A lamp group's effective level, reason and commanded level are those that R124 gives for the device state and its
zone's record, and its levels stand in their ranges (R119). -/
def GroupSettled (s : State) (g : LampGroup) : Prop :=
  g = settleGroup s.device (s.zone g.zone) g ∧ 10 ≤ g.guardLevel ∧ g.guardLevel ≤ 40 ∧ g.guardLevel ≤ g.lowLevel ∧
    g.lowLevel ≤ 100

/-- Every configured lamp group is settled, over a canonical zone table. -/
def LampsSettled (s : State) : Prop := s.zones.wf = true ∧ EachRecord (fun _ g => GroupSettled s g) s.lamps

/-- The device-wide count of holds stays within its limit (R36). -/
def HoldsWithinLimit (s : State) : Prop := s.holdCount ≤ Config.holdLimit

/-- The device-wide count of holds is the number of bay records that carry one (R36), over a canonical bay table; in
UNCONFIGURED no bay carries a hold. -/
def HoldsCounted (s : State) : Prop :=
  s.bays.wf = true ∧ s.holdCount = (s.bays.filter fun p => p.2.hold.isSome).length ∧
    (s.device = .unconfigured → EachRecord (fun _ b => b.hold = none) s.bays)

/-- A configured zone is in fire state ACTIVE exactly while its line flag or its declared flag is set (R139), over a canonical
zone table. -/
def FireMatchesFlags (s : State) : Prop :=
  s.zones.wf = true ∧ EachRecord (fun _ z => z.fire = .active ↔ z.lineFlag = true ∨ z.declaredFlag = true) s.zones

end Sys2Proof.Machine
end

