-- ==== Sys2Proof/Certificates/Slice0/Obligations.lean ====
section
/-!
DEFINITION. What is stated of the EK416 for the provers: one proposition for each statement of OBLIGATIONS.json.
-/
open Sys2Proof Sys2Proof.Machine

/-- A step runs the command at the front of the queue (R179, 10.2). -/
def Obligations.StepTakesTheFrontCommand : Prop :=
  (∀ (c : Instr) (rest : List Instr) (s : State), s.pending = c :: rest → step s = exec c (s.setPending rest)) ∧
    ∀ s : State, s.pending = [] → step s = .next s

/-- A request taken while READY is asserted is a read transfer (R180). -/
def Obligations.RequestsAreLostWhileReady : Prop :=
  ∀ (c : Instr) (client : Byte) (tag : Half) (body r : List Byte) (s : State),
    requestParts c = some (client, tag, body) → s.response = some r →
      ∃ t, exec c s = .next t ∧ SameExcept portFields s t ∧ t.miso = (r ++ zeros (5 + body.length)).take (5 + body.length) ∧
        t.response = if r.length ≤ 5 + body.length then none else some r

/-- What a read transfer and a discarded frame do to MISO and the response buffer (R179, R180). -/
def Obligations.ReadTransfersEmptyTheBuffer : Prop :=
  ∀ (s : State) (c : Instr) (n : Nat), (c = .readTransfer n ∨ ∃ mosi, c = .discardedFrame mosi ∧ n = mosi.length) →
    (∀ r, s.response = some r →
      ∃ t, exec c s = .next t ∧ SameExcept portFields s t ∧ t.miso = (r ++ zeros n).take n ∧
        t.response = if r.length ≤ n then none else some r) ∧
    (s.response = none → ∃ t, exec c s = .next t ∧ SameExcept [.miso] s t ∧ t.miso = zeros n)

/-- IDENTIFY returns vendor, part, revision, device state, reset cause, part time and record totals (R184). -/
def Obligations.IdentifyReportsTheDevice : Prop :=
  ∀ (client : Byte) (tag : Half) (body : List Byte) (s : State), Reaches 3 client body s →
    ∃ t, exec (.identify client tag body) s = .next t ∧ SameExcept portFields s t ∧
      Answers tag .done 0
        ([0x1D, 0x4C, 0x04, 0x16, 0x01] ++ number 1 s.device.code ++ number 1 s.resetCause.code ++ number 4 s.partTime ++
          number 1 s.zones.length ++ number 2 (s.zones.map fun p => p.2.config.bayCount).sum ++ number 1 s.heads.length) t

/-- The passing of a second raises part time by one and changes nothing else (R184). That nothing else changes at a
second is the model's choice (log entry 2): what falls due then is a command of its own. -/
def Obligations.PartTimeRisesByOne : Prop :=
  ∀ s : State, ∃ t, exec .partTimeTick s = .next t ∧ t.partTime = s.partTime + 1 ∧ SameExcept [.partTime] s t

/-- FETCH returns and clears the set latch of the lowest level, then the lowest source number (R178, R188, R189). That
the first-set time and the detail carry no presence bytes is the model's reading of R178 (log entry 11). -/
def Obligations.FetchTakesTheMostUrgentLatch : Prop :=
  ∀ (client : Byte) (tag : Half) (body : List Byte) (s : State), Reaches 1 client body s →
    (∀ (n f : Nat) (d : List Byte), n < 16 → (s.source n).isSet = true → (s.source n).firstSet = some f →
      (s.source n).detail = some d →
      (∀ m, m < 16 → (s.source m).isSet = true →
        (s.source n).level < (s.source m).level ∨ ((s.source n).level = (s.source m).level ∧ n ≤ m)) →
      ∃ t, exec (.fetch client tag body) s = .next t ∧ SameExcept (portFields ++ [.sources, .fetchMask]) s t ∧
        Answers tag .done 0
          (number 1 n ++ number 1 (s.source n).level ++ maskBytes (s.source n).mask ++ number 1 (s.source n).count ++
            number 4 f ++ d) t ∧
        t.fetchMask = true ∧ t.source n = Source.clear (s.source n).level (s.source n).enabled ∧
        ∀ m, m ≠ n → t.source m = s.source m) ∧
    ((∀ m, m < 16 → (s.source m).isSet = false) →
      ∃ t, exec (.fetch client tag body) s = .next t ∧ SameExcept portFields s t ∧ Answers tag .done 0 [] t)

/-- FETCH_DONE clears the FETCH mask, and ATTN is asserted exactly while an enabled latch is set and the mask is clear
(R190). -/
def Obligations.FetchDoneFreesAttention : Prop :=
  (∀ (client : Byte) (tag : Half) (body : List Byte) (s : State), Reaches 1 client body s →
      ∃ t, exec (.fetchDone client tag body) s = .next t ∧ SameExcept (.fetchMask :: portFields) s t ∧
        t.fetchMask = false ∧ Answers tag .done 0 [] t) ∧
    ∀ s : State, s.attn = true ↔
      (∃ n, n < 16 ∧ (s.source n).enabled = true ∧ (s.source n).isSet = true) ∧ s.fetchMask = false

/-- What a raise does to its latch (R188). -/
def Obligations.ARaiseSetsOneLatch : Prop :=
  ∀ (n : Nat) (zs : List Nat) (d : List Byte) (s : State), n < 16 →
    SameExcept [.sources] s (Machine.raise n zs d s) ∧
    (∀ m, m ≠ n → (Machine.raise n zs d s).source m = s.source m) ∧
    ((s.source n).isSet = false →
      (Machine.raise n zs d s).source n =
        { level := (s.source n).level, enabled := (s.source n).enabled, isSet := true, mask := maskOf zs, count := 1,
          firstSet := some s.partTime, detail := some d }) ∧
    ((s.source n).isSet = true → (s.source n).count ≤ 255 →
      (Machine.raise n zs d s).source n =
        { level := (s.source n).level, enabled := (s.source n).enabled, isSet := true,
          mask := (s.source n).mask ||| maskOf zs, count := min 255 ((s.source n).count + 1),
          firstSet := (s.source n).firstSet, detail := some d })

/-- CONFIGURE of a client slot, of every settings record, of the pattern table and of an attention source takes the
values given (R26, R51, R71, R93, R101, R120, R149, R176, R182, R183, R188). That each setting of a settings record,
and the level and the flag of a source, may be absent is the model's reading for the records whose rule does not say
it (log entry 9). -/
def Obligations.ClientLevelsAreSetForClientZero : Prop :=
  (∀ (client slot level : Byte) (tag : Half) (s : State), Reaches 0 client [0x14, slot, level] s →
    (client ≠ 0 →
      ∃ t, exec (.configure client tag [0x14, slot, level]) s = .next t ∧ SameExcept portFields s t ∧
        Answers tag .authority 0 [] t) ∧
    (client = 0 → 8 ≤ slot.toNat ∨ 4 ≤ level.toNat →
      ∃ t, exec (.configure client tag [0x14, slot, level]) s = .next t ∧ SameExcept portFields s t ∧
        Answers tag .range 0 [] t) ∧
    (client = 0 → slot = 0 → level.toNat < 4 →
      ∃ t, exec (.configure client tag [0x14, slot, level]) s = .next t ∧ SameExcept portFields s t ∧
        Answers tag .combination 0 [] t) ∧
    (client = 0 → slot ≠ 0 → slot.toNat < 8 → level.toNat < 4 →
      ∃ t, exec (.configure client tag [0x14, slot, level]) s = .next t ∧ SameExcept (.clients :: portFields) s t ∧
        Answers tag .done 0 (number 1 (s.clientLevel slot.toNat)) t ∧ t.clientLevel slot.toNat = level.toNat ∧
        ∀ n, n ≠ slot.toNat → t.clientLevel n = s.clientLevel n)) ∧
    ∀ (client : Byte) (tag : Half) (s : State),
      let given := fun (w : Nat) (v : Option Nat) => optBytes (number w) v
      let fits := fun (w : Nat) (v : Option Nat) => ∀ x, v = some x → x < 256 ^ w
      let value := fun (lo hi old : Nat) (v : Option Nat) => match v with
        | none => old
        | some x => max lo (min hi x)
      let out := fun (lo hi : Nat) (v : Option Nat) => v.any fun x => decide (x < lo ∨ hi < x)
      let answers := fun (body : List Byte) (result : Result) (u : State) =>
        ∃ t, exec (.configure client tag body) s = .next t ∧ SameExcept portFields u t ∧ Answers tag result 0 [] t
      let takes := fun (fields : List Byte) (ordered : Prop) (outside : Bool) (u : State) => Reaches 0 client fields s →
        (s.device ≠ .unconfigured → answers fields .notNow s) ∧
        (s.device = .unconfigured → (ordered → answers fields (if outside = true then .clamped else .done) u) ∧
          (¬ordered → answers fields .combination s))
      let p := s.passageSettings
      let c := s.airSettings
      let f := s.fanSettings
      let q := s.quiet
      (∀ a, fits 1 a → takes (number 1 0x03 ++ given 1 a) True (out 2 60 a)
        (s.setSettleTime (value 2 60 s.settleTime a))) ∧
      (∀ a b, fits 2 a → fits 2 b →
        let n : PassageSettings := { carLimit := value 200 1500 p.carLimit a, vanLimit := value 200 3000 p.vanLimit b }
        takes (number 1 0x07 ++ given 2 a ++ given 2 b) (n.carLimit ≤ n.vanLimit) (out 200 1500 a || out 200 3000 b)
          (s.setPassageSettings n)) ∧
      (∀ a₁ a₂ a₃ b₁ b₂ b₃ d e h, fits 2 a₁ → fits 2 a₂ → fits 2 a₃ → fits 2 b₁ → fits 2 b₂ → fits 2 b₃ → fits 1 d →
        fits 1 e → fits 2 h →
        let n : AirSettings :=
          { watchCO := value 5 500 c.watchCO a₁, actCO := value 5 500 c.actCO a₂, barCO := value 5 500 c.barCO a₃
            watchNO := value 100 10000 c.watchNO b₁, actNO := value 100 10000 c.actNO b₂
            barNO := value 100 10000 c.barNO b₃, coldCredit := value 0 16 c.coldCredit d
            passCredit := value 0 8 c.passCredit e, staleHold := value 30 600 c.staleHold h }
        takes (number 1 0x0A ++ given 2 a₁ ++ given 2 a₂ ++ given 2 a₃ ++ given 2 b₁ ++ given 2 b₂ ++ given 2 b₃ ++
            given 1 d ++ given 1 e ++ given 2 h)
          (n.watchCO < n.actCO ∧ n.actCO < n.barCO ∧ n.watchNO < n.actNO ∧ n.actNO < n.barNO)
          (out 5 500 a₁ || out 5 500 a₂ || out 5 500 a₃ || out 100 10000 b₁ || out 100 10000 b₂ || out 100 10000 b₃ ||
            out 0 16 d || out 0 8 e || out 30 600 h)
          (s.setAirSettings n)) ∧
      (∀ a b d, fits 1 a → fits 1 b → fits 1 d →
        takes (number 1 0x0C ++ given 1 a ++ given 1 b ++ given 1 d) True (out 1 4 a || out 2 30 b || out 5 120 d)
          (s.setFanSettings { startLimit := value 1 4 f.startLimit a, startTime := value 2 30 f.startTime b
                              minOffTime := value 5 120 f.minOffTime d })) ∧
      (∀ a, fits 1 a → takes (number 1 0x0E ++ given 1 a) True (out 1 32 a)
        (s.setFaultThreshold (value 1 32 s.faultThreshold a))) ∧
      (∀ a b, fits 2 a → fits 2 b → takes (number 1 0x11 ++ given 2 a ++ given 2 b) True (out 10 600 a || out 5 120 b)
        (s.setQuiet { q with keepalive := value 10 600 q.keepalive a, warmTime := value 5 120 q.warmTime b })) ∧
      (∀ a, fits 1 a → takes (number 1 0x13 ++ given 1 a) True (out 5 120 a)
        (s.setLostTime (value 5 120 s.lostTime a))) ∧
      (∀ l : List (Nat × Half × Bool), l ≠ [] → (∀ e ∈ l, e.1 < 32) → (l.map Prod.fst).Nodup →
        let body := number 1 0x09 ++ number 1 l.length ++
          l.flatMap fun e => number 1 e.1 ++ halfBytes e.2.1 ++ flagByte e.2.2
        Reaches 0 client body s →
        (s.device ≠ .unconfigured → answers body .notNow s) ∧
        (s.device = .unconfigured →
          ∃ t, exec (.configure client tag body) s = .next t ∧ SameExcept (.patterns :: portFields) s t ∧
            Answers tag .done 0 [] t ∧ (∀ e ∈ l, t.pattern e.1 = { word := e.2.1, showCount := e.2.2 }) ∧
            ∀ n, (∀ e ∈ l, e.1 ≠ n) → t.pattern n = s.pattern n)) ∧
      ∀ (n : Nat) (level : Option Nat) (flag : Option Bool), n < 256 → fits 1 level →
        let body := number 1 0x15 ++ number 1 n ++ given 1 level ++ optBytes flagByte flag
        let y := s.source n
        Reaches 0 client body s →
        (16 ≤ n ∨ 3 < level.getD y.level → answers body .range s) ∧
        (n < 16 → level.getD y.level ≤ 3 →
          ∃ t, exec (.configure client tag body) s = .next t ∧ SameExcept (.sources :: portFields) s t ∧
            Answers tag .done 0 (number 1 y.level ++ flagByte y.enabled) t ∧
            t.source n = { y with level := level.getD y.level, enabled := flag.getD y.enabled } ∧
            ∀ m, m ≠ n → t.source m = s.source m)

/-- GO takes the device to STARTING where every check of R185 holds; outside UNCONFIGURED, and with no zone, it is
refused (R77, R139, R174, R185). That GO gives every UNREACHED fan of a zone in fire the target of its fire role and
lets every other keep its target is the model's reading of R100 and R139 (log entry 20). -/
def Obligations.GoTakesTheDeviceToStarting : Prop :=
  ∀ (client : Byte) (tag : Half) (body : List Byte) (s : State), Reaches 0 client body s →
    (s.device ≠ .unconfigured →
      ∃ t, exec (.go client tag body) s = .next t ∧ SameExcept portFields s t ∧ Answers tag .notNow 0 [] t) ∧
    (s.device = .unconfigured → s.zones = [] →
      ∃ t, exec (.go client tag body) s = .next t ∧ SameExcept portFields s t ∧ Answers tag .combination 1 [] t) ∧
    (s.device = .unconfigured → GuidanceSettled s → s.zones ≠ [] → (∀ q ∈ s.zones, q.2.config.airHeads ≠ []) →
    (∀ q ∈ s.bays, ∀ x, q.2.binding = some x →
      (∃ h, s.head x.segment x.address = some h ∧ h.kind = .bay) ∧ ∀ p ∈ s.bays, p.1 < q.1 → p.2.binding ≠ some x) →
    (∀ q ∈ s.passages, ∀ z ∈ q.2.config.zones, (s.zone z).isSome = true) →
    (∀ q ∈ s.passages, q.2.config.kind = .entry → q.2.config.preference ≠ []) →
    (∀ q ∈ s.fans, ∀ z ∈ q.2.zone :: optList q.2.assist, (s.zone z).isSome = true) →
    (∀ q ∈ s.lamps, (s.zone q.2.zone).isSome = true) →
    (∀ q ∈ s.signs, ∀ z ∈ q.2.config.watched ++ q.2.config.directions.map Prod.fst, (s.zone z).isSome = true) →
      ∃ t, exec (.go client tag body) s = .next t ∧
        SameExcept (portFields ++ [.device, .startTime, .nextEvaluation, .segments, .zones, .fans, .lamps]) s t ∧
        Answers tag .done 0 [] t ∧ t.device = .starting ∧ t.startTime = s.partTime ∧
        t.nextEvaluation = some (s.partTime + 15) ∧
        (∀ i, i < 4 → (t.segment i).sweepCount = 0 ∧ (t.segment i).sweep = .awaitingStart ∧
          (t.segment i).exchange = none) ∧
        (∀ n, t.zone n = (s.zone n).map fun z => { z with guidance := deriveGuidance .starting z }) ∧
        (∀ n z, t.zone n = some z → z.guidance ≠ .opened) ∧
        (∀ n f, s.fans.find n = some f → f.state = .unreached → t.fans.find n = some (match s.zone f.zone with
          | none => f
          | some z => if z.fire = .active then { f with target := if z.config.haltRole = true then 0 else 4 } else f)) ∧
        ∀ n, (t.lamps.find n = none ↔ s.lamps.find n = none) ∧
          ∀ g h, s.lamps.find n = some g → t.lamps.find n = some h →
            (h.commanded = 100 ∨ h.commanded = g.guardLevel) ∧ h.effective = h.commanded ∧
              h = { g with effective := h.effective, reason := h.reason, commanded := h.commanded })

/-- What RESTART keeps and what it sets (R21, R48, R54, R75, R99, R118, R131, R148, R159, R177, R187). -/
def Obligations.RestartKeepsTheConfiguration : Prop :=
  ∀ (client : Byte) (tag : Half) (body : List Byte) (s : State), Reaches 0 client body s →
    (s.device = .unconfigured →
      ∃ t, exec (.restart client tag body) s = .next t ∧ SameExcept portFields s t ∧ Answers tag .notNow 0 [] t) ∧
    (s.device ≠ .unconfigured → ∃ t, exec (.restart client tag body) s = .next t ∧
      SameExcept (writes (.restart client tag body)) s t ∧
      Answers tag .done 0 [0x01] t ∧ t.partTime = 0 ∧ t.resetCause = .restart ∧ t.device = .starting ∧ t.startTime = 0 ∧
      t.nextEvaluation = some 15 ∧ t.steers = [] ∧ t.holdCount = 0 ∧ t.fetchMask = false ∧
      (∀ n, (t.zone n = none ↔ s.zone n = none) ∧ ∀ z y, s.zone n = some z → t.zone n = some y →
        y.config = z.config ∧ y.stack = [] ∧ y.demand = 0 ∧ y.air = ZoneAir.start ∧
          (∀ k, (y.counts.of k).inTransit = 0 ∧ (y.counts.of k).held = 0) ∧ y.lineFlag = false ∧ y.declaredFlag = false ∧
          (∀ k c, (y.counts.of k).of c = countBays (baysIn z.config t.bays) k c) ∧
          (z.fire = .noFire → y.fire = .noFire ∧ y.guidance = .closedStart) ∧
          (z.fire ≠ .noFire → y.fire = .held ∧ y.guidance = .closedFire)) ∧
      (∀ g, t.bays.find g = (s.bays.find g).map fun b =>
        { b with sense := if b.binding = none then .sensed else .unsensed, occupancy := .vacant, pendingSince := none,
                 lastChange := 0, hold := none }) ∧
      (∀ n, t.passages.find n = (s.passages.find n).map fun p =>
        { p with counters := { forward := 0, reverse := 0, guided := 0, full := 0, settled := 0, expired := 0,
                               cancelled := 0, overflow := 0 }
                 kioskWait := 0, waitUntil := none, last := none }) ∧
      (∀ n, t.signs.find n = (s.signs.find n).map fun g => { g with shown := none, lastSent := none, headFault := false }) ∧
      (∀ n, t.fans.find n = (s.fans.find n).map fun f =>
        { head := f.head, zone := f.zone, assist := f.assist
          state := if f.state = .lockedOut then .lockedOut else .unreached
          target := 0, commanded := 0, observed := 0, runFlag := false, tripFlag := false, localFlag := false
          reportTime := none, trips := [], startEnds := none, rundownEnds := none, timeQueued := none }) ∧
      (∀ i a, t.head i a = (s.head i a).map fun h =>
        { kind := h.kind, wake := h.wake, state := .listed, misses := 0, lastValid := none, reference := none, report := none
          status := none, kindSeen := none, lastPolled := none, toggle := false, lostSince := none }) ∧
      (∀ n, t.lamps.find n = (s.lamps.find n).map fun g =>
        { g with bright := false, brightUntil := none, effective := 100, commanded := 100, observed := 0, failed := 0
                 motionSeen := false, reportTime := none
                 reason := match s.zone g.zone with
                   | none => .starting
                   | some z => if z.fire = .noFire then .starting else .fire }) ∧
      (∀ i, i < 4 → t.segment i =
        { sweepCount := 0, sweep := .awaitingStart, keepaliveTail := false, exchange := none }) ∧
      (∀ n, n < 16 → t.source n = Source.clear (s.source n).level (s.source n).enabled) ∧
      t.fireLine = { alarm := false, asserted := s.fireLine.asserted
                     changeSince := if s.fireLine.asserted = true then some 0 else none } ∧
      t.quiet = { mode := .noMode, line := s.quiet.line, enteredAt := none, wakeTime := none, wakeCause := none
                  warmUntil := none, warmSet := [], keepalive := s.quiet.keepalive, warmTime := s.quiet.warmTime })

/-- A cold reset sets every record to its cold reset value (R1, R48, R75, R118, R140, R159, R182, R187, R188). -/
def Obligations.ColdResetClearsEveryRecord : Prop :=
  ∀ (c : ColdCause) (s : State),
    ∃ t, exec (.coldReset c) s = .next t ∧ SameExcept [.pending, .resetCause, .fireLine, .quiet] State.reset t ∧
      t.pending = s.pending ∧ t.resetCause = (match c with
        | .power => .power
        | .pin => .pin) ∧
      t.fireLine = { alarm := false, asserted := s.fireLine.asserted,
                     changeSince := if s.fireLine.asserted = true then some 0 else none } ∧
      t.quiet = { State.reset.quiet with line := s.quiet.line }

/-- What the state after power-on holds, the invariants among it (R1, R26, R36, R51, R57, R93, R101, R120, R149, R176,
R182, R188). -/
def Obligations.ResetLeavesTheStatedValues : Prop :=
  State.reset.device = .unconfigured ∧ State.reset.partTime = 0 ∧ State.reset.resetCause = .power ∧
    State.reset.zones = [] ∧ State.reset.bays = [] ∧ State.reset.steers = [] ∧ State.reset.passages = [] ∧
    State.reset.signs = [] ∧ State.reset.fans = [] ∧ State.reset.lamps = [] ∧ State.reset.heads = [] ∧
    State.reset.holdCount = 0 ∧ State.reset.settleTime = 6 ∧
    State.reset.passageSettings = { carLimit := 520, vanLimit := 700 } ∧
    State.reset.airSettings =
      { watchCO := 25, actCO := 50, barCO := 150, watchNO := 500, actNO := 1000, barNO := 3000, coldCredit := 3,
        passCredit := 1, staleHold := 120 } ∧
    State.reset.fanSettings = { startLimit := 2, startTime := 8, minOffTime := 20 } ∧ State.reset.faultThreshold = 3 ∧
    State.reset.quiet.keepalive = 60 ∧ State.reset.quiet.warmTime = 10 ∧ State.reset.lostTime = 20 ∧
    State.reset.clientLevel 0 = 0 ∧ (∀ n, 1 ≤ n → n < 8 → State.reset.clientLevel n = 3) ∧
    (∀ n, n < 16 → (State.reset.source n).isSet = false ∧ (State.reset.source n).enabled = true) ∧
    State.reset.fetchMask = false ∧ State.reset.response = none ∧
    TablesCanonical State.reset ∧ GuidanceSettled State.reset ∧ CountsMatch State.reset ∧ TransitMatches State.reset ∧
    SteersGuided State.reset ∧ AccumulatorsBounded State.reset ∧ DemandSettled State.reset ∧ StartGateHolds State.reset ∧
    LampsSettled State.reset ∧ StacksFit State.reset ∧ HoldsWithinLimit State.reset ∧ SettingsOrdered State.reset ∧
    DemandKept State.reset ∧ HoldsCounted State.reset ∧ FireMatchesFlags State.reset ∧ FansStand State.reset ∧
    FansOnTarget State.reset

/-- Every command answers a next state that differs only in the command's own fields (R179, R180, R183). -/
def Obligations.EveryCommandWritesOnlyItsFields : Prop :=
  ∀ (c : Instr) (s : State), ∃ t, exec c s = .next t ∧ SameExcept (writes c) s t

/-- The command that a selection gives; an unknown kind or client answers FORM, a level above the minimum AUTHORITY,
and no record changes (R178, R179, R180, R181). That a selection's command is settled by READY as it stands at the
selection, and waits behind the commands before it, is the model's choice (log entry 4). -/
def Obligations.PortChecksComeFirst : Prop :=
  (∀ (c : Instr) (client : Byte) (tag : Half) (body after : List Byte) (s : State),
      requestParts c = some (client, tag, body) → c.wellFormed = true → s.response = none →
        s.transferOf (number 1 (5 + body.length) ++ [client, kindCode c] ++ halfBytes tag ++ body ++ after) = c) ∧
    (∀ (mosi : List Byte) (s : State), s.response = none →
      (mosi = [] ∨ ∃ n rest, mosi = n :: rest ∧ (n.toNat < 5 ∨ 64 < n.toNat ∨ mosi.length < n.toNat)) →
        s.transferOf mosi = .discardedFrame mosi) ∧
    (∀ (mosi : List Byte) (s : State) (r : List Byte), s.response = some r →
      s.transferOf mosi = .readTransfer mosi.length) ∧
    (∀ (mosi : List Byte) (s : State), s.pending = [] → step (s.select mosi) = exec (s.transferOf mosi) s) ∧
    (∀ (c : Instr) (client : Byte) (tag : Half) (body : List Byte) (s : State),
      requestParts c = some (client, tag, body) → s.response = none → bodyFits body = true →
        (8 ≤ client.toNat → ∃ t, exec c s = .next t ∧ SameExcept portFields s t ∧ Answers tag .form 0 [] t) ∧
          ∀ m, client.toNat < 8 → minLevel c = some m → m < s.clientLevel client.toNat →
            ∃ t, exec c s = .next t ∧ SameExcept portFields s t ∧ Answers tag .authority 0 [] t) ∧
    ∀ (client kind : Byte) (tag : Half) (body : List Byte) (s : State), s.response = none → bodyFits body = true →
      ∃ t, exec (.requestKindUnknown client kind tag body) s = .next t ∧ SameExcept portFields s t ∧
        Answers tag .form 0 [] t

/-- CONFIGURE of an unconfigured zone with its required fields alone makes the zone and its bays (R6, R13, R14, R15,
R22). -/
def Obligations.ConfigureMakesAZone : Prop :=
  ∀ (client : Byte) (tag : Half) (n level base count : Nat) (s : State),
    Reaches 0 client (number 1 1 ++ number 1 n ++ number 1 level ++ number 2 base ++ number 1 count ++ zeros 8) s →
    s.device = .unconfigured → n < 32 → s.zone n = none → 1 ≤ level → level ≤ 6 → count ≤ 255 → base ≤ 2047 →
    base + count ≤ 2048 →
    (∀ q ∈ s.zones, ∀ g, base ≤ g → g < base + count → q.2.config.covers g = false) →
    (∀ g, base ≤ g → g < base + count → s.bays.find g = none) → s.bays.wf = true →
      ∃ t, exec (.configure client tag
            (number 1 1 ++ number 1 n ++ number 1 level ++ number 2 base ++ number 1 count ++ zeros 8)) s = .next t ∧
        SameExcept (portFields ++ [.zones, .bays, .fans, .lamps]) s t ∧
        (∃ z, t.zone n = some z ∧
          z.config = { level := level, bayBase := base, bayCount := count, airHeads := [], travelTime := 180, baseStep := 1,
                       quietBase := 0, blindStep := 2, longAllowed := false, fireGroup := true, haltRole := false } ∧
          z.air = ZoneAir.start ∧ z.air.state = .blind ∧ z.demand = 0 ∧ z.fire = .noFire ∧ z.guidance = .closedStart ∧
          z.stack = [] ∧
          (∀ k, (z.counts.of k).inTransit = 0 ∧ (z.counts.of k).free = 0 ∧ (z.counts.of k).occupied = 0 ∧
            (z.counts.of k).held = 0) ∧
          z.counts.standard.unavailable = count ∧ z.counts.wide.unavailable = 0 ∧ z.counts.charge.unavailable = 0 ∧
          Answers tag .done 0
            (number 1 n ++ number 1 level ++ number 2 base ++ number 1 count ++ [0x00, 0x00, 0xB4, 0x01, 0x00, 0x02, 0x02]) t) ∧
        (∀ m, m ≠ n → t.zone m = s.zone m) ∧
        ∀ g, t.bays.find g =
          if base ≤ g ∧ g < base + count then
            some { kind := .standard, binding := none, service := .outOfService, locked := false, sense := .sensed,
                   occupancy := .vacant, pendingSince := none, lastChange := s.partTime, hold := none }
          else s.bays.find g

/-- AMEND of a travel time, of every settings record, of a pattern entry and of an attention source takes the value
given and returns the prior one (R4, R18, R26, R51, R71, R93, R101, R120, R149, R176, R183, R188). The order of an
AMEND's body is the model's reading (log entry 8), as is that the start limit is compared after its clamp (log entry
25) and that only a lowered lost time takes heads to LOST (log entry 26). -/
def Obligations.AmendClampsTheTravelTime : Prop :=
  (∀ (client : Byte) (tag : Half) (n v : Nat) (z : Zone) (s : State),
    Reaches 1 client (number 1 1 ++ number 1 n ++ number 1 5 ++ number 2 v) s → n < 32 → v < 65536 →
    s.zone n = some z →
      ∃ t, exec (.amend client tag (number 1 1 ++ number 1 n ++ number 1 5 ++ number 2 v)) s = .next t ∧
        SameExcept (.zones :: portFields) s t ∧
        t.zone n = some { z with config := { z.config with travelTime := max 30 (min 900 v) } } ∧
        (∀ m, m ≠ n → t.zone m = s.zone m) ∧
        Answers tag (if 30 ≤ v ∧ v ≤ 900 then .done else .clamped) 0 (number 2 z.config.travelTime) t) ∧
    ∀ (client : Byte) (tag : Half) (v : Nat) (s : State),
      let takes := fun (cls field w lo hi prior : Nat) (put : Nat → State) =>
        let body := number 1 cls ++ number 1 field ++ number w v
        v < 256 ^ w → Reaches 1 client body s →
          ∃ t, exec (.amend client tag body) s = .next t ∧ SameExcept portFields (put (max lo (min hi v))) t ∧
            Answers tag (if lo ≤ v ∧ v ≤ hi then .done else .clamped) 0 (number w prior) t
      let refused := fun (level : Nat) (body : List Byte) (result : Result) => Reaches level client body s →
        ∃ t, exec (.amend client tag body) s = .next t ∧ SameExcept portFields s t ∧ Answers tag result 0 [] t
      let c := s.airSettings
      let p := s.passageSettings
      let f := s.fanSettings
      let air := fun (field w lo hi prior : Nat) (set : Nat → AirSettings) =>
        let n := set (max lo (min hi v))
        let ordered := n.watchCO < n.actCO ∧ n.actCO < n.barCO ∧ n.watchNO < n.actNO ∧ n.actNO < n.barNO
        (ordered → takes 0x0A field w lo hi prior fun x => s.setAirSettings (set x)) ∧
          (¬ordered → v < 256 ^ w → refused 1 (number 1 0x0A ++ number 1 field ++ number w v) .combination)
      takes 0x03 1 1 2 60 s.settleTime s.setSettleTime ∧
      (max 200 (min 1500 v) ≤ p.vanLimit →
        takes 0x07 1 2 200 1500 p.carLimit fun x => s.setPassageSettings { p with carLimit := x }) ∧
      (p.vanLimit < max 200 (min 1500 v) → v < 65536 → refused 1 (number 1 7 ++ number 1 1 ++ number 2 v) .combination) ∧
      (p.carLimit ≤ max 200 (min 3000 v) →
        takes 0x07 2 2 200 3000 p.vanLimit fun x => s.setPassageSettings { p with vanLimit := x }) ∧
      (max 200 (min 3000 v) < p.carLimit → v < 65536 → refused 1 (number 1 7 ++ number 1 2 ++ number 2 v) .combination) ∧
      air 1 2 5 500 c.watchCO (fun x => { c with watchCO := x }) ∧
      air 2 2 5 500 c.actCO (fun x => { c with actCO := x }) ∧
      air 3 2 5 500 c.barCO (fun x => { c with barCO := x }) ∧
      air 4 2 100 10000 c.watchNO (fun x => { c with watchNO := x }) ∧
      air 5 2 100 10000 c.actNO (fun x => { c with actNO := x }) ∧
      air 6 2 100 10000 c.barNO (fun x => { c with barNO := x }) ∧
      air 7 1 0 16 c.coldCredit (fun x => { c with coldCredit := x }) ∧
      air 8 1 0 8 c.passCredit (fun x => { c with passCredit := x }) ∧
      air 9 2 30 600 c.staleHold (fun x => { c with staleHold := x }) ∧
      (startingCount s ≤ max 1 (min 4 v) →
        takes 0x0C 1 1 1 4 f.startLimit fun x => gate (s.setFanSettings { f with startLimit := x })) ∧
      (max 1 (min 4 v) < startingCount s → v < 256 →
        refused 1 (number 1 0x0C ++ number 1 1 ++ number 1 v) .notNow) ∧
      (takes 0x0C 2 1 2 30 f.startTime fun x => s.setFanSettings { f with startTime := x }) ∧
      (takes 0x0C 3 1 5 120 f.minOffTime fun x => s.setFanSettings { f with minOffTime := x }) ∧
      (let body := number 1 0x0E ++ number 1 1 ++ number 1 v
       v < 256 → Reaches 1 client body s →
          ∃ t, exec (.amend client tag body) s = .next t ∧ SameExcept (portFields ++ [.faultThreshold, .sources]) s t ∧
            t.faultThreshold = max 1 (min 32 v) ∧
            Answers tag (if 1 ≤ v ∧ v ≤ 32 then .done else .clamped) 0 (number 1 s.faultThreshold) t ∧
            t.source 9 = (s.lamps.filter fun q => q.2.failed < s.faultThreshold ∧ max 1 (min 32 v) ≤ q.2.failed).foldl
              (fun r q => r.raise s.partTime (maskOf [q.2.zone]) (number 1 q.1 ++ number 1 q.2.failed)) (s.source 9) ∧
            ∀ m, m ≠ 9 → t.source m = s.source m) ∧
      (takes 0x11 1 2 10 600 s.quiet.keepalive fun x => s.setQuiet { s.quiet with keepalive := x }) ∧
      (takes 0x11 2 2 5 120 s.quiet.warmTime fun x => s.setQuiet { s.quiet with warmTime := x }) ∧
      (takes 0x13 1 1 5 120 s.lostTime fun x =>
        if x < s.lostTime then
          s.heads.keys.foldl (fun t k => match exec (.lostTimeReached (k / 32) (k % 32)) t with
            | .next u => u
            | _ => t) (s.setLostTime x)
        else s.setLostTime x) ∧
      (∀ (word : Half) (flag : Bool),
        let body := number 1 0x09 ++ number 1 v ++ number 1 1 ++ halfBytes word ++ flagByte flag
        (32 ≤ v → v < 256 → refused 1 body .range) ∧
        (v < 32 → Reaches 1 client body s →
          ∃ t, exec (.amend client tag body) s = .next t ∧ SameExcept (.patterns :: portFields) s t ∧
            Answers tag .done 0 (halfBytes (s.pattern v).word ++ flagByte (s.pattern v).showCount) t ∧
            t.pattern v = { word := word, showCount := flag } ∧ ∀ m, m ≠ v → t.pattern m = s.pattern m)) ∧
      ∀ (level : Nat) (flag : Bool), level < 256 →
        let y := s.source v
        let set := fun (body : List Byte) (y' : Source) => Reaches 0 client body s →
          ∃ t, exec (.amend client tag body) s = .next t ∧ SameExcept (.sources :: portFields) s t ∧
            Answers tag .done 0 (number 1 y.level ++ flagByte y.enabled) t ∧
            t.source v = y' ∧ ∀ m, m ≠ v → t.source m = s.source m
        let first := number 1 0x15 ++ number 1 v ++ number 1 1 ++ number 1 level
        let second := number 1 0x15 ++ number 1 v ++ number 1 2 ++ flagByte flag
        (16 ≤ v → v < 256 → refused 0 first .range ∧ refused 0 second .range) ∧
        (v < 16 → (3 < level → refused 0 first .range) ∧ (level ≤ 3 → set first { y with level := level }) ∧
          (y.level ≤ 3 → set second { y with enabled := flag }))

/-- LOOK of a zone in the COUNTS view returns its counts, offered counts, states and demand step, and changes nothing
(R9, R17, R183). -/
def Obligations.LookReportsTheCounts : Prop :=
  ∀ (client : Byte) (tag : Half) (n : Nat) (s : State), Reaches 3 client (number 1 1 ++ number 1 n ++ number 1 1) s →
    n < 256 →
    (32 ≤ n → ∃ t, exec (.look client tag (number 1 1 ++ number 1 n ++ number 1 1)) s = .next t ∧
      SameExcept portFields s t ∧ Answers tag .range 0 [] t) ∧
    (n < 32 → s.zone n = none → ∃ t, exec (.look client tag (number 1 1 ++ number 1 n ++ number 1 1)) s = .next t ∧
      SameExcept portFields s t ∧ Answers tag .noRecord 0 [] t) ∧
    ∀ z, n < 32 → s.zone n = some z →
      ∃ t, exec (.look client tag (number 1 1 ++ number 1 n ++ number 1 1)) s = .next t ∧ SameExcept portFields s t ∧
        Answers tag .done 0
          (([BayKind.standard, .wide, .charge].flatMap fun k =>
              number 1 (z.counts.of k).free ++ number 1 (z.counts.of k).occupied ++ number 1 (z.counts.of k).held ++
                number 1 (z.counts.of k).unavailable) ++
            ([BayKind.standard, .wide, .charge].flatMap fun k => number 1 (z.counts.of k).inTransit) ++
            ([BayKind.standard, .wide, .charge].flatMap fun k =>
              number 1 ((z.counts.of k).free - (z.counts.of k).inTransit)) ++
            number 1 z.guidance.code ++ number 1 z.fire.code ++ number 1 z.air.state.code ++ number 1 z.demand) t

/-- Every step keeps every zone's stored guidance state at the one its four inputs give (R10, R11). -/
def Obligations.GuidanceStaysSettled : Prop :=
  ∀ s t : State, GuidanceSettled s → step s = .next t → GuidanceSettled t

/-- Every step keeps every zone's category counts at the numbers of its bay records (R2, R7, R24). -/
def Obligations.CountsStayMatched : Prop :=
  ∀ s t : State, CountsMatch s → step s = .next t → CountsMatch t

/-- CLAIM, specific or of any bay of a kind: a new hold, a renewal, the pending mark, and each refusal (R5, R24, R36,
R37, R38, R39, R63). -/
def Obligations.ClaimMakesAHold : Prop :=
  ∀ (client : Byte) (tag h : Half) (d : Option Nat) (z : Nat) (r : Zone) (s : State), (∀ v, d = some v → v < 65536) →
    let level := s.clientLevel client.toNat
    let given := d.getD 900
    let x : Hold := { client := client.toNat, tag := h, expiry := s.partTime + max 60 (min 7200 given) }
    let result : Result := if 60 ≤ given ∧ given ≤ 7200 then .done else .clamped
    let named := fun (form second : Nat) =>
      number 1 form ++ number 1 z ++ number 1 second ++ halfBytes h ++ optBytes (number 2) d
    let answers := fun (body : List Byte) (fs : List Field) (res : Result) (answer : List Byte) (p : State → Prop) =>
      ∃ t, exec (.claim client tag body) s = .next t ∧ SameExcept (portFields ++ fs) s t ∧ Answers tag res 0 answer t ∧ p t
    let refused := fun (body : List Byte) (res : Result) => answers body [] res [] fun _ => True
    let notTaken := fun (body : List Byte) (prior : Category) (mark : Byte) =>
      answers body [] result (number 1 prior.code ++ [0x00, mark, 0x00, 0x00]) fun _ => True
    let made := fun (body : List Byte) (i g : Nat) (b : Bay) =>
      answers body [.bays, .zones, .holdCount] result
        ([0x00, 0x01, 0x00, 0x01] ++ number 1 i ++ [0x01] ++ number 4 x.expiry) fun t =>
          t.bays.find g = some { b with hold := some x } ∧ OnlyBay g s t ∧ t.holdCount = s.holdCount + 1 ∧
            t.zone z = some
              { r with counts := r.counts.upd b.kind fun c => { c with free := c.free - 1, held := c.held + 1 } } ∧
            OnlyZone z s t
    (∀ i g b, Names s z i g r b →
      let body := named 0 i
      Reaches 2 client body s →
      (s.device = .unconfigured → refused body .notNow) ∧
      (s.device ≠ .unconfigured → b.locked = true → level ≠ 0 → refused body .locked) ∧
      (s.device ≠ .unconfigured → (b.locked = false ∨ level = 0) →
        (b.category = .free → b.occupancy = .vacant → s.holdCount < 256 → made body i g b) ∧
        (b.category = .free → b.occupancy = .vacant → 256 ≤ s.holdCount → refused body .full) ∧
        (b.category = .free → b.occupancy = .arriving → notTaken body .free 0x01) ∧
        (b.category = .occupied ∨ b.category = .unavailable → notTaken body b.category 0x00) ∧
        ∀ y, b.category = .held → b.hold = some y →
          (y.client ≠ client.toNat ∨ y.tag ≠ h → notTaken body .held 0x00) ∧
          (y.client = client.toNat → y.tag = h →
            answers body [.bays, .steers] result
              ([0x02, 0x01, 0x00, 0x01] ++ number 1 i ++ [0x01] ++ number 4 x.expiry) fun t =>
                t.bays.find g = some { b with hold := some x } ∧ OnlyBay g s t ∧
                  ((∀ q ∈ s.steers, q.2.holdBay ≠ some (z, i)) → t.steers = s.steers) ∧
                  ∀ id w, s.steers.wf = true → (id, w) ∈ s.steers → w.holdBay = some (z, i) →
                    (∀ q ∈ s.steers, q.2.holdBay = some (z, i) → q.1 = id) →
                    t.steers.find id = some { w with deadline := x.expiry } ∧
                      ∀ m, m ≠ id → t.steers.find m = s.steers.find m))) ∧
    ∀ k : BayKind, z < 32 → s.zone z = some r →
      let body := named 1 k.code
      let bay := fun (i : Nat) => s.bays.find (r.config.bayBase + i)
      Reaches 2 client body s →
      (s.device = .unconfigured → refused body .notNow) ∧
      (s.device ≠ .unconfigured →
        (∀ i g b, Names s z i g r b → b.Takes k level → (∀ j c, j < i → bay j = some c → ¬c.Takes k level) →
          (s.holdCount < 256 → made body i g b) ∧ (256 ≤ s.holdCount → refused body .full)) ∧
        ((∀ j c, j < r.config.bayCount → bay j = some c → ¬c.Takes k level) →
          let passed := ∃ j c, j < r.config.bayCount ∧ bay j = some c ∧ c.kind = k ∧ c.category = .free ∧
            c.occupancy = .arriving ∧ (c.locked = false ∨ level = 0)
          (passed → notTaken body .free 0x01) ∧ (¬passed → notTaken body .free 0x00)))

/-- RELEASE by the holder, or by another client of level 0 or 1, ends a hold, and the steer of the hold with it, or is
refused (R24, R41, R43, R63). -/
def Obligations.ReleaseEndsAHold : Prop :=
  ∀ (client : Byte) (tag h : Half) (z i g : Nat) (r : Zone) (b : Bay) (s : State),
    Reaches 2 client (number 1 z ++ number 1 i ++ halfBytes h) s → Names s z i g r b →
    (b.hold = none →
      ∃ t, exec (.release client tag (number 1 z ++ number 1 i ++ halfBytes h)) s = .next t ∧ SameExcept portFields s t ∧
        Answers tag .notNow 0 [] t) ∧
    ∀ x, b.hold = some x →
      (x.client = client.toNat → x.tag ≠ h →
        ∃ t, exec (.release client tag (number 1 z ++ number 1 i ++ halfBytes h)) s = .next t ∧ SameExcept portFields s t ∧
          Answers tag .combination 0 [] t) ∧
      (x.client ≠ client.toNat → s.clientLevel client.toNat = 2 →
        ∃ t, exec (.release client tag (number 1 z ++ number 1 i ++ halfBytes h)) s = .next t ∧ SameExcept portFields s t ∧
          Answers tag .authority 0 [] t) ∧
      ((x.client = client.toNat ∧ x.tag = h ∨ x.client ≠ client.toNat ∧ s.clientLevel client.toNat ≤ 1) →
        b.category = .held →
        ∃ t, exec (.release client tag (number 1 z ++ number 1 i ++ halfBytes h)) s = .next t ∧
          SameExcept (portFields ++ steerFields) s t ∧ HoldEnded z i g 2 r b { b with hold := none } s t ∧
          ((b.occupancy = .vacant ∨ b.occupancy = .arriving) → t.zone z =
            some { r with counts := r.counts.upd b.kind fun c => { c with free := c.free + 1, held := c.held - 1 } }) ∧
          Answers tag .done 0 (number 1 x.client ++ halfBytes x.tag ++ number 4 x.expiry) t)

/-- A hold ends EXPIRED at its until, with its steer, and before it stands; the bays of a head that goes take
UNSENSED, their holds ending LOST (R24, R27, R31, R40, R42, R43, R63, R172). That an OUT_OF_SERVICE bay takes UNSENSED
too is the model's reading of R31 over R27 (log entry 14). That an event sent late still has its effect, and one sent
early or out of place changes nothing, is the model's choice (log entry 2). -/
def Obligations.AHoldExpiresAtItsUntil : Prop :=
  (∀ (z i g : Nat) (r : Zone) (b : Bay) (x : Hold) (s : State), Names s z i g r b → b.hold = some x →
    (s.partTime < x.expiry → exec (.holdExpiry g) s = .next s) ∧
    (x.expiry ≤ s.partTime → b.category = .held → (b.occupancy = .vacant ∨ b.occupancy = .arriving) →
      ∃ t, exec (.holdExpiry g) s = .next t ∧ SameExcept steerFields s t ∧
        t.bays.find g = some { b with hold := none } ∧ OnlyBay g s t ∧ t.holdCount = s.holdCount - 1 ∧
        t.zone z =
          some { r with counts := r.counts.upd b.kind fun c => { c with free := c.free + 1, held := c.held - 1 } } ∧
        OnlyZone z s t ∧
        t.source 13 = (s.source 13).raise s.partTime (maskOf [z]) (number 1 z ++ number 1 i ++ [0x01]) ∧
        (∀ n, n ≠ 13 → t.source n = s.source n) ∧
        ((∀ q ∈ s.steers, q.2.holdBay ≠ some (z, i)) → t.steers = s.steers ∧ t.passages = s.passages) ∧
        ∀ id y, s.steers.wf = true → (id, y) ∈ s.steers → y.holdBay = some (z, i) →
          (∀ q ∈ s.steers, q.2.holdBay = some (z, i) → q.1 = id) →
          t.steers.find id = none ∧ (∀ n, n ≠ id → t.steers.find n = s.steers.find n) ∧
            ∀ n, t.passages.find n = (s.passages.find n).map fun p =>
              if n = y.origin then { p with counters := { p.counters with cancelled := p.counters.cancelled + 1 } } else p)) ∧
    (∀ (i a : Nat) (s : State), s.bays.wf = true →
      ∃ l : List (Nat × Bay),
        headGone i a s = fanUnreached i a (l.foldl (fun t p => changeBayEnding p.1 .lost Bay.unsensed t) s) ∧
        l.Pairwise (fun p q => p.1 < q.1) ∧
        ∀ p, p ∈ l ↔ p ∈ s.bays ∧ ∃ x, p.2.binding = some x ∧ x.segment = i ∧ x.address = a) ∧
    (∀ (z i g : Nat) (r : Zone) (b : Bay) (s : State), Names s z i g r b →
      let b' := { b with sense := .unsensed, occupancy := b.occupancy.confirmed, pendingSince := none, hold := none }
      let t := changeBayEnding g .lost Bay.unsensed s
      (b.hold = none → SameExcept [.bays, .zones] s t ∧ t.bays.find g = some b' ∧ OnlyBay g s t ∧ OnlyZone z s t ∧
        t.zone z = some (if b.category = .unavailable then r else
          { r with counts := r.counts.upd b.kind fun c => (c.upd b.category (· - 1)).upd .unavailable (· + 1) })) ∧
      (b.category = .held → SameExcept steerFields s t ∧ HoldEnded z i g 3 r b b' s t))

/-- RETIRE of an IN_SERVICE bay takes it out of service, and ends its hold LOST; of one out of service it changes
nothing (R23, R24, R42, R43, R44, R63). -/
def Obligations.RetireTakesABayOut : Prop :=
  ∀ (client : Byte) (tag : Half) (z i g : Nat) (r : Zone) (b : Bay) (s : State),
    Reaches 1 client (number 1 z ++ number 1 i) s → Names s z i g r b →
    (b.locked = true → s.clientLevel client.toNat ≠ 0 →
      ∃ t, exec (.retire client tag (number 1 z ++ number 1 i)) s = .next t ∧ SameExcept portFields s t ∧
        Answers tag .locked 0 [] t) ∧
    ((b.locked = false ∨ s.clientLevel client.toNat = 0) → b.service = .outOfService →
      ∃ t, exec (.retire client tag (number 1 z ++ number 1 i)) s = .next t ∧ SameExcept portFields s t ∧
        Answers tag .done 0 [0x01] t) ∧
    ((b.locked = false ∨ s.clientLevel client.toNat = 0) → b.service = .inService → b.hold = none →
      ∃ t, exec (.retire client tag (number 1 z ++ number 1 i)) s = .next t ∧
        SameExcept (portFields ++ [.bays, .zones]) s t ∧
        t.bays.find g = some { b with service := .outOfService, occupancy := b.occupancy.confirmed, pendingSince := none,
                                      lastChange := s.partTime } ∧
        OnlyBay g s t ∧ OnlyZone z s t ∧
        t.zone z = some (if b.category = .unavailable then r else
          { r with counts := r.counts.upd b.kind fun c =>
              (c.upd b.category (· - 1)).upd .unavailable (· + 1) }) ∧
        Answers tag .done 0 [0x00] t) ∧
    ((b.locked = false ∨ s.clientLevel client.toNat = 0) → b.category = .held →
      ∃ t, exec (.retire client tag (number 1 z ++ number 1 i)) s = .next t ∧ SameExcept (portFields ++ steerFields) s t ∧
        HoldEnded z i g 3 r b
          { b with service := .outOfService, occupancy := b.occupancy.confirmed, pendingSince := none,
                   lastChange := s.partTime, hold := none } s t ∧
        Answers tag .done 0 [0x00] t)

/-- COMMISSION of an OUT_OF_SERVICE bay puts it in service and resyncs it from its head's last report (R24, R32, R45).
-/
def Obligations.CommissionResyncsABay : Prop :=
  ∀ (client : Byte) (tag : Half) (z i g : Nat) (r : Zone) (b : Bay) (s : State),
    Reaches 1 client (number 1 z ++ number 1 i) s → Names s z i g r b → b.service = .outOfService →
    (b.locked = false ∨ s.clientLevel client.toNat = 0) →
      ∃ t b', exec (.commission client tag (number 1 z ++ number 1 i)) s = .next t ∧
        SameExcept (portFields ++ [.bays, .zones]) s t ∧ t.bays.find g = some b' ∧ OnlyBay g s t ∧ OnlyZone z s t ∧
        (∃ c, t.zone z = some { r with counts := c }) ∧ Answers tag .done 0 [0x01] t ∧
        b' = { b with service := .inService, pendingSince := none, lastChange := s.partTime, sense := b'.sense,
                      occupancy := b'.occupancy } ∧
        (b.binding = none → b'.sense = .sensed ∧ b'.occupancy = b.occupancy) ∧
        ∀ x h, b.binding = some x → s.head x.segment x.address = some h → h.kind = .bay →
          (∀ y, (h.state = .live ∨ h.state = .silent) → h.report = some y →
            (y.payload[x.sensor]? = some 0x00 → b'.sense = .sensed ∧ b'.occupancy = .vacant) ∧
            (y.payload[x.sensor]? = some 0x01 → b'.sense = .sensed ∧ b'.occupancy = .present) ∧
            (y.payload[x.sensor]? ≠ some 0x00 → y.payload[x.sensor]? ≠ some 0x01 →
              b'.sense = .fault ∧ b'.occupancy = b.occupancy)) ∧
          (h.state = .listed ∨ h.state = .lost ∨ h.state = .mismatch ∨ h.report = none →
            b'.sense = .unsensed ∧ b'.occupancy = b.occupancy)

/-- What a bay head's report does to its bays; what an arrival and a departure do to counts, holds, steers, air and
lamps (R24, R27, R28, R29, R30, R32, R34, R35, R62, R63, R91, R122). -/
def Obligations.ASensorChangeWaitsToSettle : Prop :=
  (∀ (i a : Nat) (payload : List Byte) (s : State), s.bays.wf = true →
      ∃ l : List (Nat × Bay), bayReport i a payload s = l.foldl (takeRaw payload) s ∧ l.Pairwise (fun p q => p.1 < q.1) ∧
        ∀ p, p ∈ l ↔ p ∈ s.bays ∧ ∃ x, p.2.binding = some x ∧ x.segment = i ∧ x.address = a) ∧
    ∀ (z i g : Nat) (r : Zone) (b : Bay) (s : State), Names s z i g r b →
    (∀ x payload, b.binding = some x →
      (b.service = .outOfService → takeRaw payload s (g, b) = s) ∧
      (b.service = .inService → takeRaw payload s (g, b) = applyRaw g (match payload[x.sensor]? with
        | some 0x00 => .vacant
        | some 0x01 => .present
        | _ => .fault) s)) ∧
    (∀ raw, OnlyBay g s (applyRaw g raw s)) ∧
    (b.sense = .sensed →
      (b.occupancy = .vacant → (applyRaw g .vacant s).bays.find g = some b ∧
        (applyRaw g .present s).bays.find g = some { b with occupancy := .arriving, pendingSince := some s.partTime }) ∧
      (b.occupancy = .present → (applyRaw g .present s).bays.find g = some b ∧
        (applyRaw g .vacant s).bays.find g = some { b with occupancy := .departing, pendingSince := some s.partTime }) ∧
      (∀ p, b.occupancy = .arriving → b.pendingSince = some p →
        (applyRaw g .vacant s).bays.find g = some { b with occupancy := .vacant, pendingSince := none } ∧
        (applyRaw g .present s).bays.find g =
          some (if p + s.settleTime ≤ s.partTime then
            { b with occupancy := .present, pendingSince := none, lastChange := s.partTime, hold := none } else b)) ∧
      (∀ p, b.occupancy = .departing → b.pendingSince = some p →
        (applyRaw g .present s).bays.find g = some { b with occupancy := .present, pendingSince := none } ∧
        (applyRaw g .vacant s).bays.find g =
          some (if p + s.settleTime ≤ s.partTime then
            { b with occupancy := .vacant, pendingSince := none, lastChange := s.partTime } else b)) ∧
      (applyRaw g .fault s).bays.find g =
        some { b with sense := .fault, occupancy := b.occupancy.confirmed, pendingSince := none, hold := none }) ∧
    (b.sense ≠ .sensed →
      (applyRaw g .vacant s).bays.find g =
        some { b with sense := .sensed, occupancy := .vacant, pendingSince := none, lastChange := s.partTime } ∧
      (applyRaw g .present s).bays.find g =
        some { b with sense := .sensed, occupancy := .present, pendingSince := none, lastChange := s.partTime }) ∧
    ∀ p, b.service = .inService → b.sense = .sensed → b.pendingSince = some p → p + s.settleTime ≤ s.partTime →
      (b.occupancy = .arriving →
        let t := applyRaw g .present s
        Brightened [z] s t ∧ OnlyZone z s t ∧
        (∀ x, b.hold = some x →
          SameExcept [.bays, .zones, .holdCount, .steers, .passages, .lamps] s t ∧ t.holdCount = s.holdCount - 1 ∧
          t.zone z = some (r.takenHeld b.kind) ∧
          ((∀ q ∈ s.steers, q.2.holdBay ≠ some (z, i)) → t.steers = s.steers ∧ t.passages = s.passages) ∧
          ∀ id y, s.steers.wf = true → (id, y) ∈ s.steers → y.holdBay = some (z, i) →
            (∀ q ∈ s.steers, q.2.holdBay = some (z, i) → q.1 = id) →
            Retired id y (fun c => { c with settled := c.settled + 1 }) s t) ∧
        (b.hold = none →
          let heading := fun (y : Steer) => y.target = z ∧ y.kind = b.kind
          SameExcept [.bays, .zones, .steers, .passages, .lamps] s t ∧
          ((∀ q ∈ s.steers, q.2.holdBay = none → ¬heading q.2) →
            t.steers = s.steers ∧ t.passages = s.passages ∧ t.zone z = some (r.takenFree b.kind)) ∧
          ∀ id y, OldestPlain heading s id y →
            Retired id y (fun c => { c with settled := c.settled + 1 }) s t ∧
              t.zone z = some ((r.takenFree b.kind).lessInTransit b.kind))) ∧
      (b.occupancy = .departing → b.hold = none →
        let t := applyRaw g .vacant s
        SameExcept [.bays, .zones, .lamps] s t ∧ Brightened [z] s t ∧ OnlyZone z s t ∧
          t.zone z = some ((r.vacated b.kind).credited (s.airSettings.coldCredit * 256)))

/-- Direction, length and class of a passage report (R53). -/
def Obligations.VehicleLengthAndClass : Prop :=
  ∀ (spacing loopLength occupancy : Nat) (gap : Int) (c : PassageSettings), c.carLimit ≤ c.vanLimit →
    (0 ≤ gap → passageDirection gap = .forward) ∧ (gap < 0 → passageDirection gap = .reverse) ∧
    (gap = 0 ∨ occupancy = 0 → vehicleLength spacing loopLength gap occupancy = none) ∧
    (gap ≠ 0 → occupancy ≠ 0 → ∃ l, vehicleLength spacing loopLength gap occupancy = some l ∧
      (l : Int) = max 0 (min 3000 ((spacing * occupancy : Int) / |gap| - loopLength))) ∧
    vehicleClass c none = .unknown ∧
    ∀ l, (l < c.carLimit → vehicleClass c (some l) = .car) ∧
      (c.carLimit ≤ l → l ≤ c.vanLimit → vehicleClass c (some l) = .van) ∧
      (c.vanLimit < l → vehicleClass c (some l) = .long)

/-- Zone choice takes the first zone that qualifies; the redirect pass re-chooses the steers of the closing set,
oldest first (R1, R9, R43, R56, R57, R66, R67, R122). -/
def Obligations.ZoneChoiceTakesTheFirstZoneThatQualifies : Prop :=
  (∀ (s : State) (l excluded : List Nat) (k : BayKind) (long : Bool),
      (∀ z, zoneChoice s l k long excluded = some z ↔
        ∃ l₁ l₂, l = l₁ ++ z :: l₂ ∧ Qualifies s k long excluded z ∧ ∀ y ∈ l₁, ¬Qualifies s k long excluded y) ∧
      (zoneChoice s l k long excluded = none ↔ ∀ z ∈ l, ¬Qualifies s k long excluded z)) ∧
    (∀ (closing : List Nat) (s : State), s.steers.wf = true →
      ∃ ids : List Nat, redirectPass closing s = ids.foldl (redirectOne closing) s ∧
        (∀ id, id ∈ ids ↔ ∃ x, s.steers.find id = some x ∧ x.target ∈ closing) ∧
        ids.Pairwise fun m n => ∃ x y, s.steers.find m = some x ∧ s.steers.find n = some y ∧
          (x.issued < y.issued ∨ (x.issued = y.issued ∧ m < n))) ∧
    ∀ (closing : List Nat) (id : Nat) (x : Steer) (s : State), s.steers.find id = some x →
      let t := redirectOne closing s id
      (∀ z i g r b, x.holdBay = some (z, i) → Names s z i g r b → b.category = .held →
        (b.occupancy = .vacant ∨ b.occupancy = .arriving) →
        ∃ u, t = redirectOne closing u id ∧ SameExcept [.bays, .zones, .holdCount, .steers, .sources] s u ∧
          u.bays.find g = some { b with hold := none } ∧ OnlyBay g s u ∧ u.holdCount = s.holdCount - 1 ∧
          u.steers.find id = some { x with holdBay := none } ∧ (∀ m, m ≠ id → u.steers.find m = s.steers.find m) ∧
          ZonesChanged (fun n y =>
            let y := if n = z then y.unheld b.kind else y
            if n = x.target then y.moreInTransit x.kind else y) s u ∧
          u.source 13 = (s.source 13).raise s.partTime (maskOf [z]) (number 1 z ++ number 1 i ++ [0x02]) ∧
          ∀ n, n ≠ 13 → u.source n = s.source n) ∧
      (x.holdBay = none → x.target ∈ closing →
        (∀ p z y, s.passages.find x.origin = some p → zoneChoice s p.config.preference x.kind x.long closing = some z →
          s.zone z = some y →
          z ∉ closing ∧ SameExcept [.steers, .zones, .lamps] s t ∧
            t.steers.find id = some { x with
              state := .redirected, firstTarget := some (x.firstTarget.getD x.target), target := z,
              deadline := s.partTime + y.config.travelTime } ∧
            (∀ m, m ≠ id → t.steers.find m = s.steers.find m) ∧
            ZonesChanged (fun n y =>
              if n = x.target then y.lessInTransit x.kind else if n = z then y.moreInTransit x.kind else y) s t ∧
            Brightened [z] s t) ∧
        ((∀ p, s.passages.find x.origin = some p →
            zoneChoice s p.config.preference x.kind x.long closing = none) →
          SameExcept [.steers, .zones, .passages] s t ∧
            Retired id x (fun c => { c with cancelled := c.cancelled + 1 }) s t ∧
            ZonesChanged (fun n y => if n = x.target then y.lessInTransit x.kind else y) s t))

/-- STEER, with a hold or without, and a forward ENTRY passage issue a steer; a full table displaces the oldest plain
one (R8, R36, R39, R54, R55, R57, R58, R59, R60, R61, R91, R122). The held flag as one index that may be absent is the
model's reading (log entry 11). -/
def Obligations.SteerIssuesAPlainSteer : Prop :=
  (∀ s : State,
      (∀ id, id < 96 → s.steers.find id = none → (∀ m, m < id → s.steers.find m ≠ none) → takeSlot s = some (id, s)) ∧
      ((∀ m, m < 96 → s.steers.find m ≠ none) →
        (∀ id x, OldestPlain (fun _ => True) s id x → ∃ u, takeSlot s = some (id, u) ∧
          SameExcept [.steers, .zones, .passages] s u ∧
          Retired id x (fun c => { c with cancelled := c.cancelled + 1 }) s u ∧
          ZonesChanged (fun n y => if n = x.target then y.lessInTransit x.kind else y) s u) ∧
        ((∀ q ∈ s.steers, q.2.holdBay ≠ none) → takeSlot s = none))) ∧
    (∀ (client : Byte) (tag h : Half) (p z id : Nat) (k : BayKind) (long wish : Bool) (r : Passage) (y : Zone) (s u : State),
      let body := number 1 p ++ number 1 k.code ++ flagByte long ++ flagByte wish ++ halfBytes h
      let level := s.clientLevel client.toNat
      let expiry := s.partTime + max y.config.travelTime 300
      Reaches 2 client body s →
      (s.device = .running ∨ s.device = .quiet ∨ s.device = .warming) → p < 32 → s.passages.find p = some r →
      r.config.kind = .entry → r.kioskWait ≤ 4 → zoneChoice s r.config.preference k long [] = some z → s.zone z = some y →
      takeSlot s = some (id, u) →
        let issued := fun (deadline : Nat) (holdBay : Option (Nat × Nat)) (t : State) =>
          t.steers.find id =
            some { state := .inTransit, origin := p, kind := k, long := long, vclass := .unknown, target := z,
                   firstTarget := none, issued := s.partTime, deadline := deadline, holdBay := holdBay } ∧
          (∀ m, m ≠ id → t.steers.find m = u.steers.find m) ∧
          (∀ n, t.passages.find n = (u.passages.find n).map fun q =>
            if n = p then { q with counters := { q.counters with guided := q.counters.guided + 1 }
                                   kioskWait := min 4 (r.kioskWait + 1)
                                   waitUntil := some (s.partTime + r.config.kioskWindow) } else q) ∧
          Brightened [z] s t
        (wish = false ∨ 256 ≤ s.holdCount ∨
            (∀ i c, i < y.config.bayCount → s.bays.find (y.config.bayBase + i) = some c → ¬c.Takes k level) →
          ∃ t, exec (.steer client tag body) s = .next t ∧
            SameExcept (portFields ++ [.steers, .zones, .passages, .lamps]) s t ∧
            issued (s.partTime + y.config.travelTime) none t ∧
            ZonesChanged (fun n y => if n = z then y.moreInTransit k else y) u t ∧
            Answers tag .done 0
              (number 1 id ++ number 1 z ++ [0x00] ++ number 4 (s.partTime + y.config.travelTime) ++ flagByte wish) t) ∧
        ∀ i g b, wish = true → s.holdCount < 256 → Names s z i g y b → b.Takes k level →
          (∀ j c, j < i → s.bays.find (y.config.bayBase + j) = some c → ¬c.Takes k level) →
          ∃ t, exec (.steer client tag body) s = .next t ∧
            SameExcept (portFields ++ [.bays, .holdCount, .steers, .zones, .passages, .lamps]) s t ∧
            issued expiry (some (z, i)) t ∧
            t.bays.find g = some { b with hold := some { client := client.toNat, tag := h, expiry := expiry } } ∧
            OnlyBay g s t ∧ t.holdCount = s.holdCount + 1 ∧
            ZonesChanged (fun n y =>
              if n = z then
                { y with counts := y.counts.upd k fun c => { c with free := c.free - 1, held := c.held + 1 } }
              else y) u t ∧
            Answers tag .done 0
              (number 1 id ++ number 1 z ++ ([0x01] ++ number 1 i) ++ number 4 expiry ++ [0x00]) t) ∧
    ∀ (p z id : Nat) (gap : Int) (occupancy : Nat) (r : Passage) (y : Zone) (s u : State),
      s.passages.find p = some r → r.config.kind = .entry → 0 ≤ gap → r.kioskWait = 0 →
      (s.device = .running ∨ s.device = .warming ∨ (s.device = .quiet ∧ r.config.wakeFlag = false)) →
      let c := r.classOf s gap occupancy
      zoneChoice s r.config.preference .standard (c = .long) [] = some z → s.zone z = some y →
      takeSlot s = some (id, u) →
        let t := takePassage p gap occupancy s
        SameExcept [.steers, .zones, .passages, .lamps, .signs] s t ∧
          t.steers.find id =
            some { state := .inTransit, origin := p, kind := .standard, long := c = .long, vclass := c, target := z,
                   firstTarget := none, issued := s.partTime, deadline := s.partTime + y.config.travelTime,
                   holdBay := none } ∧
          (∀ m, m ≠ id → t.steers.find m = u.steers.find m) ∧
          ZonesChanged (fun n y =>
            let y := y.passCredited s r.config.toZone c n
            if n = z then y.moreInTransit .standard else y) u t ∧
          (∀ n, t.passages.find n = (u.passages.find n).map fun q =>
            if n = p then
              let q := q.passed s gap occupancy
              { q with counters := { q.counters with guided := q.counters.guided + 1 } }
            else q) ∧
          Brightened (optList r.config.toZone ++ [z]) s t ∧
          ∀ n, t.signs.find n = (s.signs.find n).map fun g =>
            if r.config.entrySign = some n then
              match g.config.direction z with
              | none => g
              | some d => { g with shown := some { situation := d, zone := some z, expiry := s.partTime + g.config.showTime } }
            else g

/-- STEER and a forward ENTRY passage with no zone or no slot are counted full; a kiosk wait is used up; STARTING
guides none (R54, R55, R58, R59, R60, R61, R73, R74, R91, R122). -/
def Obligations.SteerWithNoZoneIsFull : Prop :=
  (∀ (client : Byte) (tag h : Half) (p : Nat) (k : BayKind) (long wish : Bool) (s : State),
      let body := number 1 p ++ number 1 k.code ++ flagByte long ++ flagByte wish ++ halfBytes h
      Reaches 2 client body s →
      (s.device = .unconfigured ∨ s.device = .starting →
        ∃ t, exec (.steer client tag body) s = .next t ∧ SameExcept portFields s t ∧ Answers tag .notNow 0 [] t) ∧
      ∀ r, (s.device = .running ∨ s.device = .quiet ∨ s.device = .warming) → p < 32 → s.passages.find p = some r →
        r.config.kind = .entry → ((∀ z ∈ r.config.preference, ¬Qualifies s k long [] z) ∨ takeSlot s = none) →
        ∃ t, exec (.steer client tag body) s = .next t ∧ SameExcept (portFields ++ [.passages, .sources]) s t ∧
          t.passages.find p = some { r with counters := { r.counters with full := r.counters.full + 1 } } ∧
          (∀ m, m ≠ p → t.passages.find m = s.passages.find m) ∧
          t.source 11 = (s.source 11).raise s.partTime (maskOf r.config.preference) (number 1 p) ∧
          (∀ n, n ≠ 11 → t.source n = s.source n) ∧ Answers tag .full 0 [] t) ∧
    ∀ (p : Nat) (gap : Int) (occupancy : Nat) (r : Passage) (s : State), s.passages.find p = some r →
      r.config.kind = .entry → 0 ≤ gap → (s.device ≠ .quiet ∨ r.config.wakeFlag = false) →
      let c := r.classOf s gap occupancy
      let r' := r.passed s gap occupancy
      let t := takePassage p gap occupancy s
      let guiding := s.device = .running ∨ s.device = .quiet ∨ s.device = .warming
      let full := guiding ∧ r.kioskWait = 0 ∧
        ((∀ z ∈ r.config.preference, ¬Qualifies s .standard (c = .long) [] z) ∨ takeSlot s = none)
      (¬guiding ∨ 0 < r.kioskWait ∨ full → ZonesChanged (Zone.passCredited s r.config.toZone c) s t ∧
        Brightened (optList r.config.toZone) s t ∧ ∀ m, m ≠ p → t.passages.find m = s.passages.find m) ∧
      (¬guiding → SameExcept [.passages, .zones, .lamps] s t ∧ t.passages.find p = some r') ∧
      (guiding → 0 < r.kioskWait → SameExcept [.passages, .zones, .lamps] s t ∧
        t.passages.find p = some { r' with kioskWait := r.kioskWait - 1
                                           waitUntil := if r.kioskWait = 1 then none else r.waitUntil }) ∧
      (full → SameExcept [.passages, .zones, .lamps, .signs, .sources] s t ∧
        t.passages.find p = some { r' with counters := { r'.counters with full := r'.counters.full + 1 } } ∧
        t.source 11 = (s.source 11).raise s.partTime (maskOf r.config.preference) (number 1 p) ∧
        (∀ n, n ≠ 11 → t.source n = s.source n) ∧
        ∀ n, t.signs.find n = (s.signs.find n).map fun g =>
          if r.config.entrySign = some n then
            { g with shown := some { situation := 1, zone := none, expiry := s.partTime + g.config.showTime } }
          else g)

/-- CANCEL_STEER retires a plain steer CANCELLED, releases the hold of a held one, and refuses an id that names none
(R8, R24, R43, R54, R57, R63, R65). -/
def Obligations.CancelSteerRetiresAPlainSteer : Prop :=
  ∀ (client : Byte) (tag : Half) (id : Nat) (s : State), Reaches 1 client (number 1 id) s → id < 256 →
    (96 ≤ id → ∃ t, exec (.cancelSteer client tag (number 1 id)) s = .next t ∧ SameExcept portFields s t ∧
      Answers tag .range 0 [] t) ∧
    (id < 96 → s.steers.find id = none → ∃ t, exec (.cancelSteer client tag (number 1 id)) s = .next t ∧
      SameExcept portFields s t ∧ Answers tag .noRecord 0 [] t) ∧
    (∀ x, id < 96 → s.steers.find id = some x → x.holdBay = none →
      ∃ t, exec (.cancelSteer client tag (number 1 id)) s = .next t ∧
        SameExcept (portFields ++ [.steers, .zones, .passages]) s t ∧ t.steers.find id = none ∧
        (∀ m, m ≠ id → t.steers.find m = s.steers.find m) ∧
        (∀ n, t.zone n = (s.zone n).map fun y =>
          if n = x.target then { y with counts := y.counts.upd x.kind fun c => { c with inTransit := c.inTransit - 1 } }
          else y) ∧
        (∀ n, t.passages.find n = (s.passages.find n).map fun r =>
          if n = x.origin then { r with counters := { r.counters with cancelled := r.counters.cancelled + 1 } } else r) ∧
        Answers tag .done 0
          (number 1 id ++ number 1 x.state.code ++ number 1 x.origin ++ number 1 x.kind.code ++ flagByte x.long ++
            number 1 x.vclass.code ++ number 1 x.target ++ optBytes (number 1) x.firstTarget ++ number 4 x.issued ++
            number 4 x.deadline ++ [0x00]) t) ∧
    ∀ x z i g r b, id < 96 → s.steers.wf = true → (id, x) ∈ s.steers → x.holdBay = some (z, i) →
      (∀ q ∈ s.steers, q.2.holdBay = some (z, i) → q.1 = id) → Names s z i g r b → b.category = .held →
      ∃ t, exec (.cancelSteer client tag (number 1 id)) s = .next t ∧ SameExcept (portFields ++ steerFields) s t ∧
        HoldEnded z i g 2 r b { b with hold := none } s t ∧
        Retired id x (fun c => { c with cancelled := c.cancelled + 1 }) s t ∧
        Answers tag .done 0
          (number 1 id ++ number 1 x.state.code ++ number 1 x.origin ++ number 1 x.kind.code ++ flagByte x.long ++
            number 1 x.vclass.code ++ number 1 x.target ++ optBytes (number 1) x.firstTarget ++ number 4 x.issued ++
            number 4 x.deadline ++ ([0x01] ++ number 1 z ++ number 1 i)) t

/-- A plain steer whose deadline is reached by part time is retired EXPIRED; a held one has no expiry of its own (R63,
R64, R74). That an event sent late still has its effect, and one sent early or out of place changes nothing, is the
model's choice (log entry 2). -/
def Obligations.APlainSteerExpiresAtItsDeadline : Prop :=
  ∀ (id : Nat) (x : Steer) (s : State), s.steers.find id = some x →
    (x.holdBay ≠ none ∨ s.partTime < x.deadline → exec (.steerExpiry id) s = .next s) ∧
    (x.holdBay = none → x.deadline ≤ s.partTime →
      ∃ t, exec (.steerExpiry id) s = .next t ∧ SameExcept [.steers, .zones, .passages, .sources] s t ∧
        t.steers.find id = none ∧ (∀ m, m ≠ id → t.steers.find m = s.steers.find m) ∧
        (∀ n, t.zone n = (s.zone n).map fun y =>
          if n = x.target then { y with counts := y.counts.upd x.kind fun c => { c with inTransit := c.inTransit - 1 } }
          else y) ∧
        (∀ n, t.passages.find n = (s.passages.find n).map fun r =>
          if n = x.origin then { r with counters := { r.counters with expired := r.counters.expired + 1 } } else r) ∧
        t.source 12 = (s.source 12).raise s.partTime (maskOf [x.target]) (number 1 id ++ number 1 x.origin) ∧
        ∀ n, n ≠ 12 → t.source n = s.source n)

/-- Waits, shows and bright times end at their times and not before; what a lamp head's and a sign head's report do
(R58, R73, R122, R123, R125, R126, R127, R128, R154, R158, R161, R169). That wake of a lamp head with no group, and
its empty mask, is the model's reading (log entry 21). That an event sent late still has its effect, and one sent
early or out of place changes nothing, is the model's choice (log entry 2). -/
def Obligations.WaitsShowsAndBrightTimesEnd : Prop :=
  (∀ (p : Nat) (r : Passage) (w : Nat) (s : State), s.passages.find p = some r → r.waitUntil = some w →
      ∃ t, exec (.kioskWaitExpiry p) s = .next t ∧ SameExcept [.passages] s t ∧
        t.passages.find p = some (if w ≤ s.partTime then { r with kioskWait := 0, waitUntil := none } else r) ∧
        ∀ m, m ≠ p → t.passages.find m = s.passages.find m) ∧
    (∀ (n : Nat) (r : Sign) (x : Show) (s : State), s.signs.find n = some r → r.shown = some x →
      ∃ t, exec (.showUntil n) s = .next t ∧ SameExcept [.signs] s t ∧
        t.signs.find n = some (if x.expiry ≤ s.partTime then { r with shown := none } else r) ∧
        ∀ m, m ≠ n → t.signs.find m = s.signs.find m) ∧
    (∀ (n : Nat) (g : LampGroup) (w : Nat) (s : State), s.lamps.find n = some g → g.bright = true →
      g.brightUntil = some w →
      (s.partTime < w → exec (.brightUntil n) s = .next s) ∧
      (w ≤ s.partTime →
        ∃ t, exec (.brightUntil n) s = .next t ∧ SameExcept [.lamps] s t ∧
          (∃ g', t.lamps.find n = some g' ∧
            g' = { g with bright := false, brightUntil := none, effective := g'.effective, reason := g'.reason,
                          commanded := g'.commanded } ∧
            (g'.effective, g'.reason) = lampLevel s.device (s.zone g.zone) { g with bright := false } ∧
            g'.commanded = g'.effective) ∧
          ∀ m, m ≠ n → t.lamps.find m = s.lamps.find m)) ∧
    (∀ (i a : Nat) (wake : Bool) (level failed flags : Byte) (s : State), s.lamps.wf = true →
      let t := lampReport i a wake [level, failed, flags] s
      let motion := flags.getLsbD 0 = true
      let woken := s.device = .quiet ∧ motion ∧ wake = true
      ((∀ q ∈ s.lamps, q.2.head ≠ { segment := i, address := a }) →
        (woken → Woken .motion s t) ∧ (¬woken → t = s)) ∧
      ∀ n g, (n, g) ∈ s.lamps → g.head = { segment := i, address := a } →
        (∀ q ∈ s.lamps, q.2.head = { segment := i, address := a } → q.1 = n) →
        let g' := { g with observed := min 100 level.toNat, failed := failed.toNat, motionSeen := flags.getLsbD 0,
                           reportTime := some s.partTime }
        let u := s.setLamps (s.lamps.put n g')
        (¬woken → SameExcept [.lamps, .sources] s t ∧
          Brightened (if motion ∧ g.motionFlag = true then [g.zone] else []) u t ∧ NotWoken s t) ∧
        (woken → SameExcept quietFields s t ∧ WakeTaken .motion [g.zone] s t) ∧
        t.source 9 = (if g.failed < s.faultThreshold ∧ s.faultThreshold ≤ failed.toNat then
          (s.source 9).raise s.partTime (maskOf [g.zone]) (number 1 n ++ number 1 failed.toNat) else s.source 9) ∧
        ∀ m, m ≠ 9 → m ≠ 15 → t.source m = s.source m) ∧
    ∀ (i a : Nat) (result : Byte) (s : State), s.signs.wf = true →
      let t := signReport i a [result] s
      SameExcept [.signs] s t ∧
      ((∀ q ∈ s.signs, q.2.config.head ≠ { segment := i, address := a }) → t = s) ∧
      ∀ n g, (n, g) ∈ s.signs → g.config.head = { segment := i, address := a } →
        (∀ q ∈ s.signs, q.2.config.head = { segment := i, address := a } → q.1 = n) →
        ∀ m, t.signs.find m = (s.signs.find m).map fun x => if m = n then { x with headFault := result ≠ 0 } else x

/-- What a RAMP, EXIT or reverse passage does, WRONG_WAY, the wake of a forward passage, and what a loop head's report
holds (R52, R53, R54, R55, R74, R91, R122, R154). -/
def Obligations.ARampPassageCreditsItsZone : Prop :=
  (∀ (p : Nat) (r : Passage) (gap : Int) (occupancy : Nat) (s : State), s.passages.find p = some r →
      (r.config.kind ≠ .entry ∨ gap < 0) →
      let c := r.classOf s gap occupancy
      let z := creditedZone r.config gap
      let t := takePassage p gap occupancy s
      t.passages.find p = some (r.passed s gap occupancy) ∧ (∀ m, m ≠ p → t.passages.find m = s.passages.find m) ∧
        ZonesChanged (Zone.passCredited s z c) s t ∧
        (s.device ≠ .quiet ∨ gap < 0 ∨ r.config.wakeFlag = false →
          SameExcept [.passages, .zones, .lamps, .sources] s t ∧ Brightened (optList z) s t ∧
          (0 ≤ gap ∨ r.config.kind = .ramp → t.sources = s.sources) ∧
          (gap < 0 → r.config.kind ≠ .ramp → (∀ n, n ≠ 10 → t.source n = s.source n) ∧
            t.source 10 = (s.source 10).raise s.partTime
              (maskOf (optList (if r.config.kind = .entry then r.config.toZone else r.config.fromZone)))
              (number 1 p ++ number 1 c.code)))) ∧
    (∀ (p : Nat) (r : Passage) (gap : Int) (occupancy : Nat) (s : State), s.passages.find p = some r → 0 ≤ gap →
      r.config.wakeFlag = true → s.device = .quiet →
      WakeTaken .passage (optList (creditedZone r.config gap)) s (takePassage p gap occupancy s)) ∧
    ∀ (i a : Nat) (s : State), s.passages.wf = true →
      ((∀ q ∈ s.passages, q.2.config.head ≠ { segment := i, address := a }) → ∀ payload, loopReport i a payload s = s) ∧
      ∀ p r, (p, r) ∈ s.passages → r.config.head = { segment := i, address := a } →
        (∀ q ∈ s.passages, q.2.config.head = { segment := i, address := a } → q.1 = p) →
        (∀ overflow : Byte, SameExcept [.passages] s (loopReport i a [overflow] s) ∧
          ∀ n, (loopReport i a [overflow] s).passages.find n = (s.passages.find n).map fun x =>
            if n = p then { x with counters := { x.counters with overflow := x.counters.overflow + overflow.zeroExtend 16 } }
            else x) ∧
        ∀ (reports : List Byte) (gapHigh gapLow occupancyHigh occupancyLow : Byte), reports.length % 4 = 1 →
          loopReport i a (reports ++ [gapHigh, gapLow, occupancyHigh, occupancyLow]) s =
            takePassage p (max (-5000) (min 5000 (gapHigh ++ gapLow : BitVec 16).toInt))
              (min 30000 (256 * occupancyHigh.toNat + occupancyLow.toNat)) (loopReport i a reports s)

/-- Every step keeps every live steer's target OPEN (R12, R56, R66, R67). -/
def Obligations.NoSteerHeadsForAClosedZone : Prop :=
  ∀ s t : State, SteersGuided s → step s = .next t → SteersGuided t

/-- Every step keeps every in-transit count at the number of live plain steers (R8, R57). -/
def Obligations.InTransitCountsStayMatched : Prop :=
  ∀ s t : State, TransitMatches s → step s = .next t → TransitMatches t

/-- The situation, word and count of a sign that has no show (R71, R72). -/
def Obligations.ASignShowsItsSituation : Prop :=
  ∀ (n : Nat) (r : Sign) (s : State), r.shown = none →
    let zs := watchedZones n r s
    let c := min 999 (zs.map fun z => match s.zone z with
      | none => 0
      | some y => if y.guidance = .opened then y.counts.standard.free - y.counts.standard.inTransit else 0).sum
    let all := fun (x : Guidance) => zs ≠ [] ∧ ∀ z ∈ zs, ∃ y, s.zone z = some y ∧ y.guidance = x
    let o := signOutput n r s
    (s.device = .unconfigured ∨ s.device = .starting → o.situation = 6) ∧ (s.device = .quiet → o.situation = 5) ∧
      (s.device = .running ∨ s.device = .warming →
        (all .closedFire → o.situation = 3) ∧
        (¬all .closedFire → r.config.hostFlag = true → o.situation = 7) ∧
        (¬all .closedFire → r.config.hostFlag = false → c = 0 → all .closedAir → o.situation = 2) ∧
        (¬all .closedFire → r.config.hostFlag = false → c = 0 → all .closedOverride → o.situation = 4) ∧
        (¬all .closedFire → r.config.hostFlag = false → c = 0 → ¬all .closedAir → ¬all .closedOverride →
          o.situation = 1) ∧
        (¬all .closedFire → r.config.hostFlag = false → c ≠ 0 → o.situation = 0)) ∧
      o.word = (s.pattern o.situation).word ∧ o.count = if (s.pattern o.situation).showCount = true then c else 0

/-- At an evaluation with a fresh head each average moves by the rounded share of its distance to the zone reading
(R78, R81, R82). -/
def Obligations.AveragesMoveByTheRoundedStep : Prop :=
  (∀ (divisor target average : Nat), divisor = 4 ∨ divisor = 32 →
      ∃ st : Int, (moveAverage divisor target average : Int) = average + st ∧
        2 * |((target : Int) - average) - divisor * st| ≤ divisor ∧
        (2 * |((target : Int) - average) - divisor * st| = divisor → |(target : Int) - average| ≤ |divisor * st|)) ∧
    ∀ (c : AirSettings) (now start : Nat) (quiet : Bool) (heads : Table Head) (z : Zone),
      let fresh := freshReports heads now z.config.airHeads
      let a := evaluateZone c now start quiet heads z
      fresh ≠ [] → ∃ co no2, a.coReading = some { value := co, time := now } ∧
        a.noReading = some { value := no2, time := now } ∧
        (∀ r ∈ fresh, r.co ≤ co ∧ r.no2 ≤ no2) ∧ (∃ r ∈ fresh, r.co = co) ∧ (∃ r ∈ fresh, r.no2 = no2) ∧
        a.seeded = true ∧
        (z.air.seeded = true →
          a.fCO = moveAverage 4 (co * 256) z.air.fCO ∧ a.sCO = moveAverage 32 (co * 256) z.air.sCO ∧
            a.fNO = moveAverage 4 (no2 * 256) z.air.fNO ∧ a.sNO = moveAverage 32 (no2 * 256) z.air.sNO) ∧
        (z.air.seeded = false → a.fCO = co * 256 ∧ a.sCO = co * 256 ∧ a.fNO = no2 * 256 ∧ a.sNO = no2 * 256)

/-- Every step keeps the CO averages within 128,000, the NO2 averages within 2,560,000 and antCO within 16,384 (R76,
R81, R82, R83, R91, R92). -/
def Obligations.AccumulatorsStayBounded : Prop :=
  ∀ s t : State, AccumulatorsBounded s → step s = .next t → AccumulatorsBounded t

/-- The automatic step is the ceiling of the larger percentage over 25, at every evaluation of every zone (R89, R90).
-/
def Obligations.TheAutomaticStepIsACeiling : Prop :=
  (∀ (c : AirSettings) (a : ZoneAir), c.watchCO < c.actCO → c.watchNO < c.actNO →
      let e := min 128000 (a.fCO + a.antCO)
      ∃ co no : Nat, autoStep c a ≤ 4 ∧ max co no ≤ 25 * autoStep c a ∧ 25 * autoStep c a < max co no + 25 ∧
        (e ≤ c.watchCO * 256 → co = 0) ∧ (c.actCO * 256 ≤ e → co = 100) ∧
        (c.watchCO * 256 < e → e < c.actCO * 256 →
          (e - c.watchCO * 256) * 100 ≤ co * ((c.actCO - c.watchCO) * 256) ∧
          co * ((c.actCO - c.watchCO) * 256) < (e - c.watchCO * 256) * 100 + (c.actCO - c.watchCO) * 256) ∧
        (a.fNO ≤ c.watchNO * 256 → no = 0) ∧ (c.actNO * 256 ≤ a.fNO → no = 100) ∧
        (c.watchNO * 256 < a.fNO → a.fNO < c.actNO * 256 →
          (a.fNO - c.watchNO * 256) * 100 ≤ no * ((c.actNO - c.watchNO) * 256) ∧
          no * ((c.actNO - c.watchNO) * 256) < (a.fNO - c.watchNO * 256) * 100 + (c.actNO - c.watchNO) * 256)) ∧
    ∀ (c : AirSettings) (now start : Nat) (quiet : Bool) (heads : Table Head) (z : Zone),
      let a := evaluateZone c now start quiet heads z
      a.autoDemand = max (autoStep c { a with antCO := z.air.antCO }) (match a.state with
        | .clear => if quiet = true then z.config.quietBase else z.config.baseStep
        | .watch => 1
        | .act => 3
        | .bar => 4
        | .blind => z.config.blindStep)

/-- How the air state moves on the averages of an evaluation with a fresh head (R84, R85, R86, R87). -/
def Obligations.AirStatesRiseAtOnceAndFallByDwell : Prop :=
  ∀ (c : AirSettings) (a : ZoneAir), a.dwell ≤ 3 →
    let cand := airCandidate c a
    let a' := moveAirState c cand a
    let low := fun (x y tx ty : Nat) => x < tx * 256 * 4 / 5 ∧ y < ty * 256 * 4 / 5
    let exits := (a.state = .bar → low a.fCO a.fNO c.barCO c.barNO) ∧ (a.state = .act → low a.fCO a.fNO c.actCO c.actNO) ∧
      (a.state = .watch → low a.sCO a.sNO c.watchCO c.watchNO)
    (cand = .bar ↔ c.barCO * 256 ≤ a.fCO ∨ c.barNO * 256 ≤ a.fNO) ∧
    (cand = .act ↔ cand ≠ .bar ∧ (c.actCO * 256 ≤ a.fCO ∨ c.actNO * 256 ≤ a.fNO)) ∧
    (cand = .watch ↔ cand ≠ .bar ∧ cand ≠ .act ∧ (c.watchCO * 256 ≤ a.sCO ∨ c.watchNO * 256 ≤ a.sNO)) ∧
    cand ≠ .blind ∧
    (a.state = .blind ∨ a.state.severity ≤ cand.severity → a'.state = cand ∧ a'.dwell = 0) ∧
    (a.state ≠ .blind → cand.severity < a.state.severity →
      (exits → a.dwell = 3 → a'.state = cand ∧ a'.dwell = 0) ∧
      (exits → a.dwell < 3 → a'.state = a.state ∧ a'.dwell = a.dwell + 1) ∧
      (¬exits → a'.state = a.state ∧ a'.dwell = 0)) ∧
    a' = { a with state := a'.state, dwell := a'.dwell, blindReported := a'.blindReported }

/-- What an air evaluation does to every configured zone, the attention it raises, and its wake (R77, R78, R79, R80,
R81, R88, R90, R92, R95, R96, R97, R154). That an event sent late still has its effect, and one sent early or out of
place changes nothing, is the model's choice (log entry 2). -/
def Obligations.AnAirEvaluationSettlesEveryZone : Prop :=
  ∀ s : State,
    (s.device = .unconfigured ∨ s.nextEvaluation = none ∨ (∃ w, s.nextEvaluation = some w ∧ s.partTime < w) →
      exec .airEvaluation s = .next s) ∧
    ∀ w, s.device ≠ .unconfigured → s.nextEvaluation = some w → w ≤ s.partTime →
      ∃ t, exec .airEvaluation s = .next t ∧ SameExcept (writes .airEvaluation) s t ∧ t.nextEvaluation = some (w + 15) ∧
        (∀ n y, s.zone n = some y →
          ∃ y', t.zone n = some y' ∧ y'.config = y.config ∧ y'.fire = y.fire ∧ y'.lineFlag = y.lineFlag ∧
            y'.declaredFlag = y.declaredFlag ∧ y'.stack = y.stack ∧ y'.air.antCO = y.air.antCO / 2 ∧
            y'.guidance = deriveGuidance t.device y' ∧ y'.demand = demandStep y' ∧
            (match y'.air.state with
              | .clear => if s.device = .quiet then y.config.quietBase else y.config.baseStep
              | .watch => 1
              | .act => 3
              | .bar => 4
              | .blind => y.config.blindStep) ≤ y'.air.autoDemand ∧
            (freshReports s.heads s.partTime y.config.airHeads ≠ [] →
              ∃ co no, y'.air.coReading = some { value := co, time := s.partTime } ∧
                y'.air.noReading = some { value := no, time := s.partTime } ∧ y'.air.seeded = true ∧
                y'.air.state ≠ .blind ∧
                (∀ r ∈ freshReports s.heads s.partTime y.config.airHeads, r.co ≤ co ∧ r.no2 ≤ no) ∧
                (∃ r ∈ freshReports s.heads s.partTime y.config.airHeads, r.co = co) ∧
                ∃ r ∈ freshReports s.heads s.partTime y.config.airHeads, r.no2 = no) ∧
            (freshReports s.heads s.partTime y.config.airHeads = [] →
              y'.air.coReading = y.air.coReading ∧ y'.air.noReading = y.air.noReading ∧ y'.air.fCO = y.air.fCO ∧
                y'.air.sCO = y.air.sCO ∧ y'.air.fNO = y.air.fNO ∧ y'.air.sNO = y.air.sNO ∧
                y'.air.seeded = y.air.seeded ∧ y'.air.candidate = none ∧
                ((∃ r, y.air.coReading = some r ∧ s.partTime ≤ r.time + s.airSettings.staleHold) → y.air.state ≠ .blind →
                  y'.air.state = y.air.state ∧ y'.air.dwell = y.air.dwell) ∧
                ((y.air.state = .blind ∨ y.air.coReading = none ∨
                    ∃ r, y.air.coReading = some r ∧ r.time + s.airSettings.staleHold < s.partTime) →
                  y'.air.state = .blind ∧ y'.air.dwell = 0))) ∧
        (s.zones.wf = true →
          (∃ zs, NamesZones zs (fun y y' => y.air.state ≠ .bar ∧ y'.air.state = .bar) s t ∧
            RaisedOver 1 zs (zoneDetail (gasCode s.airSettings.barCO s.airSettings.barNO) t) s t) ∧
          (∃ zs, NamesZones zs (fun y y' => y.air.state ≠ .act ∧ y.air.state ≠ .bar ∧ y'.air.state = .act) s t ∧
            RaisedOver 2 zs (zoneDetail (gasCode s.airSettings.actCO s.airSettings.actNO) t) s t) ∧
          (∃ zs, NamesZones zs (fun y y' => y'.air.state = .blind ∧ y.air.blindReported = false ∧
              (y'.air.seeded = true ∨ s.startTime + s.airSettings.staleHold ≤ s.partTime)) s t ∧
            RaisedOver 3 zs (zoneDetail (fun y => optBytes (number 4) (y.air.coReading.map Reading.time)) t) s t ∧
            ∀ n ∈ zs, ∀ y', t.zone n = some y' → y'.air.blindReported = true) ∧
          (∃ zs, NamesZones zs (fun y y' =>
              y.air.sCO < s.airSettings.actCO * 256 ∧ s.airSettings.actCO * 256 ≤ y'.air.sCO) s t ∧
            RaisedOver 4 zs (zoneDetail (fun y => number 2 (y.air.sCO / 256)) t) s t) ∧
          (∃ zs, NamesZones zs (fun _ y' =>
              y'.air.candidate = some .watch ∨ y'.air.candidate = some .act ∨ y'.air.candidate = some .bar) s t ∧
            (s.device = .quiet → zs ≠ [] → WakeTaken .air zs s t) ∧ (s.device ≠ .quiet ∨ zs = [] → NotWoken s t)) ∧
          ∀ m, m ∉ [1, 2, 3, 4, 13, 15] → t.source m = s.source m)

/-- Every step keeps every zone's demand step: settled outside fire, and settled in fire too but for a CONFIGURE of
the zone (R15, R88, R90, R102). That a CONFIGURE which replaces the fire role of a zone in fire leaves its demand step
is the model's reading of R15 and R102 (log entry 19). -/
def Obligations.DemandStaysSettled : Prop :=
  (∀ s t : State, DemandKept s → step s = .next t → DemandKept t) ∧
    ∀ s t : State, DemandSettled s →
      (s.device ≠ .unconfigured ∨ ∀ client tag body rest, s.pending ≠ .configure client tag body :: rest) →
      step s = .next t → DemandSettled t

/-- What fire and bad air do to a zone's guidance, demand step and lamps (R10, R90, R102, R124). The premise
DemandSettled leaves out a zone whose fire role a CONFIGURE has replaced while it was in fire (log entry 19). -/
def Obligations.FireAndAirBindAZone : Prop :=
  (∀ (s : State) (n : Nat) (z : Zone), GuidanceSettled s → DemandSettled s → s.zone n = some z →
    (z.fire ≠ .noFire ∨ z.air.state = .bar ∨ s.device = .unconfigured ∨ s.device = .starting → z.guidance ≠ .opened) ∧
    z.demand ≤ 4 ∧
    (z.fire = .active → z.config.haltRole = true → z.demand = 0) ∧
    (z.fire = .active → z.config.haltRole = false → z.demand = 4) ∧
    (z.fire ≠ .active → ventLevel z.stack ≠ some 0 →
      (z.air.state = .act → 3 ≤ z.demand) ∧ (z.air.state = .bar → z.demand = 4))) ∧
    ∀ (s : State) (m : Nat) (g : LampGroup), LampsSettled s → s.lamps.find m = some g →
      g.guardLevel ≤ g.commanded ∧ g.commanded ≤ 100 ∧
        ∀ z, s.zone g.zone = some z → z.fire ≠ .noFire ∨ z.air.state = .act ∨ z.air.state = .bar → g.commanded = 100

/-- Every step keeps the number of starts within the limit, every fan standing on its target, and every target the one
of R104 (R103, R104, R105, R106, R108, R111, R114, R118). That a fan configured outside fire keeps target 0 until an
input changes, which the exception leaves out, is the model's reading (log entry 20). -/
def Obligations.StartsStayWithinTheLimit : Prop :=
  (∀ s t : State, StartGateHolds s → step s = .next t → StartGateHolds t) ∧
    (∀ s t : State, FansStand s → step s = .next t → FansStand t) ∧
    ∀ s t : State, FansOnTarget s →
      (s.device ≠ .unconfigured ∨ ∀ client tag body rest, s.pending ≠ .configure client tag body :: rest) →
      step s = .next t → FansOnTarget t

/-- Shortness, target steps and the moves on them, the order of the start queue, and what the gate leaves (R103, R104,
R106, R107, R108). An unconfigured zone's demand step of 0 is the model's reading (log entry 18). -/
def Obligations.TheGateAdmitsInQueueOrder : Prop :=
  (∀ s : State,
      (∀ z, s.short z = true ↔ (s.zone z).isSome = true ∧ ∃ q ∈ s.fans, q.2.zone = z ∧
        (q.2.state = .unreached ∨ q.2.state = .tripped ∨ q.2.state = .lockedOut ∨ q.2.state = .localControl)) ∧
      let demand := fun (z : Nat) => match s.zone z with
        | none => 0
        | some y => y.demand
      (∀ f : Fan,
        let own := if s.short f.zone = true ∧ 1 ≤ demand f.zone then min 4 (demand f.zone + 1) else demand f.zone
        let inFire := ∃ y, s.zone f.zone = some y ∧ y.fire = .active
        (∀ y, s.zone f.zone = some y → y.fire = .active → fanTarget s f = if y.config.haltRole = true then 0 else 4) ∧
        (¬inFire → (∀ a, f.assist = some a → s.short a = true → fanTarget s f = max own (demand a - 1)) ∧
          ((∀ a, f.assist = some a → s.short a = false) → fanTarget s f = own))) ∧
      ∀ z, let t := retargetZone z s
        SameExcept [.fans] s t ∧ (∀ n, s.fans.find n = none → t.fans.find n = none) ∧
        ∀ n f, s.fans.find n = some f →
          let x := fanTarget s f
          let moved := fun (g : Fan) => t.fans.find n = some g
          ((f.zone ≠ z ∧ f.assist ≠ some z) ∨ x = f.target → moved f) ∧
          (f.zone = z ∨ f.assist = some z → x ≠ f.target →
            (f.state = .stopped → 0 < x → moved { f with
              target := x, state := .queued, commanded := 0, rundownEnds := none, timeQueued := some s.partTime }) ∧
            (f.state = .queued → x = 0 → moved { f with
              target := 0, state := .stopped, commanded := 0, rundownEnds := none, timeQueued := none }) ∧
            (f.state = .starting ∨ (f.state = .running ∧ 0 < x) → moved { f with target := x, commanded := x }) ∧
            (f.state = .running → x = 0 → moved { f with
              target := 0, state := .rundown, commanded := 0, startEnds := none, timeQueued := none
              rundownEnds := some (s.partTime + s.fanSettings.minOffTime) }) ∧
            (f.state ≠ .starting → f.state ≠ .running → (f.state = .stopped → x = 0) → (f.state = .queued → 0 < x) →
              moved { f with target := x }))) ∧
    ∀ s : State,
    (startQueue s).Perm (s.fans.filter fun p => p.2.state = .queued) ∧
    (startQueue s).Pairwise (fun p q => urgency s p.2.zone ≤ urgency s q.2.zone ∧
      (urgency s p.2.zone = urgency s q.2.zone → p.2.timeQueued.getD 0 ≤ q.2.timeQueued.getD 0 ∧
        (p.2.timeQueued.getD 0 = q.2.timeQueued.getD 0 → p.1 ≤ q.1))) ∧
    (∀ z r, s.zone z = some r → (r.fire = .active → urgency s z = 0) ∧
      (r.fire ≠ .active → (r.air.state = .bar → urgency s z = 1) ∧ (r.air.state = .act → urgency s z = 2) ∧
        (r.air.state ≠ .bar → r.air.state ≠ .act → urgency s z = 3))) ∧
    (s.fans.wf = true → KeysBelow 24 s.fans →
      SameExcept [.fans] s (gate s) ∧
      ((startQueue (gate s)).isEmpty = true ∨ s.fanSettings.startLimit ≤ startingCount (gate s)) ∧
      (∀ n, (gate s).fans.find n = s.fans.find n ∨ ∃ f, s.fans.find n = some f ∧ f.state = .queued ∧
        (gate s).fans.find n = some { f with state := .starting, commanded := f.target, timeQueued := none,
                                             startEnds := some (s.partTime + s.fanSettings.startTime) }) ∧
      ∃ k, ∀ (i : Nat) (p : Nat × Fan), (startQueue s)[i]? = some p → (i < k ↔ (gate s).fans.find p.1 ≠ s.fans.find p.1))

/-- What start-ends, rundown-ends and a fan head's report do to their fan (R103, R104, R105, R106, R108, R109, R110,
R111, R112, R113, R114, R115). The bits of the flags are those of R161. That an event sent late still has its effect,
and one sent early or out of place changes nothing, is the model's choice (log entry 2). -/
def Obligations.FanTimersMoveTheFan : Prop :=
  (∀ (n : Nat) (f : Fan) (w : Nat) (s : State), s.fans.wf = true → s.fans.find n = some f →
    let others := fun (t : State) => SameExcept [.fans] s t ∧
      ∀ m g, m ≠ n → s.fans.find m = some g → g.state ≠ .queued → t.fans.find m = some g
    (f.state = .starting → f.startEnds = some w →
      (s.partTime < w → exec (.startEnds n) s = .next s) ∧
      (w ≤ s.partTime → 0 < f.target →
        ∃ t, exec (.startEnds n) s = .next t ∧ others t ∧
          t.fans.find n = some { f with state := .running, commanded := f.target, startEnds := none }) ∧
      (w ≤ s.partTime → f.target = 0 →
        ∃ t, exec (.startEnds n) s = .next t ∧ others t ∧
          t.fans.find n = some { f with state := .rundown, commanded := 0, startEnds := none, timeQueued := none,
                                        rundownEnds := some (s.partTime + s.fanSettings.minOffTime) })) ∧
    (f.state = .rundown → f.rundownEnds = some w →
      (s.partTime < w → exec (.rundownEnds n) s = .next s) ∧
      (w ≤ s.partTime → f.target = 0 →
        ∃ t, exec (.rundownEnds n) s = .next t ∧ others t ∧
          t.fans.find n = some { f with state := .stopped, commanded := 0, rundownEnds := none, timeQueued := none }) ∧
      (w ≤ s.partTime → 0 < f.target → s.fanSettings.startLimit ≤ startingCount s →
        ∃ t, exec (.rundownEnds n) s = .next t ∧ others t ∧
          t.fans.find n = some { f with state := .queued, commanded := 0, rundownEnds := none,
                                        timeQueued := some s.partTime }) ∧
      (w ≤ s.partTime → 0 < f.target → startingCount s < s.fanSettings.startLimit →
        (∀ q ∈ s.fans, q.2.state ≠ .queued) →
        ∃ t, exec (.rundownEnds n) s = .next t ∧ others t ∧
          t.fans.find n = some { f with state := .starting, commanded := f.target, rundownEnds := none, timeQueued := none,
                                        startEnds := some (s.partTime + s.fanSettings.startTime) }))) ∧
    ∀ (i a : Nat) (step flags : Byte) (s : State), s.fans.wf = true →
      let t := fanReport i a [step, flags] s
      ((∀ q ∈ s.fans, q.2.head ≠ { segment := i, address := a }) → t = s) ∧
      ∀ n f, (n, f) ∈ s.fans → f.head = { segment := i, address := a } →
        (∀ q ∈ s.fans, q.2.head = { segment := i, address := a } → q.1 = n) → f.trips.length ≤ 3 →
        let g : Fan :=
          { f with observed := min 4 step.toNat, runFlag := flags.getLsbD 0, tripFlag := flags.getLsbD 1,
                   localFlag := flags.getLsbD 2, reportTime := some s.partTime }
        let out := fun (st : FanState) (target : Nat) (trips : List Nat) =>
          { g with state := st, target := target, commanded := 0, startEnds := none, rundownEnds := none,
                   timeQueued := none, trips := trips }
        let trips := (if f.trips.length < 3 then f.trips else f.trips.drop 1) ++ [s.partTime]
        let target := if t.short f.zone = s.short f.zone then f.target else fanTarget t f
        let locked := trips.length = 3 ∧ s.partTime ≤ trips.headD 0 + 600
        let healthy := f.state ≠ .lockedOut ∧ f.state ≠ .tripped ∧ f.state ≠ .unreached ∧ f.state ≠ .localControl
        SameExcept [.fans, .sources] s t ∧
        (∀ m h, m ≠ n → s.fans.find m = some h → h.zone ≠ f.zone → h.assist ≠ some f.zone → h.state ≠ .queued →
          t.fans.find m = some h) ∧
        (g.tripFlag = false ∨ f.state = .tripped ∨ f.state = .lockedOut → t.sources = s.sources) ∧
        (f.state = .lockedOut ∨ (f.state = .tripped ∧ g.tripFlag = true) ∨
            (f.state = .localControl ∧ g.tripFlag = false ∧ g.localFlag = true) ∨
            (healthy ∧ g.tripFlag = false ∧ g.localFlag = false) → t.fans = s.fans.put n g) ∧
        (f.state ≠ .lockedOut → f.state ≠ .tripped → g.tripFlag = true →
          let st := if locked then FanState.lockedOut else .tripped
          t.fans.find n = some (out st target trips) ∧
            t.source 5 = (s.source 5).raise s.partTime (maskOf [f.zone])
              (number 1 n ++ number 4 s.partTime ++ number 1 st.code) ∧
            ∀ m, m ≠ 5 → t.source m = s.source m) ∧
        (f.state ≠ .lockedOut → f.state ≠ .localControl → g.tripFlag = false → g.localFlag = true →
          t.fans.find n = some (out .localControl target f.trips)) ∧
        (f.state = .tripped ∨ f.state = .unreached ∨ f.state = .localControl → g.tripFlag = false → g.localFlag = false →
          t.fans.find n = some { out .rundown target f.trips with
            rundownEnds := some (s.partTime + s.fanSettings.minOffTime) })

/-- Every step keeps every lamp group commanded the level that its inputs give (R119, R124, R125). -/
def Obligations.LampsStaySettled : Prop :=
  ∀ s t : State, LampsSettled s → step s = .next t → LampsSettled t

/-- PUSH puts an entry on top of the zone's stack, or is refused with nothing changed (R132, R133, R134, R135). The
presence byte before each setting's level in the response is the model's reading (log entry 10). -/
def Obligations.PushStacksAnEntry : Prop :=
  ∀ (client : Byte) (tag : Half) (z : Nat) (r : Zone) (v : Vent) (l : Lighting) (u : GuideSetting) (d : Option Nat)
      (s : State), z < 32 → s.zone z = some r → (∀ n, v = .min n ∨ v = .hold n → n < 256) →
      (∀ x, d = some x → x < 4294967296) →
    let body := number 1 z ++ v.bytes ++ number 1 l.code ++ number 1 u.code ++ optBytes (number 4) d
    let level := s.clientLevel client.toNat
    let stops := (v = .halt ∨ v = .hold 0) ∧ u = .auto
    let refused := fun (result : Result) =>
      ∃ t, exec (.push client tag body) s = .next t ∧ SameExcept portFields s t ∧ Answers tag result 0 [] t
    Reaches level client body s →
    (level = 3 → refused .authority) ∧
    (level ≤ 2 → (∃ n, 4 < n ∧ (v = .min n ∨ v = .hold n)) → refused .range) ∧
    ((∀ n, v = .min n ∨ v = .hold n → n ≤ 4) →
    (level = 1 ∨ level = 2 → stops → refused .combination) ∧
    (level ≤ 2 → (level = 0 ∨ ¬stops) → r.stack.length = 4 → refused .full) ∧
    (level ≤ 2 → (level = 0 ∨ ¬stops) → r.stack.length < 4 →
      (∃ e, r.stack.getLast? = some e ∧ e.level < level) → refused .authority) ∧
    (level ≤ 2 → (level = 0 ∨ ¬stops) → r.stack.length < 4 → (∀ e, r.stack.getLast? = some e → level ≤ e.level) →
      let clamped := d.map fun x => max 60 (min 86400 x)
      let e : StackEntry :=
        { level := level, client := client.toNat, vent := v, lighting := l, guide := u, pushedAt := s.partTime,
          expiry := clamped.map fun x => s.partTime + x }
      ∃ t r', exec (.push client tag body) s = .next t ∧ SameExcept (portFields ++ zoneFields) s t ∧
        (u = .auto → SameExcept (portFields ++ [.zones, .fans, .lamps]) s t) ∧
        t.zone z = some r' ∧ r'.stack = r.stack ++ [e] ∧
        r' = { r with stack := r'.stack, demand := r'.demand, guidance := r'.guidance, counts := r'.counts } ∧
        (DemandSettled s → r'.demand = demandStep r') ∧ (GuidanceSettled s → r'.guidance = deriveGuidance s.device r') ∧
        (∀ m y, m ≠ z → s.zone m = some y → ∃ c, t.zone m = some { y with counts := c }) ∧
        Answers tag (if clamped = d then .done else .clamped) 0
          (e.bytes ++ number 1 (r.stack.length + 1) ++ number 1 (r.stack.length + 1) ++ settingsLevelBytes r'.stack) t))

/-- POP takes the top entry, and an expired entry leaves from wherever it stands (R132, R133, R136, R137). That the
settings in POP's response carry no levels is the model's reading (log entry 11). That an event sent late still has
its effect, and one sent early or out of place changes nothing, is the model's choice (log entry 2). -/
def Obligations.StackEntriesLeave : Prop :=
  ∀ (z : Nat) (r : Zone) (s : State), s.zone z = some r → DemandSettled s → GuidanceSettled s →
    let left := fun (fs : List Field) (stack : List StackEntry) (t : State) =>
      SameExcept (fs ++ [.zones, .fans, .lamps]) s t ∧ OnlyZone z s t ∧
      ∃ r', t.zone z = some r' ∧ r' = { r with stack := stack, demand := r'.demand, guidance := r'.guidance } ∧
        r'.demand = demandStep r' ∧ r'.guidance = deriveGuidance s.device r'
    (∀ (client : Byte) (tag : Half), z < 32 → Reaches 3 client (number 1 z) s →
      (r.stack = [] → ∃ t, exec (.pop client tag (number 1 z)) s = .next t ∧ SameExcept portFields s t ∧
        Answers tag .notNow 0 [] t) ∧
      ∀ below e, r.stack = below ++ [e] →
        (e.level < s.clientLevel client.toNat → ∃ t, exec (.pop client tag (number 1 z)) s = .next t ∧
          SameExcept portFields s t ∧ Answers tag .authority 0 [] t) ∧
        (s.clientLevel client.toNat ≤ e.level → ∃ t, exec (.pop client tag (number 1 z)) s = .next t ∧
          left portFields below t ∧ Answers tag .done 0 (e.bytes ++ number 1 below.length ++ settingsBytes below) t)) ∧
    ∀ below e above, r.stack = below ++ e :: above →
      (e.expiry = none ∨ (∃ w, e.expiry = some w ∧ s.partTime < w) →
        exec (.stackEntryExpiry z (below.length + 1)) s = .next s) ∧
      ∀ w, e.expiry = some w → w ≤ s.partTime →
        ∃ t, exec (.stackEntryExpiry z (below.length + 1)) s = .next t ∧ left [.sources] (below ++ above) t ∧
          t.source 14 = (s.source 14).raise s.partTime (maskOf [z])
            (number 1 z ++ number 1 e.client ++ number 1 e.level ++ e.vent.bytes ++ number 1 e.lighting.code ++
              number 1 e.guide.code ++ number 1 (below.length + 1)) ∧
          ∀ n, n ≠ 14 → t.source n = s.source n

/-- Every step keeps every override stack at 4 entries at most, in order of level (R132, R134). -/
def Obligations.StacksStayOrdered : Prop :=
  ∀ s t : State, StacksFit s → step s = .next t → StacksFit t

/-- What DECLARE_FIRE and CLEAR_FIRE do to the zones of their mask, the FIRE they raise, and the wake of a declaration
(R10, R102, R143, R144, R145, R146, R154). -/
def Obligations.FireIsDeclaredAndCleared : Prop :=
  ∀ (client : Byte) (tag : Half) (m : ZoneMask) (s : State), Reaches 0 client (maskBytes m) s → s.zones.wf = true → m ≠ 0 →
    (∀ n, m.getLsbD n = true → (s.zone n).isSome = true) →
    let kept := fun (t : State) => ∀ n z, s.zone n = some z → ∃ z', t.zone n = some z' ∧
      z' = { z with fire := z'.fire, lineFlag := z'.lineFlag, declaredFlag := z'.declaredFlag, guidance := z'.guidance,
                    demand := z'.demand, counts := z'.counts } ∧
      (z'.fire ≠ z.fire → z'.guidance = deriveGuidance s.device z' ∧ z'.demand = demandStep z') ∧
      (m.getLsbD n = false → z' = { z with counts := z'.counts })
    let raised := fun (cause : Byte) (zs : List Nat) (t : State) => NamesZones zs (fun y y' => y'.fire ≠ y.fire) s t ∧
      RaisedOver 0 zs (zoneDetail (fun y => number 1 y.fire.code ++ [cause]) t) s t ∧
      ∀ n, n ∉ [0, 13, 15] → t.source n = s.source n
    (∃ t c, exec (.declareFire client tag (maskBytes m)) s = .next t ∧
      SameExcept (writes (.declareFire client tag [])) s t ∧ kept t ∧ Answers tag .done 0 (maskBytes c) t ∧
      (∀ n z, m.getLsbD n = true → s.zone n = some z → (c.getLsbD n = true ↔ z.fire ≠ .active) ∧
        ∃ z', t.zone n = some z' ∧ z'.fire = .active ∧ z'.declaredFlag = true ∧ z'.lineFlag = z.lineFlag) ∧
      (∀ n, m.getLsbD n = false → c.getLsbD n = false) ∧
      ∃ zs, raised 0x02 zs t ∧ (s.device ≠ .quiet → NotWoken s t) ∧ (s.device = .quiet → WakeTaken .fire zs s t)) ∧
    ∃ t c l, exec (.clearFire client tag (maskBytes m)) s = .next t ∧
      SameExcept (writes (.clearFire client tag [])) s t ∧ kept t ∧
      Answers tag .done 0 (maskBytes c ++ maskBytes l) t ∧
      (∀ n z, m.getLsbD n = true → s.zone n = some z →
        (c.getLsbD n = true ↔ z.fire = .held ∨ (z.fire = .active ∧ z.lineFlag = false)) ∧
        (l.getLsbD n = true ↔ z.fire = .active ∧ z.lineFlag = true) ∧
        ∃ z', t.zone n = some z' ∧
          (z.fire = .active → z.lineFlag = true → z'.fire = .active ∧ z'.lineFlag = true ∧ z'.declaredFlag = false) ∧
          (z.fire = .active → z.lineFlag = false →
            z'.fire = .noFire ∧ z'.lineFlag = false ∧ z'.declaredFlag = false) ∧
          (z.fire ≠ .active → z'.fire = .noFire ∧ z'.lineFlag = z.lineFlag ∧ z'.declaredFlag = z.declaredFlag)) ∧
      (∀ n, m.getLsbD n = false → c.getLsbD n = false ∧ l.getLsbD n = false) ∧ ∃ zs, raised 0x03 zs t ∧ NotWoken s t

/-- The fire line filter, its activation after 2 s and its release after 10 s, the FIRE they raise, and the wake
(R140, R141, R142, R145, R146, R154). That an event sent late still has its effect, and one sent early or out of place
changes nothing, is the model's choice (log entry 2). -/
def Obligations.TheFireLineIsFiltered : Prop :=
  (∀ (level : Bool) (s : State),
      (level = s.fireLine.asserted → exec (.fireLineChange level) s = .next s) ∧
      (level ≠ s.fireLine.asserted →
        ∃ t, exec (.fireLineChange level) s = .next t ∧ SameExcept [.fireLine] s t ∧
          t.fireLine = { alarm := s.fireLine.alarm, asserted := level,
                         changeSince := if level = s.fireLine.alarm then none else some s.partTime })) ∧
    ∀ s : State, s.zones.wf = true →
      let kept := fun (t : State) => ∀ n z, s.zone n = some z → ∃ z', t.zone n = some z' ∧
        z' = { z with fire := z'.fire, lineFlag := z'.lineFlag, guidance := z'.guidance, demand := z'.demand,
                      counts := z'.counts } ∧
        (z'.fire ≠ z.fire → z'.guidance = deriveGuidance s.device z' ∧ z'.demand = demandStep z')
      let raised := fun (cause : Byte) (zs : List Nat) (t : State) => NamesZones zs (fun y y' => y'.fire ≠ y.fire) s t ∧
        RaisedOver 0 zs (zoneDetail (fun y => number 1 y.fire.code ++ [cause]) t) s t ∧
        ∀ n, n ∉ [0, 13, 15] → t.source n = s.source n
      (s.fireLine.alarm = true ∨ s.fireLine.changeSince = none ∨
          (∃ w, s.fireLine.changeSince = some w ∧ s.partTime < w + 2) → exec .fireLineActivation s = .next s) ∧
      (s.fireLine.alarm = false ∨ s.fireLine.changeSince = none ∨
          (∃ w, s.fireLine.changeSince = some w ∧ s.partTime < w + 10) → exec .fireLineRelease s = .next s) ∧
      (∀ w, s.fireLine.alarm = false → s.fireLine.changeSince = some w → w + 2 ≤ s.partTime →
        ∃ t, exec .fireLineActivation s = .next t ∧ SameExcept (writes .fireLineActivation) s t ∧ kept t ∧
          t.fireLine = { alarm := true, asserted := s.fireLine.asserted, changeSince := none } ∧
          (∀ n z, s.zone n = some z → ∃ z', t.zone n = some z' ∧
            (z.config.fireGroup = true → z'.fire = .active ∧ z'.lineFlag = true) ∧
            (z.config.fireGroup = false → z'.fire = z.fire ∧ z'.lineFlag = z.lineFlag)) ∧
          ∃ zs, raised 0x00 zs t ∧ (s.device = .quiet → zs ≠ [] → WakeTaken .fire zs s t) ∧
            (s.device ≠ .quiet ∨ zs = [] → NotWoken s t)) ∧
      ∀ w, s.fireLine.alarm = true → s.fireLine.changeSince = some w → w + 10 ≤ s.partTime →
        ∃ t, exec .fireLineRelease s = .next t ∧ SameExcept (writes .fireLineRelease) s t ∧ kept t ∧
          t.fireLine = { alarm := false, asserted := s.fireLine.asserted, changeSince := none } ∧
          (∀ n z, s.zone n = some z → ∃ z', t.zone n = some z' ∧ z'.lineFlag = false ∧
            z'.fire = (if z.lineFlag = true ∧ z.declaredFlag = false then .held else z.fire)) ∧
          ∃ zs, raised 0x01 zs t ∧ NotWoken s t

/-- QUIET enters quiet hours, passes straight to WARMING, or names the condition that fails (R125, R150, R151, R154,
R158). -/
def Obligations.QuietHoursAreEntered : Prop :=
  ∀ (client : Byte) (tag : Half) (mode : QuietMode) (s : State), mode ≠ .noMode → s.zones.wf = true →
    Reaches 1 client (number 1 mode.code) s →
    let refused := fun (detail : Nat) (body : List Byte) =>
      ∃ t, exec (.quiet client tag (number 1 mode.code)) s = .next t ∧ SameExcept portFields s t ∧
        Answers tag .notNow detail body t
    let allCalm := ∀ q ∈ s.zones, q.2.fire = .noFire
    let allClear := ∀ q ∈ s.zones, q.2.air.state = .clear
    (s.device ≠ .running → refused 1 (number 1 s.device.code)) ∧
    (s.device = .running →
      (∀ n z, s.zone n = some z → z.fire ≠ .noFire → (∀ m y, m < n → s.zone m = some y → y.fire = .noFire) →
        refused 2 (number 1 n)) ∧
      (allCalm → ∀ n z, s.zone n = some z → z.air.state ≠ .clear →
        (∀ m y, m < n → s.zone m = some y → y.air.state = .clear) → refused 3 (number 1 n)) ∧
      (allCalm → allClear → s.steers ≠ [] → refused 4 (number 1 s.steers.length)) ∧
      (allCalm → allClear → s.steers = [] → (mode = .untilWake ∨ s.quiet.line = true) →
        ∃ t, exec (.quiet client tag (number 1 mode.code)) s = .next t ∧
          SameExcept (portFields ++ [.device, .quiet, .lamps, .sources]) s t ∧ Answers tag .done 0 [0x03] t ∧
          t.device = .quiet ∧ t.quiet = { s.quiet with mode := mode, enteredAt := some s.partTime } ∧
          (∀ n g, s.lamps.find n = some g → ∃ g', t.lamps.find n = some g' ∧
            g' = { g with effective := g'.effective, reason := g'.reason, commanded := g'.effective } ∧
            ((∀ z, s.zone g.zone = some z → effectiveLight z.stack = .auto) → g'.effective = g.guardLevel)) ∧
          t.source 15 = (s.source 15).raise s.partTime 0 ([0x00] ++ number 1 mode.code) ∧
          ∀ n, n ≠ 15 → t.source n = s.source n) ∧
      (allCalm → allClear → s.steers = [] → mode = .whileLine → s.quiet.line = false →
        ∃ t, exec (.quiet client tag (number 1 mode.code)) s = .next t ∧
          SameExcept (portFields ++ quietFields) s t ∧ Answers tag .done 0 [0x04] t ∧ Woken .line s t))

/-- WAKE, QUIET_IN and the warm-until (R154, R155, R156, R157, R158). That an event sent late still has its effect,
and one sent early or out of place changes nothing, is the model's choice (log entry 2). So is that a level of
QUIET_IN seen again changes nothing. -/
def Obligations.QuietHoursEnd : Prop :=
  (∀ (client : Byte) (tag : Half) (body : List Byte) (s : State), Reaches 1 client body s →
      (s.device = .quiet → ∃ t, exec (.wake client tag body) s = .next t ∧ SameExcept (portFields ++ quietFields) s t ∧
        Answers tag .done 0 [0x04] t ∧ Woken .wake s t) ∧
      (s.device = .warming → ∃ t, exec (.wake client tag body) s = .next t ∧ SameExcept portFields s t ∧
        Answers tag .done 0 [0x04] t) ∧
      (s.device ≠ .quiet → s.device ≠ .warming → ∃ t, exec (.wake client tag body) s = .next t ∧
        SameExcept portFields s t ∧ Answers tag .notNow 0 [] t)) ∧
    (∀ (level : Bool) (s : State),
      (level = s.quiet.line → exec (.quietInChange level) s = .next s) ∧
      (level = false → s.quiet.line = true → s.device = .quiet → s.quiet.mode = .whileLine →
        ∃ t, exec (.quietInChange level) s = .next t ∧ SameExcept quietFields s t ∧
          Woken .line (s.setQuiet { s.quiet with line := false }) t) ∧
      (level ≠ s.quiet.line → (level = false → s.device ≠ .quiet ∨ s.quiet.mode ≠ .whileLine) →
        (level = true → s.device = .unconfigured ∨ s.device = .quiet) →
        ∃ t, exec (.quietInChange level) s = .next t ∧ SameExcept [.quiet] s t ∧
          t.quiet = { s.quiet with line := level }) ∧
      (level = true → s.quiet.line = false → s.device = .running ∨ s.device = .starting ∨ s.device = .warming →
        ∃ t, exec (.quietInChange level) s = .next t ∧ SameExcept [.quiet, .sources] s t ∧
          t.quiet = { s.quiet with line := true } ∧ t.source 15 = (s.source 15).raise s.partTime 0 [0x03] ∧
          ∀ n, n ≠ 15 → t.source n = s.source n)) ∧
    ∀ (w : Nat) (s : State), s.device = .warming → s.quiet.warmUntil = some w →
      (s.partTime < w ∨ s.quiet.warmSet ≠ [] → exec .warmUntil s = .next s) ∧
      (w ≤ s.partTime → s.quiet.warmSet = [] →
        ∃ t, exec .warmUntil s = .next t ∧ SameExcept [.device, .quiet, .lamps, .sources] s t ∧ t.device = .running ∧
          t.quiet = { s.quiet with warmUntil := none } ∧
          t.source 15 = (s.source 15).raise s.partTime 0 [0x02] ∧ ∀ n, n ≠ 15 → t.source n = s.source n)

/-- How a segment begins a sweep, which head its next poll goes to, and what the poll carries (R72, R73, R105, R152,
R160, R161, R162, R166, R167, R168, R174). That a waiting poller resumes for a normal-rate head, that a sweep of heads
all passed over is counted, and that a sweep under way at a wake runs on as in QUIET, is the model's reading (log
entry 15). That an event sent late still has its effect, and one sent early or out of place changes nothing, is the
model's choice (log entry 2). -/
def Obligations.SweepsPollTheListedHeads : Prop :=
  ∀ (i : Nat) (s : State), i < 4 →
    let passed := PassedOver s i
    let begun := fun (t : State) => SameExcept [.segments] s t ∧ (∀ j, j ≠ i → t.segment j = s.segment j) ∧
      SweepBegun s i (s.segment i) (t.segment i)
    (s.device ≠ .unconfigured → (s.segment i).sweep = .awaitingStart →
      ∃ t, exec (.startupSweepBegin i) s = .next t ∧ begun t) ∧
    (s.device = .unconfigured ∨ (s.segment i).sweep ≠ .awaitingStart → exec (.startupSweepBegin i) s = .next s) ∧
    (s.device = .quiet → (s.segment i).sweep = .waiting → (∃ a ∈ s.listed i, ¬passed false a) →
      ∃ t, exec (.sweepResume i) s = .next t ∧ begun t) ∧
    (s.device ≠ .quiet ∨ (s.segment i).sweep ≠ .waiting ∨ (∀ a ∈ s.listed i, passed false a) →
      exec (.sweepResume i) s = .next s) ∧
    (s.device = .unconfigured ∨ (s.segment i).exchange.isSome = true ∨ (∀ todo, (s.segment i).sweep ≠ .sweeping todo) →
      exec (.pollBuild i) s = .next s) ∧
    ∀ g before a todo h, s.device ≠ .unconfigured → s.segment i = g → g.exchange = none →
      g.sweep = .sweeping (before ++ a :: todo) → (∀ b ∈ before, passed g.keepaliveTail b) →
      ¬passed g.keepaliveTail a → a < 32 → s.head i a = some h →
      ∃ t payload, exec (.pollBuild i) s = .next t ∧ SameExcept [.heads, .segments, .signs] s t ∧
        (h.kind ≠ .sign → t.signs = s.signs) ∧
        (∃ covered, covered = number 1 a ++ number 1 h.kind.code ++
            [if h.kind = .loop ∧ h.toggle = true then 0x01 else 0x00] ++ number 1 payload.length ++ payload ∧
          t.segment i = { g with sweep := .sweeping todo
                                 exchange := some { address := a, frame := [0xC5] ++ covered ++ [crc8 covered],
                                                    received := [], beforeWake := false, discarded := false } }) ∧
        (∀ j, j ≠ i → t.segment j = s.segment j) ∧
        (∀ j b, t.head j b = if 32 * j + b = 32 * i + a then
            some { h with lastPolled := some s.partTime, reference := some (h.reference.getD s.partTime) }
          else s.head j b) ∧
        (h.kind = .bay ∨ h.kind = .air ∨ h.kind = .loop → payload = []) ∧
        (h.kind = .fan → ∀ n f, fanOf i a s = some (n, f) → f.state ≠ .localControl →
          payload = number 1 f.commanded) ∧
        (h.kind = .lamp → ∀ n y, lampOf i a s = some (n, y) → payload = number 1 y.commanded) ∧
        (h.kind = .fan → (fanOf i a s = none ∨ ∃ n f, fanOf i a s = some (n, f) ∧ f.state = .localControl) →
          payload = []) ∧
        (h.kind = .lamp → lampOf i a s = none → payload = []) ∧
        (h.kind = .sign → signOf i a s = none → payload = [] ∧ t.signs = s.signs) ∧
        (h.kind = .sign → ∀ n r, signOf i a s = some (n, r) →
          payload = halfBytes (signOutput n r s).word ++ number 2 (signOutput n r s).count ∧
          t.signs = s.signs.put n { r with shown := r.shown.filter (showStands s), lastSent := some (signOutput n r s) })

/-- What bytes received in a response window do to the head, its block and the segment, and how the exchange's end
goes on (R157, R160, R161, R163, R165, R166, R168, R169, R171, R172, R173, R174). The ends of WARMING and STARTING
rest on R158 and R186 too. That the bytes of one window count together is the model's choice (log entry 35), and how
sweeps pass heads over is in part its reading (log entry 15). -/
def Obligations.AValidResponseIsStored : Prop :=
  ∀ (i : Nat) (s : State), i < 4 →
    ((s.segment i).exchange = none → ∀ bytes, exec (.responseAccepted i bytes) s = .next s) ∧
    ∀ (x : Exchange) (bytes : List Byte), (s.segment i).exchange = some x → x.address < 32 →
      let w := x.received ++ bytes
      let only := fun (y : Option Exchange) (t : State) => (∀ j, j ≠ i → t.segment j = s.segment j) ∧
        SameExcept [.segments] s t ∧ t.segment i = { s.segment i with exchange := y }
      ((∀ r, ¬ValidResponse x.address w r) →
        ∃ t, exec (.responseAccepted i bytes) s = .next t ∧ only (some { x with received := w }) t) ∧
      ∀ r, ValidResponse x.address w r →
        (x.discarded = true → ∃ t, exec (.responseAccepted i bytes) s = .next t ∧ only none t) ∧
        ∀ h, x.discarded = false → s.head i x.address = some h →
          let a := x.address
          let named := number 1 i ++ number 1 a ++ number 1 h.kind.code
          let now := some s.partTime
          let ended := s.putSegment i { s.segment i with exchange := none }
          let concluded := fun (v t : State) => exec (.responseAccepted i bytes) s = .next t ∧
            SameExcept (writes (.responseAccepted i bytes)) s t ∧ (t.segment i).exchange = none ∧
            (∀ j b, 32 * j + b ≠ 32 * i + a → t.head j b = s.head j b) ∧
            ExchangeConcluded i x (s.device = .warming) v t
          (r.kind = h.kind →
            let h' := { h with state := .live, misses := 0, lastValid := now, reference := now, status := some r.status,
                               lostSince := none, report := some { payload := r.payload, time := s.partTime } }
            let u := ended.setHeads (s.heads.put (32 * i + a) h')
            let u := if h.state = .lost then
                Machine.raise 7 (zonesServed i a h.kind s) (named ++ number 4 (h.lostSince.getD 0)) u
              else u
            let v := match h.kind with
              | .bay => bayReport i a r.payload u
              | .air => u
              | .loop =>
                let y := loopReport i a r.payload u
                y.setHeads (y.heads.put (32 * i + a) { h' with toggle := !h.toggle })
              | .fan => fanReport i a r.payload u
              | .lamp => lampReport i a h.wake r.payload u
              | .sign => signReport i a r.payload u
            ∃ t, concluded v t ∧ t.source 7 = u.source 7 ∧
              t.head i a = some (if h.kind = .loop then { h' with toggle := !h.toggle } else h')) ∧
          (r.kind ≠ h.kind →
            let h' := { h with state := .mismatch, misses := 0, lastValid := now, reference := now,
                               status := some r.status, lostSince := none, kindSeen := some r.kind }
            let u := ended.setHeads (s.heads.put (32 * i + a) h')
            let v := if h.state = .mismatch then u else headGone i a
              (Machine.raise 8 (zonesServed i a h.kind s) (named ++ number 1 r.kind.code) u)
            ∃ t, concluded v t ∧ t.head i a = some h' ∧
              t.source 8 = (if h.state = .mismatch then s.source 8 else
                (s.source 8).raise s.partTime (maskOf (zonesServed i a h.kind s)) (named ++ number 1 r.kind.code)))

/-- How a head goes SILENT and LOST, by a miss and by LOST_TIME_REACHED, what its fan does, and how the exchange's end
goes on (R103, R104, R114, R157, R160, R166, R169, R170, R172, R173, R174, R186). How sweeps pass heads over is in
part the model's reading (log entry 15). That an event sent late still has its effect, and one sent early or out of
place changes nothing, is the model's choice (log entry 2). -/
def Obligations.MissesAndTimeLoseAHead : Prop :=
  (∀ (i a : Nat) (h : Head) (s : State), i < 4 → a < 32 → s.head i a = some h →
      let lost := fun (m : Nat) => (h.state = .listed ∨ h.state = .live ∨ h.state = .silent) ∧ 3 ≤ m ∧
        ∃ r, h.reference = some r ∧ r + s.lostTime ≤ s.partTime
      let others := fun (t : State) => ∀ j b, 32 * j + b ≠ 32 * i + a → t.head j b = s.head j b
      let detail := number 1 i ++ number 1 a ++ number 1 h.kind.code ++ optBytes (number 4) h.lastValid
      let reported := fun (t : State) =>
        t.source 6 = (s.source 6).raise s.partTime (maskOf (zonesServed i a h.kind s)) detail
      let gone := fun (h' : Head) (u : State) => headGone i a
        (Machine.raise 6 (zonesServed i a h.kind s) detail (u.setHeads (s.heads.put (32 * i + a) h')))
      let ended := s.putSegment i { s.segment i with exchange := none }
      ((s.segment i).exchange = none → exec (.miss i) s = .next s) ∧
      (∀ x, (s.segment i).exchange = some x → x.address = a →
        let m := min 255 (h.misses + 1)
        let concluded := fun (h' : Head) (v t : State) => exec (.miss i) s = .next t ∧ SameExcept (writes (.miss i)) s t ∧
          others t ∧ (t.segment i).exchange = none ∧ t.head i a = some h' ∧
          ExchangeConcluded i x (s.device = .warming) v t
        (x.discarded = true → ∃ t, exec (.miss i) s = .next t ∧ SameExcept [.segments] s t ∧
          (∀ j, j ≠ i → t.segment j = s.segment j) ∧ t.segment i = { s.segment i with exchange := none }) ∧
        (x.discarded = false → ¬lost m →
          let h' := { h with misses := m, state := if h.state = .live ∧ 3 ≤ m then .silent else h.state }
          ∃ t, concluded h' (ended.setHeads (s.heads.put (32 * i + a) h')) t) ∧
        (x.discarded = false → lost m →
          let h' := { h with misses := m, state := .lost, lostSince := some s.partTime }
          ∃ t, concluded h' (gone h' ended) t ∧ reported t)) ∧
      (¬lost h.misses → exec (.lostTimeReached i a) s = .next s) ∧
      (lost h.misses →
        let h' := { h with state := .lost, lostSince := some s.partTime }
        ∃ t, exec (.lostTimeReached i a) s = .next t ∧ SameExcept (writes (.lostTimeReached i a)) s t ∧
          others t ∧ reported t ∧ t.head i a = some h' ∧ t = gone h' s)) ∧
    ∀ (i a : Nat) (s : State), s.fans.wf = true →
      let t := fanUnreached i a s
      ((∀ q ∈ s.fans, q.2.head ≠ { segment := i, address := a }) → t = s) ∧
      ∀ n f, (n, f) ∈ s.fans → f.head = { segment := i, address := a } →
        (∀ q ∈ s.fans, q.2.head = { segment := i, address := a } → q.1 = n) →
        (f.state = .lockedOut ∨ f.state = .unreached → t = s) ∧
        (f.state ≠ .lockedOut → f.state ≠ .unreached → SameExcept [.fans] s t ∧
          t.fans.find n = some { f with
            state := .unreached, commanded := 0, startEnds := none, rundownEnds := none, timeQueued := none
            target := if t.short f.zone = s.short f.zone then f.target else fanTarget t f } ∧
          ∀ m k, m ≠ n → s.fans.find m = some k → k.zone ≠ f.zone → k.assist ≠ some f.zone → k.state ≠ .queued →
            t.fans.find m = some k)

/-- Every step keeps the part's tables in canonical form (R1, R22, R49, R57, R70, R100, R119, R176). -/
def Obligations.TablesStayCanonical : Prop :=
  ∀ s t : State, TablesCanonical s → step s = .next t → TablesCanonical t

/-- Every step keeps the hold count at the number of holds and within 256, the settings in order, and fire states as
their flags (R36, R51, R93, R139). -/
def Obligations.LimitsAndOrdersAreKept : Prop :=
  ∀ s t : State, step s = .next t →
    (HoldsWithinLimit s ∧ SettingsOrdered s → HoldsWithinLimit t ∧ SettingsOrdered t) ∧
      (HoldsCounted s → HoldsCounted t) ∧ (FireMatchesFlags s → FireMatchesFlags t)
end

