-- ==== Sys2Proof/Laws/State.lean ====
section
/-!
SUPPORT. One lemma for each field of State under each named update: what the update writes, and that it leaves
every other field. No later proof unfolds a record update.
-/
namespace Sys2Proof.Machine

/-! ### The update of `pending` -/

@[simp] theorem State.setPending_pending (s : State) (x : List Instr) : (s.setPending x).pending = x := rfl
@[simp] theorem State.setPending_partTime (s : State) (x : List Instr) : (s.setPending x).partTime = s.partTime := rfl
@[simp] theorem State.setPending_resetCause (s : State) (x : List Instr) : (s.setPending x).resetCause = s.resetCause := rfl
@[simp] theorem State.setPending_device (s : State) (x : List Instr) : (s.setPending x).device = s.device := rfl
@[simp] theorem State.setPending_zones (s : State) (x : List Instr) : (s.setPending x).zones = s.zones := rfl
@[simp] theorem State.setPending_bays (s : State) (x : List Instr) : (s.setPending x).bays = s.bays := rfl
@[simp] theorem State.setPending_settleTime (s : State) (x : List Instr) : (s.setPending x).settleTime = s.settleTime := rfl
@[simp] theorem State.setPending_holdCount (s : State) (x : List Instr) : (s.setPending x).holdCount = s.holdCount := rfl
@[simp] theorem State.setPending_steers (s : State) (x : List Instr) : (s.setPending x).steers = s.steers := rfl
@[simp] theorem State.setPending_passages (s : State) (x : List Instr) : (s.setPending x).passages = s.passages := rfl
@[simp] theorem State.setPending_passageSettings (s : State) (x : List Instr) : (s.setPending x).passageSettings = s.passageSettings := rfl
@[simp] theorem State.setPending_signs (s : State) (x : List Instr) : (s.setPending x).signs = s.signs := rfl
@[simp] theorem State.setPending_patterns (s : State) (x : List Instr) : (s.setPending x).patterns = s.patterns := rfl
@[simp] theorem State.setPending_airSettings (s : State) (x : List Instr) : (s.setPending x).airSettings = s.airSettings := rfl
@[simp] theorem State.setPending_startTime (s : State) (x : List Instr) : (s.setPending x).startTime = s.startTime := rfl
@[simp] theorem State.setPending_nextEvaluation (s : State) (x : List Instr) : (s.setPending x).nextEvaluation = s.nextEvaluation := rfl
@[simp] theorem State.setPending_fans (s : State) (x : List Instr) : (s.setPending x).fans = s.fans := rfl
@[simp] theorem State.setPending_fanSettings (s : State) (x : List Instr) : (s.setPending x).fanSettings = s.fanSettings := rfl
@[simp] theorem State.setPending_lamps (s : State) (x : List Instr) : (s.setPending x).lamps = s.lamps := rfl
@[simp] theorem State.setPending_faultThreshold (s : State) (x : List Instr) : (s.setPending x).faultThreshold = s.faultThreshold := rfl
@[simp] theorem State.setPending_fireLine (s : State) (x : List Instr) : (s.setPending x).fireLine = s.fireLine := rfl
@[simp] theorem State.setPending_quiet (s : State) (x : List Instr) : (s.setPending x).quiet = s.quiet := rfl
@[simp] theorem State.setPending_heads (s : State) (x : List Instr) : (s.setPending x).heads = s.heads := rfl
@[simp] theorem State.setPending_segments (s : State) (x : List Instr) : (s.setPending x).segments = s.segments := rfl
@[simp] theorem State.setPending_lostTime (s : State) (x : List Instr) : (s.setPending x).lostTime = s.lostTime := rfl
@[simp] theorem State.setPending_clients (s : State) (x : List Instr) : (s.setPending x).clients = s.clients := rfl
@[simp] theorem State.setPending_sources (s : State) (x : List Instr) : (s.setPending x).sources = s.sources := rfl
@[simp] theorem State.setPending_fetchMask (s : State) (x : List Instr) : (s.setPending x).fetchMask = s.fetchMask := rfl
@[simp] theorem State.setPending_response (s : State) (x : List Instr) : (s.setPending x).response = s.response := rfl
@[simp] theorem State.setPending_miso (s : State) (x : List Instr) : (s.setPending x).miso = s.miso := rfl

/-! ### The update of `partTime` -/

@[simp] theorem State.setPartTime_pending (s : State) (x : Nat) : (s.setPartTime x).pending = s.pending := rfl
@[simp] theorem State.setPartTime_partTime (s : State) (x : Nat) : (s.setPartTime x).partTime = x := rfl
@[simp] theorem State.setPartTime_resetCause (s : State) (x : Nat) : (s.setPartTime x).resetCause = s.resetCause := rfl
@[simp] theorem State.setPartTime_device (s : State) (x : Nat) : (s.setPartTime x).device = s.device := rfl
@[simp] theorem State.setPartTime_zones (s : State) (x : Nat) : (s.setPartTime x).zones = s.zones := rfl
@[simp] theorem State.setPartTime_bays (s : State) (x : Nat) : (s.setPartTime x).bays = s.bays := rfl
@[simp] theorem State.setPartTime_settleTime (s : State) (x : Nat) : (s.setPartTime x).settleTime = s.settleTime := rfl
@[simp] theorem State.setPartTime_holdCount (s : State) (x : Nat) : (s.setPartTime x).holdCount = s.holdCount := rfl
@[simp] theorem State.setPartTime_steers (s : State) (x : Nat) : (s.setPartTime x).steers = s.steers := rfl
@[simp] theorem State.setPartTime_passages (s : State) (x : Nat) : (s.setPartTime x).passages = s.passages := rfl
@[simp] theorem State.setPartTime_passageSettings (s : State) (x : Nat) : (s.setPartTime x).passageSettings = s.passageSettings := rfl
@[simp] theorem State.setPartTime_signs (s : State) (x : Nat) : (s.setPartTime x).signs = s.signs := rfl
@[simp] theorem State.setPartTime_patterns (s : State) (x : Nat) : (s.setPartTime x).patterns = s.patterns := rfl
@[simp] theorem State.setPartTime_airSettings (s : State) (x : Nat) : (s.setPartTime x).airSettings = s.airSettings := rfl
@[simp] theorem State.setPartTime_startTime (s : State) (x : Nat) : (s.setPartTime x).startTime = s.startTime := rfl
@[simp] theorem State.setPartTime_nextEvaluation (s : State) (x : Nat) : (s.setPartTime x).nextEvaluation = s.nextEvaluation := rfl
@[simp] theorem State.setPartTime_fans (s : State) (x : Nat) : (s.setPartTime x).fans = s.fans := rfl
@[simp] theorem State.setPartTime_fanSettings (s : State) (x : Nat) : (s.setPartTime x).fanSettings = s.fanSettings := rfl
@[simp] theorem State.setPartTime_lamps (s : State) (x : Nat) : (s.setPartTime x).lamps = s.lamps := rfl
@[simp] theorem State.setPartTime_faultThreshold (s : State) (x : Nat) : (s.setPartTime x).faultThreshold = s.faultThreshold := rfl
@[simp] theorem State.setPartTime_fireLine (s : State) (x : Nat) : (s.setPartTime x).fireLine = s.fireLine := rfl
@[simp] theorem State.setPartTime_quiet (s : State) (x : Nat) : (s.setPartTime x).quiet = s.quiet := rfl
@[simp] theorem State.setPartTime_heads (s : State) (x : Nat) : (s.setPartTime x).heads = s.heads := rfl
@[simp] theorem State.setPartTime_segments (s : State) (x : Nat) : (s.setPartTime x).segments = s.segments := rfl
@[simp] theorem State.setPartTime_lostTime (s : State) (x : Nat) : (s.setPartTime x).lostTime = s.lostTime := rfl
@[simp] theorem State.setPartTime_clients (s : State) (x : Nat) : (s.setPartTime x).clients = s.clients := rfl
@[simp] theorem State.setPartTime_sources (s : State) (x : Nat) : (s.setPartTime x).sources = s.sources := rfl
@[simp] theorem State.setPartTime_fetchMask (s : State) (x : Nat) : (s.setPartTime x).fetchMask = s.fetchMask := rfl
@[simp] theorem State.setPartTime_response (s : State) (x : Nat) : (s.setPartTime x).response = s.response := rfl
@[simp] theorem State.setPartTime_miso (s : State) (x : Nat) : (s.setPartTime x).miso = s.miso := rfl

/-! ### The update of `resetCause` -/

@[simp] theorem State.setResetCause_pending (s : State) (x : ResetCause) : (s.setResetCause x).pending = s.pending := rfl
@[simp] theorem State.setResetCause_partTime (s : State) (x : ResetCause) : (s.setResetCause x).partTime = s.partTime := rfl
@[simp] theorem State.setResetCause_resetCause (s : State) (x : ResetCause) : (s.setResetCause x).resetCause = x := rfl
@[simp] theorem State.setResetCause_device (s : State) (x : ResetCause) : (s.setResetCause x).device = s.device := rfl
@[simp] theorem State.setResetCause_zones (s : State) (x : ResetCause) : (s.setResetCause x).zones = s.zones := rfl
@[simp] theorem State.setResetCause_bays (s : State) (x : ResetCause) : (s.setResetCause x).bays = s.bays := rfl
@[simp] theorem State.setResetCause_settleTime (s : State) (x : ResetCause) : (s.setResetCause x).settleTime = s.settleTime := rfl
@[simp] theorem State.setResetCause_holdCount (s : State) (x : ResetCause) : (s.setResetCause x).holdCount = s.holdCount := rfl
@[simp] theorem State.setResetCause_steers (s : State) (x : ResetCause) : (s.setResetCause x).steers = s.steers := rfl
@[simp] theorem State.setResetCause_passages (s : State) (x : ResetCause) : (s.setResetCause x).passages = s.passages := rfl
@[simp] theorem State.setResetCause_passageSettings (s : State) (x : ResetCause) : (s.setResetCause x).passageSettings = s.passageSettings := rfl
@[simp] theorem State.setResetCause_signs (s : State) (x : ResetCause) : (s.setResetCause x).signs = s.signs := rfl
@[simp] theorem State.setResetCause_patterns (s : State) (x : ResetCause) : (s.setResetCause x).patterns = s.patterns := rfl
@[simp] theorem State.setResetCause_airSettings (s : State) (x : ResetCause) : (s.setResetCause x).airSettings = s.airSettings := rfl
@[simp] theorem State.setResetCause_startTime (s : State) (x : ResetCause) : (s.setResetCause x).startTime = s.startTime := rfl
@[simp] theorem State.setResetCause_nextEvaluation (s : State) (x : ResetCause) : (s.setResetCause x).nextEvaluation = s.nextEvaluation := rfl
@[simp] theorem State.setResetCause_fans (s : State) (x : ResetCause) : (s.setResetCause x).fans = s.fans := rfl
@[simp] theorem State.setResetCause_fanSettings (s : State) (x : ResetCause) : (s.setResetCause x).fanSettings = s.fanSettings := rfl
@[simp] theorem State.setResetCause_lamps (s : State) (x : ResetCause) : (s.setResetCause x).lamps = s.lamps := rfl
@[simp] theorem State.setResetCause_faultThreshold (s : State) (x : ResetCause) : (s.setResetCause x).faultThreshold = s.faultThreshold := rfl
@[simp] theorem State.setResetCause_fireLine (s : State) (x : ResetCause) : (s.setResetCause x).fireLine = s.fireLine := rfl
@[simp] theorem State.setResetCause_quiet (s : State) (x : ResetCause) : (s.setResetCause x).quiet = s.quiet := rfl
@[simp] theorem State.setResetCause_heads (s : State) (x : ResetCause) : (s.setResetCause x).heads = s.heads := rfl
@[simp] theorem State.setResetCause_segments (s : State) (x : ResetCause) : (s.setResetCause x).segments = s.segments := rfl
@[simp] theorem State.setResetCause_lostTime (s : State) (x : ResetCause) : (s.setResetCause x).lostTime = s.lostTime := rfl
@[simp] theorem State.setResetCause_clients (s : State) (x : ResetCause) : (s.setResetCause x).clients = s.clients := rfl
@[simp] theorem State.setResetCause_sources (s : State) (x : ResetCause) : (s.setResetCause x).sources = s.sources := rfl
@[simp] theorem State.setResetCause_fetchMask (s : State) (x : ResetCause) : (s.setResetCause x).fetchMask = s.fetchMask := rfl
@[simp] theorem State.setResetCause_response (s : State) (x : ResetCause) : (s.setResetCause x).response = s.response := rfl
@[simp] theorem State.setResetCause_miso (s : State) (x : ResetCause) : (s.setResetCause x).miso = s.miso := rfl

/-! ### The update of `device` -/

@[simp] theorem State.setDevice_pending (s : State) (x : DeviceState) : (s.setDevice x).pending = s.pending := rfl
@[simp] theorem State.setDevice_partTime (s : State) (x : DeviceState) : (s.setDevice x).partTime = s.partTime := rfl
@[simp] theorem State.setDevice_resetCause (s : State) (x : DeviceState) : (s.setDevice x).resetCause = s.resetCause := rfl
@[simp] theorem State.setDevice_device (s : State) (x : DeviceState) : (s.setDevice x).device = x := rfl
@[simp] theorem State.setDevice_zones (s : State) (x : DeviceState) : (s.setDevice x).zones = s.zones := rfl
@[simp] theorem State.setDevice_bays (s : State) (x : DeviceState) : (s.setDevice x).bays = s.bays := rfl
@[simp] theorem State.setDevice_settleTime (s : State) (x : DeviceState) : (s.setDevice x).settleTime = s.settleTime := rfl
@[simp] theorem State.setDevice_holdCount (s : State) (x : DeviceState) : (s.setDevice x).holdCount = s.holdCount := rfl
@[simp] theorem State.setDevice_steers (s : State) (x : DeviceState) : (s.setDevice x).steers = s.steers := rfl
@[simp] theorem State.setDevice_passages (s : State) (x : DeviceState) : (s.setDevice x).passages = s.passages := rfl
@[simp] theorem State.setDevice_passageSettings (s : State) (x : DeviceState) : (s.setDevice x).passageSettings = s.passageSettings := rfl
@[simp] theorem State.setDevice_signs (s : State) (x : DeviceState) : (s.setDevice x).signs = s.signs := rfl
@[simp] theorem State.setDevice_patterns (s : State) (x : DeviceState) : (s.setDevice x).patterns = s.patterns := rfl
@[simp] theorem State.setDevice_airSettings (s : State) (x : DeviceState) : (s.setDevice x).airSettings = s.airSettings := rfl
@[simp] theorem State.setDevice_startTime (s : State) (x : DeviceState) : (s.setDevice x).startTime = s.startTime := rfl
@[simp] theorem State.setDevice_nextEvaluation (s : State) (x : DeviceState) : (s.setDevice x).nextEvaluation = s.nextEvaluation := rfl
@[simp] theorem State.setDevice_fans (s : State) (x : DeviceState) : (s.setDevice x).fans = s.fans := rfl
@[simp] theorem State.setDevice_fanSettings (s : State) (x : DeviceState) : (s.setDevice x).fanSettings = s.fanSettings := rfl
@[simp] theorem State.setDevice_lamps (s : State) (x : DeviceState) : (s.setDevice x).lamps = s.lamps := rfl
@[simp] theorem State.setDevice_faultThreshold (s : State) (x : DeviceState) : (s.setDevice x).faultThreshold = s.faultThreshold := rfl
@[simp] theorem State.setDevice_fireLine (s : State) (x : DeviceState) : (s.setDevice x).fireLine = s.fireLine := rfl
@[simp] theorem State.setDevice_quiet (s : State) (x : DeviceState) : (s.setDevice x).quiet = s.quiet := rfl
@[simp] theorem State.setDevice_heads (s : State) (x : DeviceState) : (s.setDevice x).heads = s.heads := rfl
@[simp] theorem State.setDevice_segments (s : State) (x : DeviceState) : (s.setDevice x).segments = s.segments := rfl
@[simp] theorem State.setDevice_lostTime (s : State) (x : DeviceState) : (s.setDevice x).lostTime = s.lostTime := rfl
@[simp] theorem State.setDevice_clients (s : State) (x : DeviceState) : (s.setDevice x).clients = s.clients := rfl
@[simp] theorem State.setDevice_sources (s : State) (x : DeviceState) : (s.setDevice x).sources = s.sources := rfl
@[simp] theorem State.setDevice_fetchMask (s : State) (x : DeviceState) : (s.setDevice x).fetchMask = s.fetchMask := rfl
@[simp] theorem State.setDevice_response (s : State) (x : DeviceState) : (s.setDevice x).response = s.response := rfl
@[simp] theorem State.setDevice_miso (s : State) (x : DeviceState) : (s.setDevice x).miso = s.miso := rfl

/-! ### The update of `zones` -/

@[simp] theorem State.setZones_pending (s : State) (x : Table Zone) : (s.setZones x).pending = s.pending := rfl
@[simp] theorem State.setZones_partTime (s : State) (x : Table Zone) : (s.setZones x).partTime = s.partTime := rfl
@[simp] theorem State.setZones_resetCause (s : State) (x : Table Zone) : (s.setZones x).resetCause = s.resetCause := rfl
@[simp] theorem State.setZones_device (s : State) (x : Table Zone) : (s.setZones x).device = s.device := rfl
@[simp] theorem State.setZones_zones (s : State) (x : Table Zone) : (s.setZones x).zones = x := rfl
@[simp] theorem State.setZones_bays (s : State) (x : Table Zone) : (s.setZones x).bays = s.bays := rfl
@[simp] theorem State.setZones_settleTime (s : State) (x : Table Zone) : (s.setZones x).settleTime = s.settleTime := rfl
@[simp] theorem State.setZones_holdCount (s : State) (x : Table Zone) : (s.setZones x).holdCount = s.holdCount := rfl
@[simp] theorem State.setZones_steers (s : State) (x : Table Zone) : (s.setZones x).steers = s.steers := rfl
@[simp] theorem State.setZones_passages (s : State) (x : Table Zone) : (s.setZones x).passages = s.passages := rfl
@[simp] theorem State.setZones_passageSettings (s : State) (x : Table Zone) : (s.setZones x).passageSettings = s.passageSettings := rfl
@[simp] theorem State.setZones_signs (s : State) (x : Table Zone) : (s.setZones x).signs = s.signs := rfl
@[simp] theorem State.setZones_patterns (s : State) (x : Table Zone) : (s.setZones x).patterns = s.patterns := rfl
@[simp] theorem State.setZones_airSettings (s : State) (x : Table Zone) : (s.setZones x).airSettings = s.airSettings := rfl
@[simp] theorem State.setZones_startTime (s : State) (x : Table Zone) : (s.setZones x).startTime = s.startTime := rfl
@[simp] theorem State.setZones_nextEvaluation (s : State) (x : Table Zone) : (s.setZones x).nextEvaluation = s.nextEvaluation := rfl
@[simp] theorem State.setZones_fans (s : State) (x : Table Zone) : (s.setZones x).fans = s.fans := rfl
@[simp] theorem State.setZones_fanSettings (s : State) (x : Table Zone) : (s.setZones x).fanSettings = s.fanSettings := rfl
@[simp] theorem State.setZones_lamps (s : State) (x : Table Zone) : (s.setZones x).lamps = s.lamps := rfl
@[simp] theorem State.setZones_faultThreshold (s : State) (x : Table Zone) : (s.setZones x).faultThreshold = s.faultThreshold := rfl
@[simp] theorem State.setZones_fireLine (s : State) (x : Table Zone) : (s.setZones x).fireLine = s.fireLine := rfl
@[simp] theorem State.setZones_quiet (s : State) (x : Table Zone) : (s.setZones x).quiet = s.quiet := rfl
@[simp] theorem State.setZones_heads (s : State) (x : Table Zone) : (s.setZones x).heads = s.heads := rfl
@[simp] theorem State.setZones_segments (s : State) (x : Table Zone) : (s.setZones x).segments = s.segments := rfl
@[simp] theorem State.setZones_lostTime (s : State) (x : Table Zone) : (s.setZones x).lostTime = s.lostTime := rfl
@[simp] theorem State.setZones_clients (s : State) (x : Table Zone) : (s.setZones x).clients = s.clients := rfl
@[simp] theorem State.setZones_sources (s : State) (x : Table Zone) : (s.setZones x).sources = s.sources := rfl
@[simp] theorem State.setZones_fetchMask (s : State) (x : Table Zone) : (s.setZones x).fetchMask = s.fetchMask := rfl
@[simp] theorem State.setZones_response (s : State) (x : Table Zone) : (s.setZones x).response = s.response := rfl
@[simp] theorem State.setZones_miso (s : State) (x : Table Zone) : (s.setZones x).miso = s.miso := rfl

/-! ### The update of `bays` -/

@[simp] theorem State.setBays_pending (s : State) (x : Table Bay) : (s.setBays x).pending = s.pending := rfl
@[simp] theorem State.setBays_partTime (s : State) (x : Table Bay) : (s.setBays x).partTime = s.partTime := rfl
@[simp] theorem State.setBays_resetCause (s : State) (x : Table Bay) : (s.setBays x).resetCause = s.resetCause := rfl
@[simp] theorem State.setBays_device (s : State) (x : Table Bay) : (s.setBays x).device = s.device := rfl
@[simp] theorem State.setBays_zones (s : State) (x : Table Bay) : (s.setBays x).zones = s.zones := rfl
@[simp] theorem State.setBays_bays (s : State) (x : Table Bay) : (s.setBays x).bays = x := rfl
@[simp] theorem State.setBays_settleTime (s : State) (x : Table Bay) : (s.setBays x).settleTime = s.settleTime := rfl
@[simp] theorem State.setBays_holdCount (s : State) (x : Table Bay) : (s.setBays x).holdCount = s.holdCount := rfl
@[simp] theorem State.setBays_steers (s : State) (x : Table Bay) : (s.setBays x).steers = s.steers := rfl
@[simp] theorem State.setBays_passages (s : State) (x : Table Bay) : (s.setBays x).passages = s.passages := rfl
@[simp] theorem State.setBays_passageSettings (s : State) (x : Table Bay) : (s.setBays x).passageSettings = s.passageSettings := rfl
@[simp] theorem State.setBays_signs (s : State) (x : Table Bay) : (s.setBays x).signs = s.signs := rfl
@[simp] theorem State.setBays_patterns (s : State) (x : Table Bay) : (s.setBays x).patterns = s.patterns := rfl
@[simp] theorem State.setBays_airSettings (s : State) (x : Table Bay) : (s.setBays x).airSettings = s.airSettings := rfl
@[simp] theorem State.setBays_startTime (s : State) (x : Table Bay) : (s.setBays x).startTime = s.startTime := rfl
@[simp] theorem State.setBays_nextEvaluation (s : State) (x : Table Bay) : (s.setBays x).nextEvaluation = s.nextEvaluation := rfl
@[simp] theorem State.setBays_fans (s : State) (x : Table Bay) : (s.setBays x).fans = s.fans := rfl
@[simp] theorem State.setBays_fanSettings (s : State) (x : Table Bay) : (s.setBays x).fanSettings = s.fanSettings := rfl
@[simp] theorem State.setBays_lamps (s : State) (x : Table Bay) : (s.setBays x).lamps = s.lamps := rfl
@[simp] theorem State.setBays_faultThreshold (s : State) (x : Table Bay) : (s.setBays x).faultThreshold = s.faultThreshold := rfl
@[simp] theorem State.setBays_fireLine (s : State) (x : Table Bay) : (s.setBays x).fireLine = s.fireLine := rfl
@[simp] theorem State.setBays_quiet (s : State) (x : Table Bay) : (s.setBays x).quiet = s.quiet := rfl
@[simp] theorem State.setBays_heads (s : State) (x : Table Bay) : (s.setBays x).heads = s.heads := rfl
@[simp] theorem State.setBays_segments (s : State) (x : Table Bay) : (s.setBays x).segments = s.segments := rfl
@[simp] theorem State.setBays_lostTime (s : State) (x : Table Bay) : (s.setBays x).lostTime = s.lostTime := rfl
@[simp] theorem State.setBays_clients (s : State) (x : Table Bay) : (s.setBays x).clients = s.clients := rfl
@[simp] theorem State.setBays_sources (s : State) (x : Table Bay) : (s.setBays x).sources = s.sources := rfl
@[simp] theorem State.setBays_fetchMask (s : State) (x : Table Bay) : (s.setBays x).fetchMask = s.fetchMask := rfl
@[simp] theorem State.setBays_response (s : State) (x : Table Bay) : (s.setBays x).response = s.response := rfl
@[simp] theorem State.setBays_miso (s : State) (x : Table Bay) : (s.setBays x).miso = s.miso := rfl

/-! ### The update of `settleTime` -/

@[simp] theorem State.setSettleTime_pending (s : State) (x : Nat) : (s.setSettleTime x).pending = s.pending := rfl
@[simp] theorem State.setSettleTime_partTime (s : State) (x : Nat) : (s.setSettleTime x).partTime = s.partTime := rfl
@[simp] theorem State.setSettleTime_resetCause (s : State) (x : Nat) : (s.setSettleTime x).resetCause = s.resetCause := rfl
@[simp] theorem State.setSettleTime_device (s : State) (x : Nat) : (s.setSettleTime x).device = s.device := rfl
@[simp] theorem State.setSettleTime_zones (s : State) (x : Nat) : (s.setSettleTime x).zones = s.zones := rfl
@[simp] theorem State.setSettleTime_bays (s : State) (x : Nat) : (s.setSettleTime x).bays = s.bays := rfl
@[simp] theorem State.setSettleTime_settleTime (s : State) (x : Nat) : (s.setSettleTime x).settleTime = x := rfl
@[simp] theorem State.setSettleTime_holdCount (s : State) (x : Nat) : (s.setSettleTime x).holdCount = s.holdCount := rfl
@[simp] theorem State.setSettleTime_steers (s : State) (x : Nat) : (s.setSettleTime x).steers = s.steers := rfl
@[simp] theorem State.setSettleTime_passages (s : State) (x : Nat) : (s.setSettleTime x).passages = s.passages := rfl
@[simp] theorem State.setSettleTime_passageSettings (s : State) (x : Nat) : (s.setSettleTime x).passageSettings = s.passageSettings := rfl
@[simp] theorem State.setSettleTime_signs (s : State) (x : Nat) : (s.setSettleTime x).signs = s.signs := rfl
@[simp] theorem State.setSettleTime_patterns (s : State) (x : Nat) : (s.setSettleTime x).patterns = s.patterns := rfl
@[simp] theorem State.setSettleTime_airSettings (s : State) (x : Nat) : (s.setSettleTime x).airSettings = s.airSettings := rfl
@[simp] theorem State.setSettleTime_startTime (s : State) (x : Nat) : (s.setSettleTime x).startTime = s.startTime := rfl
@[simp] theorem State.setSettleTime_nextEvaluation (s : State) (x : Nat) : (s.setSettleTime x).nextEvaluation = s.nextEvaluation := rfl
@[simp] theorem State.setSettleTime_fans (s : State) (x : Nat) : (s.setSettleTime x).fans = s.fans := rfl
@[simp] theorem State.setSettleTime_fanSettings (s : State) (x : Nat) : (s.setSettleTime x).fanSettings = s.fanSettings := rfl
@[simp] theorem State.setSettleTime_lamps (s : State) (x : Nat) : (s.setSettleTime x).lamps = s.lamps := rfl
@[simp] theorem State.setSettleTime_faultThreshold (s : State) (x : Nat) : (s.setSettleTime x).faultThreshold = s.faultThreshold := rfl
@[simp] theorem State.setSettleTime_fireLine (s : State) (x : Nat) : (s.setSettleTime x).fireLine = s.fireLine := rfl
@[simp] theorem State.setSettleTime_quiet (s : State) (x : Nat) : (s.setSettleTime x).quiet = s.quiet := rfl
@[simp] theorem State.setSettleTime_heads (s : State) (x : Nat) : (s.setSettleTime x).heads = s.heads := rfl
@[simp] theorem State.setSettleTime_segments (s : State) (x : Nat) : (s.setSettleTime x).segments = s.segments := rfl
@[simp] theorem State.setSettleTime_lostTime (s : State) (x : Nat) : (s.setSettleTime x).lostTime = s.lostTime := rfl
@[simp] theorem State.setSettleTime_clients (s : State) (x : Nat) : (s.setSettleTime x).clients = s.clients := rfl
@[simp] theorem State.setSettleTime_sources (s : State) (x : Nat) : (s.setSettleTime x).sources = s.sources := rfl
@[simp] theorem State.setSettleTime_fetchMask (s : State) (x : Nat) : (s.setSettleTime x).fetchMask = s.fetchMask := rfl
@[simp] theorem State.setSettleTime_response (s : State) (x : Nat) : (s.setSettleTime x).response = s.response := rfl
@[simp] theorem State.setSettleTime_miso (s : State) (x : Nat) : (s.setSettleTime x).miso = s.miso := rfl

/-! ### The update of `holdCount` -/

@[simp] theorem State.setHoldCount_pending (s : State) (x : Nat) : (s.setHoldCount x).pending = s.pending := rfl
@[simp] theorem State.setHoldCount_partTime (s : State) (x : Nat) : (s.setHoldCount x).partTime = s.partTime := rfl
@[simp] theorem State.setHoldCount_resetCause (s : State) (x : Nat) : (s.setHoldCount x).resetCause = s.resetCause := rfl
@[simp] theorem State.setHoldCount_device (s : State) (x : Nat) : (s.setHoldCount x).device = s.device := rfl
@[simp] theorem State.setHoldCount_zones (s : State) (x : Nat) : (s.setHoldCount x).zones = s.zones := rfl
@[simp] theorem State.setHoldCount_bays (s : State) (x : Nat) : (s.setHoldCount x).bays = s.bays := rfl
@[simp] theorem State.setHoldCount_settleTime (s : State) (x : Nat) : (s.setHoldCount x).settleTime = s.settleTime := rfl
@[simp] theorem State.setHoldCount_holdCount (s : State) (x : Nat) : (s.setHoldCount x).holdCount = x := rfl
@[simp] theorem State.setHoldCount_steers (s : State) (x : Nat) : (s.setHoldCount x).steers = s.steers := rfl
@[simp] theorem State.setHoldCount_passages (s : State) (x : Nat) : (s.setHoldCount x).passages = s.passages := rfl
@[simp] theorem State.setHoldCount_passageSettings (s : State) (x : Nat) : (s.setHoldCount x).passageSettings = s.passageSettings := rfl
@[simp] theorem State.setHoldCount_signs (s : State) (x : Nat) : (s.setHoldCount x).signs = s.signs := rfl
@[simp] theorem State.setHoldCount_patterns (s : State) (x : Nat) : (s.setHoldCount x).patterns = s.patterns := rfl
@[simp] theorem State.setHoldCount_airSettings (s : State) (x : Nat) : (s.setHoldCount x).airSettings = s.airSettings := rfl
@[simp] theorem State.setHoldCount_startTime (s : State) (x : Nat) : (s.setHoldCount x).startTime = s.startTime := rfl
@[simp] theorem State.setHoldCount_nextEvaluation (s : State) (x : Nat) : (s.setHoldCount x).nextEvaluation = s.nextEvaluation := rfl
@[simp] theorem State.setHoldCount_fans (s : State) (x : Nat) : (s.setHoldCount x).fans = s.fans := rfl
@[simp] theorem State.setHoldCount_fanSettings (s : State) (x : Nat) : (s.setHoldCount x).fanSettings = s.fanSettings := rfl
@[simp] theorem State.setHoldCount_lamps (s : State) (x : Nat) : (s.setHoldCount x).lamps = s.lamps := rfl
@[simp] theorem State.setHoldCount_faultThreshold (s : State) (x : Nat) : (s.setHoldCount x).faultThreshold = s.faultThreshold := rfl
@[simp] theorem State.setHoldCount_fireLine (s : State) (x : Nat) : (s.setHoldCount x).fireLine = s.fireLine := rfl
@[simp] theorem State.setHoldCount_quiet (s : State) (x : Nat) : (s.setHoldCount x).quiet = s.quiet := rfl
@[simp] theorem State.setHoldCount_heads (s : State) (x : Nat) : (s.setHoldCount x).heads = s.heads := rfl
@[simp] theorem State.setHoldCount_segments (s : State) (x : Nat) : (s.setHoldCount x).segments = s.segments := rfl
@[simp] theorem State.setHoldCount_lostTime (s : State) (x : Nat) : (s.setHoldCount x).lostTime = s.lostTime := rfl
@[simp] theorem State.setHoldCount_clients (s : State) (x : Nat) : (s.setHoldCount x).clients = s.clients := rfl
@[simp] theorem State.setHoldCount_sources (s : State) (x : Nat) : (s.setHoldCount x).sources = s.sources := rfl
@[simp] theorem State.setHoldCount_fetchMask (s : State) (x : Nat) : (s.setHoldCount x).fetchMask = s.fetchMask := rfl
@[simp] theorem State.setHoldCount_response (s : State) (x : Nat) : (s.setHoldCount x).response = s.response := rfl
@[simp] theorem State.setHoldCount_miso (s : State) (x : Nat) : (s.setHoldCount x).miso = s.miso := rfl

/-! ### The update of `steers` -/

@[simp] theorem State.setSteers_pending (s : State) (x : Table Steer) : (s.setSteers x).pending = s.pending := rfl
@[simp] theorem State.setSteers_partTime (s : State) (x : Table Steer) : (s.setSteers x).partTime = s.partTime := rfl
@[simp] theorem State.setSteers_resetCause (s : State) (x : Table Steer) : (s.setSteers x).resetCause = s.resetCause := rfl
@[simp] theorem State.setSteers_device (s : State) (x : Table Steer) : (s.setSteers x).device = s.device := rfl
@[simp] theorem State.setSteers_zones (s : State) (x : Table Steer) : (s.setSteers x).zones = s.zones := rfl
@[simp] theorem State.setSteers_bays (s : State) (x : Table Steer) : (s.setSteers x).bays = s.bays := rfl
@[simp] theorem State.setSteers_settleTime (s : State) (x : Table Steer) : (s.setSteers x).settleTime = s.settleTime := rfl
@[simp] theorem State.setSteers_holdCount (s : State) (x : Table Steer) : (s.setSteers x).holdCount = s.holdCount := rfl
@[simp] theorem State.setSteers_steers (s : State) (x : Table Steer) : (s.setSteers x).steers = x := rfl
@[simp] theorem State.setSteers_passages (s : State) (x : Table Steer) : (s.setSteers x).passages = s.passages := rfl
@[simp] theorem State.setSteers_passageSettings (s : State) (x : Table Steer) : (s.setSteers x).passageSettings = s.passageSettings := rfl
@[simp] theorem State.setSteers_signs (s : State) (x : Table Steer) : (s.setSteers x).signs = s.signs := rfl
@[simp] theorem State.setSteers_patterns (s : State) (x : Table Steer) : (s.setSteers x).patterns = s.patterns := rfl
@[simp] theorem State.setSteers_airSettings (s : State) (x : Table Steer) : (s.setSteers x).airSettings = s.airSettings := rfl
@[simp] theorem State.setSteers_startTime (s : State) (x : Table Steer) : (s.setSteers x).startTime = s.startTime := rfl
@[simp] theorem State.setSteers_nextEvaluation (s : State) (x : Table Steer) : (s.setSteers x).nextEvaluation = s.nextEvaluation := rfl
@[simp] theorem State.setSteers_fans (s : State) (x : Table Steer) : (s.setSteers x).fans = s.fans := rfl
@[simp] theorem State.setSteers_fanSettings (s : State) (x : Table Steer) : (s.setSteers x).fanSettings = s.fanSettings := rfl
@[simp] theorem State.setSteers_lamps (s : State) (x : Table Steer) : (s.setSteers x).lamps = s.lamps := rfl
@[simp] theorem State.setSteers_faultThreshold (s : State) (x : Table Steer) : (s.setSteers x).faultThreshold = s.faultThreshold := rfl
@[simp] theorem State.setSteers_fireLine (s : State) (x : Table Steer) : (s.setSteers x).fireLine = s.fireLine := rfl
@[simp] theorem State.setSteers_quiet (s : State) (x : Table Steer) : (s.setSteers x).quiet = s.quiet := rfl
@[simp] theorem State.setSteers_heads (s : State) (x : Table Steer) : (s.setSteers x).heads = s.heads := rfl
@[simp] theorem State.setSteers_segments (s : State) (x : Table Steer) : (s.setSteers x).segments = s.segments := rfl
@[simp] theorem State.setSteers_lostTime (s : State) (x : Table Steer) : (s.setSteers x).lostTime = s.lostTime := rfl
@[simp] theorem State.setSteers_clients (s : State) (x : Table Steer) : (s.setSteers x).clients = s.clients := rfl
@[simp] theorem State.setSteers_sources (s : State) (x : Table Steer) : (s.setSteers x).sources = s.sources := rfl
@[simp] theorem State.setSteers_fetchMask (s : State) (x : Table Steer) : (s.setSteers x).fetchMask = s.fetchMask := rfl
@[simp] theorem State.setSteers_response (s : State) (x : Table Steer) : (s.setSteers x).response = s.response := rfl
@[simp] theorem State.setSteers_miso (s : State) (x : Table Steer) : (s.setSteers x).miso = s.miso := rfl

/-! ### The update of `passages` -/

@[simp] theorem State.setPassages_pending (s : State) (x : Table Passage) : (s.setPassages x).pending = s.pending := rfl
@[simp] theorem State.setPassages_partTime (s : State) (x : Table Passage) : (s.setPassages x).partTime = s.partTime := rfl
@[simp] theorem State.setPassages_resetCause (s : State) (x : Table Passage) : (s.setPassages x).resetCause = s.resetCause := rfl
@[simp] theorem State.setPassages_device (s : State) (x : Table Passage) : (s.setPassages x).device = s.device := rfl
@[simp] theorem State.setPassages_zones (s : State) (x : Table Passage) : (s.setPassages x).zones = s.zones := rfl
@[simp] theorem State.setPassages_bays (s : State) (x : Table Passage) : (s.setPassages x).bays = s.bays := rfl
@[simp] theorem State.setPassages_settleTime (s : State) (x : Table Passage) : (s.setPassages x).settleTime = s.settleTime := rfl
@[simp] theorem State.setPassages_holdCount (s : State) (x : Table Passage) : (s.setPassages x).holdCount = s.holdCount := rfl
@[simp] theorem State.setPassages_steers (s : State) (x : Table Passage) : (s.setPassages x).steers = s.steers := rfl
@[simp] theorem State.setPassages_passages (s : State) (x : Table Passage) : (s.setPassages x).passages = x := rfl
@[simp] theorem State.setPassages_passageSettings (s : State) (x : Table Passage) : (s.setPassages x).passageSettings = s.passageSettings := rfl
@[simp] theorem State.setPassages_signs (s : State) (x : Table Passage) : (s.setPassages x).signs = s.signs := rfl
@[simp] theorem State.setPassages_patterns (s : State) (x : Table Passage) : (s.setPassages x).patterns = s.patterns := rfl
@[simp] theorem State.setPassages_airSettings (s : State) (x : Table Passage) : (s.setPassages x).airSettings = s.airSettings := rfl
@[simp] theorem State.setPassages_startTime (s : State) (x : Table Passage) : (s.setPassages x).startTime = s.startTime := rfl
@[simp] theorem State.setPassages_nextEvaluation (s : State) (x : Table Passage) : (s.setPassages x).nextEvaluation = s.nextEvaluation := rfl
@[simp] theorem State.setPassages_fans (s : State) (x : Table Passage) : (s.setPassages x).fans = s.fans := rfl
@[simp] theorem State.setPassages_fanSettings (s : State) (x : Table Passage) : (s.setPassages x).fanSettings = s.fanSettings := rfl
@[simp] theorem State.setPassages_lamps (s : State) (x : Table Passage) : (s.setPassages x).lamps = s.lamps := rfl
@[simp] theorem State.setPassages_faultThreshold (s : State) (x : Table Passage) : (s.setPassages x).faultThreshold = s.faultThreshold := rfl
@[simp] theorem State.setPassages_fireLine (s : State) (x : Table Passage) : (s.setPassages x).fireLine = s.fireLine := rfl
@[simp] theorem State.setPassages_quiet (s : State) (x : Table Passage) : (s.setPassages x).quiet = s.quiet := rfl
@[simp] theorem State.setPassages_heads (s : State) (x : Table Passage) : (s.setPassages x).heads = s.heads := rfl
@[simp] theorem State.setPassages_segments (s : State) (x : Table Passage) : (s.setPassages x).segments = s.segments := rfl
@[simp] theorem State.setPassages_lostTime (s : State) (x : Table Passage) : (s.setPassages x).lostTime = s.lostTime := rfl
@[simp] theorem State.setPassages_clients (s : State) (x : Table Passage) : (s.setPassages x).clients = s.clients := rfl
@[simp] theorem State.setPassages_sources (s : State) (x : Table Passage) : (s.setPassages x).sources = s.sources := rfl
@[simp] theorem State.setPassages_fetchMask (s : State) (x : Table Passage) : (s.setPassages x).fetchMask = s.fetchMask := rfl
@[simp] theorem State.setPassages_response (s : State) (x : Table Passage) : (s.setPassages x).response = s.response := rfl
@[simp] theorem State.setPassages_miso (s : State) (x : Table Passage) : (s.setPassages x).miso = s.miso := rfl

/-! ### The update of `passageSettings` -/

@[simp] theorem State.setPassageSettings_pending (s : State) (x : PassageSettings) : (s.setPassageSettings x).pending = s.pending := rfl
@[simp] theorem State.setPassageSettings_partTime (s : State) (x : PassageSettings) : (s.setPassageSettings x).partTime = s.partTime := rfl
@[simp] theorem State.setPassageSettings_resetCause (s : State) (x : PassageSettings) : (s.setPassageSettings x).resetCause = s.resetCause := rfl
@[simp] theorem State.setPassageSettings_device (s : State) (x : PassageSettings) : (s.setPassageSettings x).device = s.device := rfl
@[simp] theorem State.setPassageSettings_zones (s : State) (x : PassageSettings) : (s.setPassageSettings x).zones = s.zones := rfl
@[simp] theorem State.setPassageSettings_bays (s : State) (x : PassageSettings) : (s.setPassageSettings x).bays = s.bays := rfl
@[simp] theorem State.setPassageSettings_settleTime (s : State) (x : PassageSettings) : (s.setPassageSettings x).settleTime = s.settleTime := rfl
@[simp] theorem State.setPassageSettings_holdCount (s : State) (x : PassageSettings) : (s.setPassageSettings x).holdCount = s.holdCount := rfl
@[simp] theorem State.setPassageSettings_steers (s : State) (x : PassageSettings) : (s.setPassageSettings x).steers = s.steers := rfl
@[simp] theorem State.setPassageSettings_passages (s : State) (x : PassageSettings) : (s.setPassageSettings x).passages = s.passages := rfl
@[simp] theorem State.setPassageSettings_passageSettings (s : State) (x : PassageSettings) : (s.setPassageSettings x).passageSettings = x := rfl
@[simp] theorem State.setPassageSettings_signs (s : State) (x : PassageSettings) : (s.setPassageSettings x).signs = s.signs := rfl
@[simp] theorem State.setPassageSettings_patterns (s : State) (x : PassageSettings) : (s.setPassageSettings x).patterns = s.patterns := rfl
@[simp] theorem State.setPassageSettings_airSettings (s : State) (x : PassageSettings) : (s.setPassageSettings x).airSettings = s.airSettings := rfl
@[simp] theorem State.setPassageSettings_startTime (s : State) (x : PassageSettings) : (s.setPassageSettings x).startTime = s.startTime := rfl
@[simp] theorem State.setPassageSettings_nextEvaluation (s : State) (x : PassageSettings) : (s.setPassageSettings x).nextEvaluation = s.nextEvaluation := rfl
@[simp] theorem State.setPassageSettings_fans (s : State) (x : PassageSettings) : (s.setPassageSettings x).fans = s.fans := rfl
@[simp] theorem State.setPassageSettings_fanSettings (s : State) (x : PassageSettings) : (s.setPassageSettings x).fanSettings = s.fanSettings := rfl
@[simp] theorem State.setPassageSettings_lamps (s : State) (x : PassageSettings) : (s.setPassageSettings x).lamps = s.lamps := rfl
@[simp] theorem State.setPassageSettings_faultThreshold (s : State) (x : PassageSettings) : (s.setPassageSettings x).faultThreshold = s.faultThreshold := rfl
@[simp] theorem State.setPassageSettings_fireLine (s : State) (x : PassageSettings) : (s.setPassageSettings x).fireLine = s.fireLine := rfl
@[simp] theorem State.setPassageSettings_quiet (s : State) (x : PassageSettings) : (s.setPassageSettings x).quiet = s.quiet := rfl
@[simp] theorem State.setPassageSettings_heads (s : State) (x : PassageSettings) : (s.setPassageSettings x).heads = s.heads := rfl
@[simp] theorem State.setPassageSettings_segments (s : State) (x : PassageSettings) : (s.setPassageSettings x).segments = s.segments := rfl
@[simp] theorem State.setPassageSettings_lostTime (s : State) (x : PassageSettings) : (s.setPassageSettings x).lostTime = s.lostTime := rfl
@[simp] theorem State.setPassageSettings_clients (s : State) (x : PassageSettings) : (s.setPassageSettings x).clients = s.clients := rfl
@[simp] theorem State.setPassageSettings_sources (s : State) (x : PassageSettings) : (s.setPassageSettings x).sources = s.sources := rfl
@[simp] theorem State.setPassageSettings_fetchMask (s : State) (x : PassageSettings) : (s.setPassageSettings x).fetchMask = s.fetchMask := rfl
@[simp] theorem State.setPassageSettings_response (s : State) (x : PassageSettings) : (s.setPassageSettings x).response = s.response := rfl
@[simp] theorem State.setPassageSettings_miso (s : State) (x : PassageSettings) : (s.setPassageSettings x).miso = s.miso := rfl

/-! ### The update of `signs` -/

@[simp] theorem State.setSigns_pending (s : State) (x : Table Sign) : (s.setSigns x).pending = s.pending := rfl
@[simp] theorem State.setSigns_partTime (s : State) (x : Table Sign) : (s.setSigns x).partTime = s.partTime := rfl
@[simp] theorem State.setSigns_resetCause (s : State) (x : Table Sign) : (s.setSigns x).resetCause = s.resetCause := rfl
@[simp] theorem State.setSigns_device (s : State) (x : Table Sign) : (s.setSigns x).device = s.device := rfl
@[simp] theorem State.setSigns_zones (s : State) (x : Table Sign) : (s.setSigns x).zones = s.zones := rfl
@[simp] theorem State.setSigns_bays (s : State) (x : Table Sign) : (s.setSigns x).bays = s.bays := rfl
@[simp] theorem State.setSigns_settleTime (s : State) (x : Table Sign) : (s.setSigns x).settleTime = s.settleTime := rfl
@[simp] theorem State.setSigns_holdCount (s : State) (x : Table Sign) : (s.setSigns x).holdCount = s.holdCount := rfl
@[simp] theorem State.setSigns_steers (s : State) (x : Table Sign) : (s.setSigns x).steers = s.steers := rfl
@[simp] theorem State.setSigns_passages (s : State) (x : Table Sign) : (s.setSigns x).passages = s.passages := rfl
@[simp] theorem State.setSigns_passageSettings (s : State) (x : Table Sign) : (s.setSigns x).passageSettings = s.passageSettings := rfl
@[simp] theorem State.setSigns_signs (s : State) (x : Table Sign) : (s.setSigns x).signs = x := rfl
@[simp] theorem State.setSigns_patterns (s : State) (x : Table Sign) : (s.setSigns x).patterns = s.patterns := rfl
@[simp] theorem State.setSigns_airSettings (s : State) (x : Table Sign) : (s.setSigns x).airSettings = s.airSettings := rfl
@[simp] theorem State.setSigns_startTime (s : State) (x : Table Sign) : (s.setSigns x).startTime = s.startTime := rfl
@[simp] theorem State.setSigns_nextEvaluation (s : State) (x : Table Sign) : (s.setSigns x).nextEvaluation = s.nextEvaluation := rfl
@[simp] theorem State.setSigns_fans (s : State) (x : Table Sign) : (s.setSigns x).fans = s.fans := rfl
@[simp] theorem State.setSigns_fanSettings (s : State) (x : Table Sign) : (s.setSigns x).fanSettings = s.fanSettings := rfl
@[simp] theorem State.setSigns_lamps (s : State) (x : Table Sign) : (s.setSigns x).lamps = s.lamps := rfl
@[simp] theorem State.setSigns_faultThreshold (s : State) (x : Table Sign) : (s.setSigns x).faultThreshold = s.faultThreshold := rfl
@[simp] theorem State.setSigns_fireLine (s : State) (x : Table Sign) : (s.setSigns x).fireLine = s.fireLine := rfl
@[simp] theorem State.setSigns_quiet (s : State) (x : Table Sign) : (s.setSigns x).quiet = s.quiet := rfl
@[simp] theorem State.setSigns_heads (s : State) (x : Table Sign) : (s.setSigns x).heads = s.heads := rfl
@[simp] theorem State.setSigns_segments (s : State) (x : Table Sign) : (s.setSigns x).segments = s.segments := rfl
@[simp] theorem State.setSigns_lostTime (s : State) (x : Table Sign) : (s.setSigns x).lostTime = s.lostTime := rfl
@[simp] theorem State.setSigns_clients (s : State) (x : Table Sign) : (s.setSigns x).clients = s.clients := rfl
@[simp] theorem State.setSigns_sources (s : State) (x : Table Sign) : (s.setSigns x).sources = s.sources := rfl
@[simp] theorem State.setSigns_fetchMask (s : State) (x : Table Sign) : (s.setSigns x).fetchMask = s.fetchMask := rfl
@[simp] theorem State.setSigns_response (s : State) (x : Table Sign) : (s.setSigns x).response = s.response := rfl
@[simp] theorem State.setSigns_miso (s : State) (x : Table Sign) : (s.setSigns x).miso = s.miso := rfl

/-! ### The update of `patterns` -/

@[simp] theorem State.setPatterns_pending (s : State) (x : Vector Pattern 32) : (s.setPatterns x).pending = s.pending := rfl
@[simp] theorem State.setPatterns_partTime (s : State) (x : Vector Pattern 32) : (s.setPatterns x).partTime = s.partTime := rfl
@[simp] theorem State.setPatterns_resetCause (s : State) (x : Vector Pattern 32) : (s.setPatterns x).resetCause = s.resetCause := rfl
@[simp] theorem State.setPatterns_device (s : State) (x : Vector Pattern 32) : (s.setPatterns x).device = s.device := rfl
@[simp] theorem State.setPatterns_zones (s : State) (x : Vector Pattern 32) : (s.setPatterns x).zones = s.zones := rfl
@[simp] theorem State.setPatterns_bays (s : State) (x : Vector Pattern 32) : (s.setPatterns x).bays = s.bays := rfl
@[simp] theorem State.setPatterns_settleTime (s : State) (x : Vector Pattern 32) : (s.setPatterns x).settleTime = s.settleTime := rfl
@[simp] theorem State.setPatterns_holdCount (s : State) (x : Vector Pattern 32) : (s.setPatterns x).holdCount = s.holdCount := rfl
@[simp] theorem State.setPatterns_steers (s : State) (x : Vector Pattern 32) : (s.setPatterns x).steers = s.steers := rfl
@[simp] theorem State.setPatterns_passages (s : State) (x : Vector Pattern 32) : (s.setPatterns x).passages = s.passages := rfl
@[simp] theorem State.setPatterns_passageSettings (s : State) (x : Vector Pattern 32) : (s.setPatterns x).passageSettings = s.passageSettings := rfl
@[simp] theorem State.setPatterns_signs (s : State) (x : Vector Pattern 32) : (s.setPatterns x).signs = s.signs := rfl
@[simp] theorem State.setPatterns_patterns (s : State) (x : Vector Pattern 32) : (s.setPatterns x).patterns = x := rfl
@[simp] theorem State.setPatterns_airSettings (s : State) (x : Vector Pattern 32) : (s.setPatterns x).airSettings = s.airSettings := rfl
@[simp] theorem State.setPatterns_startTime (s : State) (x : Vector Pattern 32) : (s.setPatterns x).startTime = s.startTime := rfl
@[simp] theorem State.setPatterns_nextEvaluation (s : State) (x : Vector Pattern 32) : (s.setPatterns x).nextEvaluation = s.nextEvaluation := rfl
@[simp] theorem State.setPatterns_fans (s : State) (x : Vector Pattern 32) : (s.setPatterns x).fans = s.fans := rfl
@[simp] theorem State.setPatterns_fanSettings (s : State) (x : Vector Pattern 32) : (s.setPatterns x).fanSettings = s.fanSettings := rfl
@[simp] theorem State.setPatterns_lamps (s : State) (x : Vector Pattern 32) : (s.setPatterns x).lamps = s.lamps := rfl
@[simp] theorem State.setPatterns_faultThreshold (s : State) (x : Vector Pattern 32) : (s.setPatterns x).faultThreshold = s.faultThreshold := rfl
@[simp] theorem State.setPatterns_fireLine (s : State) (x : Vector Pattern 32) : (s.setPatterns x).fireLine = s.fireLine := rfl
@[simp] theorem State.setPatterns_quiet (s : State) (x : Vector Pattern 32) : (s.setPatterns x).quiet = s.quiet := rfl
@[simp] theorem State.setPatterns_heads (s : State) (x : Vector Pattern 32) : (s.setPatterns x).heads = s.heads := rfl
@[simp] theorem State.setPatterns_segments (s : State) (x : Vector Pattern 32) : (s.setPatterns x).segments = s.segments := rfl
@[simp] theorem State.setPatterns_lostTime (s : State) (x : Vector Pattern 32) : (s.setPatterns x).lostTime = s.lostTime := rfl
@[simp] theorem State.setPatterns_clients (s : State) (x : Vector Pattern 32) : (s.setPatterns x).clients = s.clients := rfl
@[simp] theorem State.setPatterns_sources (s : State) (x : Vector Pattern 32) : (s.setPatterns x).sources = s.sources := rfl
@[simp] theorem State.setPatterns_fetchMask (s : State) (x : Vector Pattern 32) : (s.setPatterns x).fetchMask = s.fetchMask := rfl
@[simp] theorem State.setPatterns_response (s : State) (x : Vector Pattern 32) : (s.setPatterns x).response = s.response := rfl
@[simp] theorem State.setPatterns_miso (s : State) (x : Vector Pattern 32) : (s.setPatterns x).miso = s.miso := rfl

/-! ### The update of `airSettings` -/

@[simp] theorem State.setAirSettings_pending (s : State) (x : AirSettings) : (s.setAirSettings x).pending = s.pending := rfl
@[simp] theorem State.setAirSettings_partTime (s : State) (x : AirSettings) : (s.setAirSettings x).partTime = s.partTime := rfl
@[simp] theorem State.setAirSettings_resetCause (s : State) (x : AirSettings) : (s.setAirSettings x).resetCause = s.resetCause := rfl
@[simp] theorem State.setAirSettings_device (s : State) (x : AirSettings) : (s.setAirSettings x).device = s.device := rfl
@[simp] theorem State.setAirSettings_zones (s : State) (x : AirSettings) : (s.setAirSettings x).zones = s.zones := rfl
@[simp] theorem State.setAirSettings_bays (s : State) (x : AirSettings) : (s.setAirSettings x).bays = s.bays := rfl
@[simp] theorem State.setAirSettings_settleTime (s : State) (x : AirSettings) : (s.setAirSettings x).settleTime = s.settleTime := rfl
@[simp] theorem State.setAirSettings_holdCount (s : State) (x : AirSettings) : (s.setAirSettings x).holdCount = s.holdCount := rfl
@[simp] theorem State.setAirSettings_steers (s : State) (x : AirSettings) : (s.setAirSettings x).steers = s.steers := rfl
@[simp] theorem State.setAirSettings_passages (s : State) (x : AirSettings) : (s.setAirSettings x).passages = s.passages := rfl
@[simp] theorem State.setAirSettings_passageSettings (s : State) (x : AirSettings) : (s.setAirSettings x).passageSettings = s.passageSettings := rfl
@[simp] theorem State.setAirSettings_signs (s : State) (x : AirSettings) : (s.setAirSettings x).signs = s.signs := rfl
@[simp] theorem State.setAirSettings_patterns (s : State) (x : AirSettings) : (s.setAirSettings x).patterns = s.patterns := rfl
@[simp] theorem State.setAirSettings_airSettings (s : State) (x : AirSettings) : (s.setAirSettings x).airSettings = x := rfl
@[simp] theorem State.setAirSettings_startTime (s : State) (x : AirSettings) : (s.setAirSettings x).startTime = s.startTime := rfl
@[simp] theorem State.setAirSettings_nextEvaluation (s : State) (x : AirSettings) : (s.setAirSettings x).nextEvaluation = s.nextEvaluation := rfl
@[simp] theorem State.setAirSettings_fans (s : State) (x : AirSettings) : (s.setAirSettings x).fans = s.fans := rfl
@[simp] theorem State.setAirSettings_fanSettings (s : State) (x : AirSettings) : (s.setAirSettings x).fanSettings = s.fanSettings := rfl
@[simp] theorem State.setAirSettings_lamps (s : State) (x : AirSettings) : (s.setAirSettings x).lamps = s.lamps := rfl
@[simp] theorem State.setAirSettings_faultThreshold (s : State) (x : AirSettings) : (s.setAirSettings x).faultThreshold = s.faultThreshold := rfl
@[simp] theorem State.setAirSettings_fireLine (s : State) (x : AirSettings) : (s.setAirSettings x).fireLine = s.fireLine := rfl
@[simp] theorem State.setAirSettings_quiet (s : State) (x : AirSettings) : (s.setAirSettings x).quiet = s.quiet := rfl
@[simp] theorem State.setAirSettings_heads (s : State) (x : AirSettings) : (s.setAirSettings x).heads = s.heads := rfl
@[simp] theorem State.setAirSettings_segments (s : State) (x : AirSettings) : (s.setAirSettings x).segments = s.segments := rfl
@[simp] theorem State.setAirSettings_lostTime (s : State) (x : AirSettings) : (s.setAirSettings x).lostTime = s.lostTime := rfl
@[simp] theorem State.setAirSettings_clients (s : State) (x : AirSettings) : (s.setAirSettings x).clients = s.clients := rfl
@[simp] theorem State.setAirSettings_sources (s : State) (x : AirSettings) : (s.setAirSettings x).sources = s.sources := rfl
@[simp] theorem State.setAirSettings_fetchMask (s : State) (x : AirSettings) : (s.setAirSettings x).fetchMask = s.fetchMask := rfl
@[simp] theorem State.setAirSettings_response (s : State) (x : AirSettings) : (s.setAirSettings x).response = s.response := rfl
@[simp] theorem State.setAirSettings_miso (s : State) (x : AirSettings) : (s.setAirSettings x).miso = s.miso := rfl

/-! ### The update of `startTime` -/

@[simp] theorem State.setStartTime_pending (s : State) (x : Nat) : (s.setStartTime x).pending = s.pending := rfl
@[simp] theorem State.setStartTime_partTime (s : State) (x : Nat) : (s.setStartTime x).partTime = s.partTime := rfl
@[simp] theorem State.setStartTime_resetCause (s : State) (x : Nat) : (s.setStartTime x).resetCause = s.resetCause := rfl
@[simp] theorem State.setStartTime_device (s : State) (x : Nat) : (s.setStartTime x).device = s.device := rfl
@[simp] theorem State.setStartTime_zones (s : State) (x : Nat) : (s.setStartTime x).zones = s.zones := rfl
@[simp] theorem State.setStartTime_bays (s : State) (x : Nat) : (s.setStartTime x).bays = s.bays := rfl
@[simp] theorem State.setStartTime_settleTime (s : State) (x : Nat) : (s.setStartTime x).settleTime = s.settleTime := rfl
@[simp] theorem State.setStartTime_holdCount (s : State) (x : Nat) : (s.setStartTime x).holdCount = s.holdCount := rfl
@[simp] theorem State.setStartTime_steers (s : State) (x : Nat) : (s.setStartTime x).steers = s.steers := rfl
@[simp] theorem State.setStartTime_passages (s : State) (x : Nat) : (s.setStartTime x).passages = s.passages := rfl
@[simp] theorem State.setStartTime_passageSettings (s : State) (x : Nat) : (s.setStartTime x).passageSettings = s.passageSettings := rfl
@[simp] theorem State.setStartTime_signs (s : State) (x : Nat) : (s.setStartTime x).signs = s.signs := rfl
@[simp] theorem State.setStartTime_patterns (s : State) (x : Nat) : (s.setStartTime x).patterns = s.patterns := rfl
@[simp] theorem State.setStartTime_airSettings (s : State) (x : Nat) : (s.setStartTime x).airSettings = s.airSettings := rfl
@[simp] theorem State.setStartTime_startTime (s : State) (x : Nat) : (s.setStartTime x).startTime = x := rfl
@[simp] theorem State.setStartTime_nextEvaluation (s : State) (x : Nat) : (s.setStartTime x).nextEvaluation = s.nextEvaluation := rfl
@[simp] theorem State.setStartTime_fans (s : State) (x : Nat) : (s.setStartTime x).fans = s.fans := rfl
@[simp] theorem State.setStartTime_fanSettings (s : State) (x : Nat) : (s.setStartTime x).fanSettings = s.fanSettings := rfl
@[simp] theorem State.setStartTime_lamps (s : State) (x : Nat) : (s.setStartTime x).lamps = s.lamps := rfl
@[simp] theorem State.setStartTime_faultThreshold (s : State) (x : Nat) : (s.setStartTime x).faultThreshold = s.faultThreshold := rfl
@[simp] theorem State.setStartTime_fireLine (s : State) (x : Nat) : (s.setStartTime x).fireLine = s.fireLine := rfl
@[simp] theorem State.setStartTime_quiet (s : State) (x : Nat) : (s.setStartTime x).quiet = s.quiet := rfl
@[simp] theorem State.setStartTime_heads (s : State) (x : Nat) : (s.setStartTime x).heads = s.heads := rfl
@[simp] theorem State.setStartTime_segments (s : State) (x : Nat) : (s.setStartTime x).segments = s.segments := rfl
@[simp] theorem State.setStartTime_lostTime (s : State) (x : Nat) : (s.setStartTime x).lostTime = s.lostTime := rfl
@[simp] theorem State.setStartTime_clients (s : State) (x : Nat) : (s.setStartTime x).clients = s.clients := rfl
@[simp] theorem State.setStartTime_sources (s : State) (x : Nat) : (s.setStartTime x).sources = s.sources := rfl
@[simp] theorem State.setStartTime_fetchMask (s : State) (x : Nat) : (s.setStartTime x).fetchMask = s.fetchMask := rfl
@[simp] theorem State.setStartTime_response (s : State) (x : Nat) : (s.setStartTime x).response = s.response := rfl
@[simp] theorem State.setStartTime_miso (s : State) (x : Nat) : (s.setStartTime x).miso = s.miso := rfl

/-! ### The update of `nextEvaluation` -/

@[simp] theorem State.setNextEvaluation_pending (s : State) (x : Option Nat) : (s.setNextEvaluation x).pending = s.pending := rfl
@[simp] theorem State.setNextEvaluation_partTime (s : State) (x : Option Nat) : (s.setNextEvaluation x).partTime = s.partTime := rfl
@[simp] theorem State.setNextEvaluation_resetCause (s : State) (x : Option Nat) : (s.setNextEvaluation x).resetCause = s.resetCause := rfl
@[simp] theorem State.setNextEvaluation_device (s : State) (x : Option Nat) : (s.setNextEvaluation x).device = s.device := rfl
@[simp] theorem State.setNextEvaluation_zones (s : State) (x : Option Nat) : (s.setNextEvaluation x).zones = s.zones := rfl
@[simp] theorem State.setNextEvaluation_bays (s : State) (x : Option Nat) : (s.setNextEvaluation x).bays = s.bays := rfl
@[simp] theorem State.setNextEvaluation_settleTime (s : State) (x : Option Nat) : (s.setNextEvaluation x).settleTime = s.settleTime := rfl
@[simp] theorem State.setNextEvaluation_holdCount (s : State) (x : Option Nat) : (s.setNextEvaluation x).holdCount = s.holdCount := rfl
@[simp] theorem State.setNextEvaluation_steers (s : State) (x : Option Nat) : (s.setNextEvaluation x).steers = s.steers := rfl
@[simp] theorem State.setNextEvaluation_passages (s : State) (x : Option Nat) : (s.setNextEvaluation x).passages = s.passages := rfl
@[simp] theorem State.setNextEvaluation_passageSettings (s : State) (x : Option Nat) : (s.setNextEvaluation x).passageSettings = s.passageSettings := rfl
@[simp] theorem State.setNextEvaluation_signs (s : State) (x : Option Nat) : (s.setNextEvaluation x).signs = s.signs := rfl
@[simp] theorem State.setNextEvaluation_patterns (s : State) (x : Option Nat) : (s.setNextEvaluation x).patterns = s.patterns := rfl
@[simp] theorem State.setNextEvaluation_airSettings (s : State) (x : Option Nat) : (s.setNextEvaluation x).airSettings = s.airSettings := rfl
@[simp] theorem State.setNextEvaluation_startTime (s : State) (x : Option Nat) : (s.setNextEvaluation x).startTime = s.startTime := rfl
@[simp] theorem State.setNextEvaluation_nextEvaluation (s : State) (x : Option Nat) : (s.setNextEvaluation x).nextEvaluation = x := rfl
@[simp] theorem State.setNextEvaluation_fans (s : State) (x : Option Nat) : (s.setNextEvaluation x).fans = s.fans := rfl
@[simp] theorem State.setNextEvaluation_fanSettings (s : State) (x : Option Nat) : (s.setNextEvaluation x).fanSettings = s.fanSettings := rfl
@[simp] theorem State.setNextEvaluation_lamps (s : State) (x : Option Nat) : (s.setNextEvaluation x).lamps = s.lamps := rfl
@[simp] theorem State.setNextEvaluation_faultThreshold (s : State) (x : Option Nat) : (s.setNextEvaluation x).faultThreshold = s.faultThreshold := rfl
@[simp] theorem State.setNextEvaluation_fireLine (s : State) (x : Option Nat) : (s.setNextEvaluation x).fireLine = s.fireLine := rfl
@[simp] theorem State.setNextEvaluation_quiet (s : State) (x : Option Nat) : (s.setNextEvaluation x).quiet = s.quiet := rfl
@[simp] theorem State.setNextEvaluation_heads (s : State) (x : Option Nat) : (s.setNextEvaluation x).heads = s.heads := rfl
@[simp] theorem State.setNextEvaluation_segments (s : State) (x : Option Nat) : (s.setNextEvaluation x).segments = s.segments := rfl
@[simp] theorem State.setNextEvaluation_lostTime (s : State) (x : Option Nat) : (s.setNextEvaluation x).lostTime = s.lostTime := rfl
@[simp] theorem State.setNextEvaluation_clients (s : State) (x : Option Nat) : (s.setNextEvaluation x).clients = s.clients := rfl
@[simp] theorem State.setNextEvaluation_sources (s : State) (x : Option Nat) : (s.setNextEvaluation x).sources = s.sources := rfl
@[simp] theorem State.setNextEvaluation_fetchMask (s : State) (x : Option Nat) : (s.setNextEvaluation x).fetchMask = s.fetchMask := rfl
@[simp] theorem State.setNextEvaluation_response (s : State) (x : Option Nat) : (s.setNextEvaluation x).response = s.response := rfl
@[simp] theorem State.setNextEvaluation_miso (s : State) (x : Option Nat) : (s.setNextEvaluation x).miso = s.miso := rfl

/-! ### The update of `fans` -/

@[simp] theorem State.setFans_pending (s : State) (x : Table Fan) : (s.setFans x).pending = s.pending := rfl
@[simp] theorem State.setFans_partTime (s : State) (x : Table Fan) : (s.setFans x).partTime = s.partTime := rfl
@[simp] theorem State.setFans_resetCause (s : State) (x : Table Fan) : (s.setFans x).resetCause = s.resetCause := rfl
@[simp] theorem State.setFans_device (s : State) (x : Table Fan) : (s.setFans x).device = s.device := rfl
@[simp] theorem State.setFans_zones (s : State) (x : Table Fan) : (s.setFans x).zones = s.zones := rfl
@[simp] theorem State.setFans_bays (s : State) (x : Table Fan) : (s.setFans x).bays = s.bays := rfl
@[simp] theorem State.setFans_settleTime (s : State) (x : Table Fan) : (s.setFans x).settleTime = s.settleTime := rfl
@[simp] theorem State.setFans_holdCount (s : State) (x : Table Fan) : (s.setFans x).holdCount = s.holdCount := rfl
@[simp] theorem State.setFans_steers (s : State) (x : Table Fan) : (s.setFans x).steers = s.steers := rfl
@[simp] theorem State.setFans_passages (s : State) (x : Table Fan) : (s.setFans x).passages = s.passages := rfl
@[simp] theorem State.setFans_passageSettings (s : State) (x : Table Fan) : (s.setFans x).passageSettings = s.passageSettings := rfl
@[simp] theorem State.setFans_signs (s : State) (x : Table Fan) : (s.setFans x).signs = s.signs := rfl
@[simp] theorem State.setFans_patterns (s : State) (x : Table Fan) : (s.setFans x).patterns = s.patterns := rfl
@[simp] theorem State.setFans_airSettings (s : State) (x : Table Fan) : (s.setFans x).airSettings = s.airSettings := rfl
@[simp] theorem State.setFans_startTime (s : State) (x : Table Fan) : (s.setFans x).startTime = s.startTime := rfl
@[simp] theorem State.setFans_nextEvaluation (s : State) (x : Table Fan) : (s.setFans x).nextEvaluation = s.nextEvaluation := rfl
@[simp] theorem State.setFans_fans (s : State) (x : Table Fan) : (s.setFans x).fans = x := rfl
@[simp] theorem State.setFans_fanSettings (s : State) (x : Table Fan) : (s.setFans x).fanSettings = s.fanSettings := rfl
@[simp] theorem State.setFans_lamps (s : State) (x : Table Fan) : (s.setFans x).lamps = s.lamps := rfl
@[simp] theorem State.setFans_faultThreshold (s : State) (x : Table Fan) : (s.setFans x).faultThreshold = s.faultThreshold := rfl
@[simp] theorem State.setFans_fireLine (s : State) (x : Table Fan) : (s.setFans x).fireLine = s.fireLine := rfl
@[simp] theorem State.setFans_quiet (s : State) (x : Table Fan) : (s.setFans x).quiet = s.quiet := rfl
@[simp] theorem State.setFans_heads (s : State) (x : Table Fan) : (s.setFans x).heads = s.heads := rfl
@[simp] theorem State.setFans_segments (s : State) (x : Table Fan) : (s.setFans x).segments = s.segments := rfl
@[simp] theorem State.setFans_lostTime (s : State) (x : Table Fan) : (s.setFans x).lostTime = s.lostTime := rfl
@[simp] theorem State.setFans_clients (s : State) (x : Table Fan) : (s.setFans x).clients = s.clients := rfl
@[simp] theorem State.setFans_sources (s : State) (x : Table Fan) : (s.setFans x).sources = s.sources := rfl
@[simp] theorem State.setFans_fetchMask (s : State) (x : Table Fan) : (s.setFans x).fetchMask = s.fetchMask := rfl
@[simp] theorem State.setFans_response (s : State) (x : Table Fan) : (s.setFans x).response = s.response := rfl
@[simp] theorem State.setFans_miso (s : State) (x : Table Fan) : (s.setFans x).miso = s.miso := rfl

/-! ### The update of `fanSettings` -/

@[simp] theorem State.setFanSettings_pending (s : State) (x : FanSettings) : (s.setFanSettings x).pending = s.pending := rfl
@[simp] theorem State.setFanSettings_partTime (s : State) (x : FanSettings) : (s.setFanSettings x).partTime = s.partTime := rfl
@[simp] theorem State.setFanSettings_resetCause (s : State) (x : FanSettings) : (s.setFanSettings x).resetCause = s.resetCause := rfl
@[simp] theorem State.setFanSettings_device (s : State) (x : FanSettings) : (s.setFanSettings x).device = s.device := rfl
@[simp] theorem State.setFanSettings_zones (s : State) (x : FanSettings) : (s.setFanSettings x).zones = s.zones := rfl
@[simp] theorem State.setFanSettings_bays (s : State) (x : FanSettings) : (s.setFanSettings x).bays = s.bays := rfl
@[simp] theorem State.setFanSettings_settleTime (s : State) (x : FanSettings) : (s.setFanSettings x).settleTime = s.settleTime := rfl
@[simp] theorem State.setFanSettings_holdCount (s : State) (x : FanSettings) : (s.setFanSettings x).holdCount = s.holdCount := rfl
@[simp] theorem State.setFanSettings_steers (s : State) (x : FanSettings) : (s.setFanSettings x).steers = s.steers := rfl
@[simp] theorem State.setFanSettings_passages (s : State) (x : FanSettings) : (s.setFanSettings x).passages = s.passages := rfl
@[simp] theorem State.setFanSettings_passageSettings (s : State) (x : FanSettings) : (s.setFanSettings x).passageSettings = s.passageSettings := rfl
@[simp] theorem State.setFanSettings_signs (s : State) (x : FanSettings) : (s.setFanSettings x).signs = s.signs := rfl
@[simp] theorem State.setFanSettings_patterns (s : State) (x : FanSettings) : (s.setFanSettings x).patterns = s.patterns := rfl
@[simp] theorem State.setFanSettings_airSettings (s : State) (x : FanSettings) : (s.setFanSettings x).airSettings = s.airSettings := rfl
@[simp] theorem State.setFanSettings_startTime (s : State) (x : FanSettings) : (s.setFanSettings x).startTime = s.startTime := rfl
@[simp] theorem State.setFanSettings_nextEvaluation (s : State) (x : FanSettings) : (s.setFanSettings x).nextEvaluation = s.nextEvaluation := rfl
@[simp] theorem State.setFanSettings_fans (s : State) (x : FanSettings) : (s.setFanSettings x).fans = s.fans := rfl
@[simp] theorem State.setFanSettings_fanSettings (s : State) (x : FanSettings) : (s.setFanSettings x).fanSettings = x := rfl
@[simp] theorem State.setFanSettings_lamps (s : State) (x : FanSettings) : (s.setFanSettings x).lamps = s.lamps := rfl
@[simp] theorem State.setFanSettings_faultThreshold (s : State) (x : FanSettings) : (s.setFanSettings x).faultThreshold = s.faultThreshold := rfl
@[simp] theorem State.setFanSettings_fireLine (s : State) (x : FanSettings) : (s.setFanSettings x).fireLine = s.fireLine := rfl
@[simp] theorem State.setFanSettings_quiet (s : State) (x : FanSettings) : (s.setFanSettings x).quiet = s.quiet := rfl
@[simp] theorem State.setFanSettings_heads (s : State) (x : FanSettings) : (s.setFanSettings x).heads = s.heads := rfl
@[simp] theorem State.setFanSettings_segments (s : State) (x : FanSettings) : (s.setFanSettings x).segments = s.segments := rfl
@[simp] theorem State.setFanSettings_lostTime (s : State) (x : FanSettings) : (s.setFanSettings x).lostTime = s.lostTime := rfl
@[simp] theorem State.setFanSettings_clients (s : State) (x : FanSettings) : (s.setFanSettings x).clients = s.clients := rfl
@[simp] theorem State.setFanSettings_sources (s : State) (x : FanSettings) : (s.setFanSettings x).sources = s.sources := rfl
@[simp] theorem State.setFanSettings_fetchMask (s : State) (x : FanSettings) : (s.setFanSettings x).fetchMask = s.fetchMask := rfl
@[simp] theorem State.setFanSettings_response (s : State) (x : FanSettings) : (s.setFanSettings x).response = s.response := rfl
@[simp] theorem State.setFanSettings_miso (s : State) (x : FanSettings) : (s.setFanSettings x).miso = s.miso := rfl

/-! ### The update of `lamps` -/

@[simp] theorem State.setLamps_pending (s : State) (x : Table LampGroup) : (s.setLamps x).pending = s.pending := rfl
@[simp] theorem State.setLamps_partTime (s : State) (x : Table LampGroup) : (s.setLamps x).partTime = s.partTime := rfl
@[simp] theorem State.setLamps_resetCause (s : State) (x : Table LampGroup) : (s.setLamps x).resetCause = s.resetCause := rfl
@[simp] theorem State.setLamps_device (s : State) (x : Table LampGroup) : (s.setLamps x).device = s.device := rfl
@[simp] theorem State.setLamps_zones (s : State) (x : Table LampGroup) : (s.setLamps x).zones = s.zones := rfl
@[simp] theorem State.setLamps_bays (s : State) (x : Table LampGroup) : (s.setLamps x).bays = s.bays := rfl
@[simp] theorem State.setLamps_settleTime (s : State) (x : Table LampGroup) : (s.setLamps x).settleTime = s.settleTime := rfl
@[simp] theorem State.setLamps_holdCount (s : State) (x : Table LampGroup) : (s.setLamps x).holdCount = s.holdCount := rfl
@[simp] theorem State.setLamps_steers (s : State) (x : Table LampGroup) : (s.setLamps x).steers = s.steers := rfl
@[simp] theorem State.setLamps_passages (s : State) (x : Table LampGroup) : (s.setLamps x).passages = s.passages := rfl
@[simp] theorem State.setLamps_passageSettings (s : State) (x : Table LampGroup) : (s.setLamps x).passageSettings = s.passageSettings := rfl
@[simp] theorem State.setLamps_signs (s : State) (x : Table LampGroup) : (s.setLamps x).signs = s.signs := rfl
@[simp] theorem State.setLamps_patterns (s : State) (x : Table LampGroup) : (s.setLamps x).patterns = s.patterns := rfl
@[simp] theorem State.setLamps_airSettings (s : State) (x : Table LampGroup) : (s.setLamps x).airSettings = s.airSettings := rfl
@[simp] theorem State.setLamps_startTime (s : State) (x : Table LampGroup) : (s.setLamps x).startTime = s.startTime := rfl
@[simp] theorem State.setLamps_nextEvaluation (s : State) (x : Table LampGroup) : (s.setLamps x).nextEvaluation = s.nextEvaluation := rfl
@[simp] theorem State.setLamps_fans (s : State) (x : Table LampGroup) : (s.setLamps x).fans = s.fans := rfl
@[simp] theorem State.setLamps_fanSettings (s : State) (x : Table LampGroup) : (s.setLamps x).fanSettings = s.fanSettings := rfl
@[simp] theorem State.setLamps_lamps (s : State) (x : Table LampGroup) : (s.setLamps x).lamps = x := rfl
@[simp] theorem State.setLamps_faultThreshold (s : State) (x : Table LampGroup) : (s.setLamps x).faultThreshold = s.faultThreshold := rfl
@[simp] theorem State.setLamps_fireLine (s : State) (x : Table LampGroup) : (s.setLamps x).fireLine = s.fireLine := rfl
@[simp] theorem State.setLamps_quiet (s : State) (x : Table LampGroup) : (s.setLamps x).quiet = s.quiet := rfl
@[simp] theorem State.setLamps_heads (s : State) (x : Table LampGroup) : (s.setLamps x).heads = s.heads := rfl
@[simp] theorem State.setLamps_segments (s : State) (x : Table LampGroup) : (s.setLamps x).segments = s.segments := rfl
@[simp] theorem State.setLamps_lostTime (s : State) (x : Table LampGroup) : (s.setLamps x).lostTime = s.lostTime := rfl
@[simp] theorem State.setLamps_clients (s : State) (x : Table LampGroup) : (s.setLamps x).clients = s.clients := rfl
@[simp] theorem State.setLamps_sources (s : State) (x : Table LampGroup) : (s.setLamps x).sources = s.sources := rfl
@[simp] theorem State.setLamps_fetchMask (s : State) (x : Table LampGroup) : (s.setLamps x).fetchMask = s.fetchMask := rfl
@[simp] theorem State.setLamps_response (s : State) (x : Table LampGroup) : (s.setLamps x).response = s.response := rfl
@[simp] theorem State.setLamps_miso (s : State) (x : Table LampGroup) : (s.setLamps x).miso = s.miso := rfl

/-! ### The update of `faultThreshold` -/

@[simp] theorem State.setFaultThreshold_pending (s : State) (x : Nat) : (s.setFaultThreshold x).pending = s.pending := rfl
@[simp] theorem State.setFaultThreshold_partTime (s : State) (x : Nat) : (s.setFaultThreshold x).partTime = s.partTime := rfl
@[simp] theorem State.setFaultThreshold_resetCause (s : State) (x : Nat) : (s.setFaultThreshold x).resetCause = s.resetCause := rfl
@[simp] theorem State.setFaultThreshold_device (s : State) (x : Nat) : (s.setFaultThreshold x).device = s.device := rfl
@[simp] theorem State.setFaultThreshold_zones (s : State) (x : Nat) : (s.setFaultThreshold x).zones = s.zones := rfl
@[simp] theorem State.setFaultThreshold_bays (s : State) (x : Nat) : (s.setFaultThreshold x).bays = s.bays := rfl
@[simp] theorem State.setFaultThreshold_settleTime (s : State) (x : Nat) : (s.setFaultThreshold x).settleTime = s.settleTime := rfl
@[simp] theorem State.setFaultThreshold_holdCount (s : State) (x : Nat) : (s.setFaultThreshold x).holdCount = s.holdCount := rfl
@[simp] theorem State.setFaultThreshold_steers (s : State) (x : Nat) : (s.setFaultThreshold x).steers = s.steers := rfl
@[simp] theorem State.setFaultThreshold_passages (s : State) (x : Nat) : (s.setFaultThreshold x).passages = s.passages := rfl
@[simp] theorem State.setFaultThreshold_passageSettings (s : State) (x : Nat) : (s.setFaultThreshold x).passageSettings = s.passageSettings := rfl
@[simp] theorem State.setFaultThreshold_signs (s : State) (x : Nat) : (s.setFaultThreshold x).signs = s.signs := rfl
@[simp] theorem State.setFaultThreshold_patterns (s : State) (x : Nat) : (s.setFaultThreshold x).patterns = s.patterns := rfl
@[simp] theorem State.setFaultThreshold_airSettings (s : State) (x : Nat) : (s.setFaultThreshold x).airSettings = s.airSettings := rfl
@[simp] theorem State.setFaultThreshold_startTime (s : State) (x : Nat) : (s.setFaultThreshold x).startTime = s.startTime := rfl
@[simp] theorem State.setFaultThreshold_nextEvaluation (s : State) (x : Nat) : (s.setFaultThreshold x).nextEvaluation = s.nextEvaluation := rfl
@[simp] theorem State.setFaultThreshold_fans (s : State) (x : Nat) : (s.setFaultThreshold x).fans = s.fans := rfl
@[simp] theorem State.setFaultThreshold_fanSettings (s : State) (x : Nat) : (s.setFaultThreshold x).fanSettings = s.fanSettings := rfl
@[simp] theorem State.setFaultThreshold_lamps (s : State) (x : Nat) : (s.setFaultThreshold x).lamps = s.lamps := rfl
@[simp] theorem State.setFaultThreshold_faultThreshold (s : State) (x : Nat) : (s.setFaultThreshold x).faultThreshold = x := rfl
@[simp] theorem State.setFaultThreshold_fireLine (s : State) (x : Nat) : (s.setFaultThreshold x).fireLine = s.fireLine := rfl
@[simp] theorem State.setFaultThreshold_quiet (s : State) (x : Nat) : (s.setFaultThreshold x).quiet = s.quiet := rfl
@[simp] theorem State.setFaultThreshold_heads (s : State) (x : Nat) : (s.setFaultThreshold x).heads = s.heads := rfl
@[simp] theorem State.setFaultThreshold_segments (s : State) (x : Nat) : (s.setFaultThreshold x).segments = s.segments := rfl
@[simp] theorem State.setFaultThreshold_lostTime (s : State) (x : Nat) : (s.setFaultThreshold x).lostTime = s.lostTime := rfl
@[simp] theorem State.setFaultThreshold_clients (s : State) (x : Nat) : (s.setFaultThreshold x).clients = s.clients := rfl
@[simp] theorem State.setFaultThreshold_sources (s : State) (x : Nat) : (s.setFaultThreshold x).sources = s.sources := rfl
@[simp] theorem State.setFaultThreshold_fetchMask (s : State) (x : Nat) : (s.setFaultThreshold x).fetchMask = s.fetchMask := rfl
@[simp] theorem State.setFaultThreshold_response (s : State) (x : Nat) : (s.setFaultThreshold x).response = s.response := rfl
@[simp] theorem State.setFaultThreshold_miso (s : State) (x : Nat) : (s.setFaultThreshold x).miso = s.miso := rfl

/-! ### The update of `fireLine` -/

@[simp] theorem State.setFireLine_pending (s : State) (x : FireLine) : (s.setFireLine x).pending = s.pending := rfl
@[simp] theorem State.setFireLine_partTime (s : State) (x : FireLine) : (s.setFireLine x).partTime = s.partTime := rfl
@[simp] theorem State.setFireLine_resetCause (s : State) (x : FireLine) : (s.setFireLine x).resetCause = s.resetCause := rfl
@[simp] theorem State.setFireLine_device (s : State) (x : FireLine) : (s.setFireLine x).device = s.device := rfl
@[simp] theorem State.setFireLine_zones (s : State) (x : FireLine) : (s.setFireLine x).zones = s.zones := rfl
@[simp] theorem State.setFireLine_bays (s : State) (x : FireLine) : (s.setFireLine x).bays = s.bays := rfl
@[simp] theorem State.setFireLine_settleTime (s : State) (x : FireLine) : (s.setFireLine x).settleTime = s.settleTime := rfl
@[simp] theorem State.setFireLine_holdCount (s : State) (x : FireLine) : (s.setFireLine x).holdCount = s.holdCount := rfl
@[simp] theorem State.setFireLine_steers (s : State) (x : FireLine) : (s.setFireLine x).steers = s.steers := rfl
@[simp] theorem State.setFireLine_passages (s : State) (x : FireLine) : (s.setFireLine x).passages = s.passages := rfl
@[simp] theorem State.setFireLine_passageSettings (s : State) (x : FireLine) : (s.setFireLine x).passageSettings = s.passageSettings := rfl
@[simp] theorem State.setFireLine_signs (s : State) (x : FireLine) : (s.setFireLine x).signs = s.signs := rfl
@[simp] theorem State.setFireLine_patterns (s : State) (x : FireLine) : (s.setFireLine x).patterns = s.patterns := rfl
@[simp] theorem State.setFireLine_airSettings (s : State) (x : FireLine) : (s.setFireLine x).airSettings = s.airSettings := rfl
@[simp] theorem State.setFireLine_startTime (s : State) (x : FireLine) : (s.setFireLine x).startTime = s.startTime := rfl
@[simp] theorem State.setFireLine_nextEvaluation (s : State) (x : FireLine) : (s.setFireLine x).nextEvaluation = s.nextEvaluation := rfl
@[simp] theorem State.setFireLine_fans (s : State) (x : FireLine) : (s.setFireLine x).fans = s.fans := rfl
@[simp] theorem State.setFireLine_fanSettings (s : State) (x : FireLine) : (s.setFireLine x).fanSettings = s.fanSettings := rfl
@[simp] theorem State.setFireLine_lamps (s : State) (x : FireLine) : (s.setFireLine x).lamps = s.lamps := rfl
@[simp] theorem State.setFireLine_faultThreshold (s : State) (x : FireLine) : (s.setFireLine x).faultThreshold = s.faultThreshold := rfl
@[simp] theorem State.setFireLine_fireLine (s : State) (x : FireLine) : (s.setFireLine x).fireLine = x := rfl
@[simp] theorem State.setFireLine_quiet (s : State) (x : FireLine) : (s.setFireLine x).quiet = s.quiet := rfl
@[simp] theorem State.setFireLine_heads (s : State) (x : FireLine) : (s.setFireLine x).heads = s.heads := rfl
@[simp] theorem State.setFireLine_segments (s : State) (x : FireLine) : (s.setFireLine x).segments = s.segments := rfl
@[simp] theorem State.setFireLine_lostTime (s : State) (x : FireLine) : (s.setFireLine x).lostTime = s.lostTime := rfl
@[simp] theorem State.setFireLine_clients (s : State) (x : FireLine) : (s.setFireLine x).clients = s.clients := rfl
@[simp] theorem State.setFireLine_sources (s : State) (x : FireLine) : (s.setFireLine x).sources = s.sources := rfl
@[simp] theorem State.setFireLine_fetchMask (s : State) (x : FireLine) : (s.setFireLine x).fetchMask = s.fetchMask := rfl
@[simp] theorem State.setFireLine_response (s : State) (x : FireLine) : (s.setFireLine x).response = s.response := rfl
@[simp] theorem State.setFireLine_miso (s : State) (x : FireLine) : (s.setFireLine x).miso = s.miso := rfl

/-! ### The update of `quiet` -/

@[simp] theorem State.setQuiet_pending (s : State) (x : Quiet) : (s.setQuiet x).pending = s.pending := rfl
@[simp] theorem State.setQuiet_partTime (s : State) (x : Quiet) : (s.setQuiet x).partTime = s.partTime := rfl
@[simp] theorem State.setQuiet_resetCause (s : State) (x : Quiet) : (s.setQuiet x).resetCause = s.resetCause := rfl
@[simp] theorem State.setQuiet_device (s : State) (x : Quiet) : (s.setQuiet x).device = s.device := rfl
@[simp] theorem State.setQuiet_zones (s : State) (x : Quiet) : (s.setQuiet x).zones = s.zones := rfl
@[simp] theorem State.setQuiet_bays (s : State) (x : Quiet) : (s.setQuiet x).bays = s.bays := rfl
@[simp] theorem State.setQuiet_settleTime (s : State) (x : Quiet) : (s.setQuiet x).settleTime = s.settleTime := rfl
@[simp] theorem State.setQuiet_holdCount (s : State) (x : Quiet) : (s.setQuiet x).holdCount = s.holdCount := rfl
@[simp] theorem State.setQuiet_steers (s : State) (x : Quiet) : (s.setQuiet x).steers = s.steers := rfl
@[simp] theorem State.setQuiet_passages (s : State) (x : Quiet) : (s.setQuiet x).passages = s.passages := rfl
@[simp] theorem State.setQuiet_passageSettings (s : State) (x : Quiet) : (s.setQuiet x).passageSettings = s.passageSettings := rfl
@[simp] theorem State.setQuiet_signs (s : State) (x : Quiet) : (s.setQuiet x).signs = s.signs := rfl
@[simp] theorem State.setQuiet_patterns (s : State) (x : Quiet) : (s.setQuiet x).patterns = s.patterns := rfl
@[simp] theorem State.setQuiet_airSettings (s : State) (x : Quiet) : (s.setQuiet x).airSettings = s.airSettings := rfl
@[simp] theorem State.setQuiet_startTime (s : State) (x : Quiet) : (s.setQuiet x).startTime = s.startTime := rfl
@[simp] theorem State.setQuiet_nextEvaluation (s : State) (x : Quiet) : (s.setQuiet x).nextEvaluation = s.nextEvaluation := rfl
@[simp] theorem State.setQuiet_fans (s : State) (x : Quiet) : (s.setQuiet x).fans = s.fans := rfl
@[simp] theorem State.setQuiet_fanSettings (s : State) (x : Quiet) : (s.setQuiet x).fanSettings = s.fanSettings := rfl
@[simp] theorem State.setQuiet_lamps (s : State) (x : Quiet) : (s.setQuiet x).lamps = s.lamps := rfl
@[simp] theorem State.setQuiet_faultThreshold (s : State) (x : Quiet) : (s.setQuiet x).faultThreshold = s.faultThreshold := rfl
@[simp] theorem State.setQuiet_fireLine (s : State) (x : Quiet) : (s.setQuiet x).fireLine = s.fireLine := rfl
@[simp] theorem State.setQuiet_quiet (s : State) (x : Quiet) : (s.setQuiet x).quiet = x := rfl
@[simp] theorem State.setQuiet_heads (s : State) (x : Quiet) : (s.setQuiet x).heads = s.heads := rfl
@[simp] theorem State.setQuiet_segments (s : State) (x : Quiet) : (s.setQuiet x).segments = s.segments := rfl
@[simp] theorem State.setQuiet_lostTime (s : State) (x : Quiet) : (s.setQuiet x).lostTime = s.lostTime := rfl
@[simp] theorem State.setQuiet_clients (s : State) (x : Quiet) : (s.setQuiet x).clients = s.clients := rfl
@[simp] theorem State.setQuiet_sources (s : State) (x : Quiet) : (s.setQuiet x).sources = s.sources := rfl
@[simp] theorem State.setQuiet_fetchMask (s : State) (x : Quiet) : (s.setQuiet x).fetchMask = s.fetchMask := rfl
@[simp] theorem State.setQuiet_response (s : State) (x : Quiet) : (s.setQuiet x).response = s.response := rfl
@[simp] theorem State.setQuiet_miso (s : State) (x : Quiet) : (s.setQuiet x).miso = s.miso := rfl

/-! ### The update of `heads` -/

@[simp] theorem State.setHeads_pending (s : State) (x : Table Head) : (s.setHeads x).pending = s.pending := rfl
@[simp] theorem State.setHeads_partTime (s : State) (x : Table Head) : (s.setHeads x).partTime = s.partTime := rfl
@[simp] theorem State.setHeads_resetCause (s : State) (x : Table Head) : (s.setHeads x).resetCause = s.resetCause := rfl
@[simp] theorem State.setHeads_device (s : State) (x : Table Head) : (s.setHeads x).device = s.device := rfl
@[simp] theorem State.setHeads_zones (s : State) (x : Table Head) : (s.setHeads x).zones = s.zones := rfl
@[simp] theorem State.setHeads_bays (s : State) (x : Table Head) : (s.setHeads x).bays = s.bays := rfl
@[simp] theorem State.setHeads_settleTime (s : State) (x : Table Head) : (s.setHeads x).settleTime = s.settleTime := rfl
@[simp] theorem State.setHeads_holdCount (s : State) (x : Table Head) : (s.setHeads x).holdCount = s.holdCount := rfl
@[simp] theorem State.setHeads_steers (s : State) (x : Table Head) : (s.setHeads x).steers = s.steers := rfl
@[simp] theorem State.setHeads_passages (s : State) (x : Table Head) : (s.setHeads x).passages = s.passages := rfl
@[simp] theorem State.setHeads_passageSettings (s : State) (x : Table Head) : (s.setHeads x).passageSettings = s.passageSettings := rfl
@[simp] theorem State.setHeads_signs (s : State) (x : Table Head) : (s.setHeads x).signs = s.signs := rfl
@[simp] theorem State.setHeads_patterns (s : State) (x : Table Head) : (s.setHeads x).patterns = s.patterns := rfl
@[simp] theorem State.setHeads_airSettings (s : State) (x : Table Head) : (s.setHeads x).airSettings = s.airSettings := rfl
@[simp] theorem State.setHeads_startTime (s : State) (x : Table Head) : (s.setHeads x).startTime = s.startTime := rfl
@[simp] theorem State.setHeads_nextEvaluation (s : State) (x : Table Head) : (s.setHeads x).nextEvaluation = s.nextEvaluation := rfl
@[simp] theorem State.setHeads_fans (s : State) (x : Table Head) : (s.setHeads x).fans = s.fans := rfl
@[simp] theorem State.setHeads_fanSettings (s : State) (x : Table Head) : (s.setHeads x).fanSettings = s.fanSettings := rfl
@[simp] theorem State.setHeads_lamps (s : State) (x : Table Head) : (s.setHeads x).lamps = s.lamps := rfl
@[simp] theorem State.setHeads_faultThreshold (s : State) (x : Table Head) : (s.setHeads x).faultThreshold = s.faultThreshold := rfl
@[simp] theorem State.setHeads_fireLine (s : State) (x : Table Head) : (s.setHeads x).fireLine = s.fireLine := rfl
@[simp] theorem State.setHeads_quiet (s : State) (x : Table Head) : (s.setHeads x).quiet = s.quiet := rfl
@[simp] theorem State.setHeads_heads (s : State) (x : Table Head) : (s.setHeads x).heads = x := rfl
@[simp] theorem State.setHeads_segments (s : State) (x : Table Head) : (s.setHeads x).segments = s.segments := rfl
@[simp] theorem State.setHeads_lostTime (s : State) (x : Table Head) : (s.setHeads x).lostTime = s.lostTime := rfl
@[simp] theorem State.setHeads_clients (s : State) (x : Table Head) : (s.setHeads x).clients = s.clients := rfl
@[simp] theorem State.setHeads_sources (s : State) (x : Table Head) : (s.setHeads x).sources = s.sources := rfl
@[simp] theorem State.setHeads_fetchMask (s : State) (x : Table Head) : (s.setHeads x).fetchMask = s.fetchMask := rfl
@[simp] theorem State.setHeads_response (s : State) (x : Table Head) : (s.setHeads x).response = s.response := rfl
@[simp] theorem State.setHeads_miso (s : State) (x : Table Head) : (s.setHeads x).miso = s.miso := rfl

/-! ### The update of `segments` -/

@[simp] theorem State.setSegments_pending (s : State) (x : Vector Segment 4) : (s.setSegments x).pending = s.pending := rfl
@[simp] theorem State.setSegments_partTime (s : State) (x : Vector Segment 4) : (s.setSegments x).partTime = s.partTime := rfl
@[simp] theorem State.setSegments_resetCause (s : State) (x : Vector Segment 4) : (s.setSegments x).resetCause = s.resetCause := rfl
@[simp] theorem State.setSegments_device (s : State) (x : Vector Segment 4) : (s.setSegments x).device = s.device := rfl
@[simp] theorem State.setSegments_zones (s : State) (x : Vector Segment 4) : (s.setSegments x).zones = s.zones := rfl
@[simp] theorem State.setSegments_bays (s : State) (x : Vector Segment 4) : (s.setSegments x).bays = s.bays := rfl
@[simp] theorem State.setSegments_settleTime (s : State) (x : Vector Segment 4) : (s.setSegments x).settleTime = s.settleTime := rfl
@[simp] theorem State.setSegments_holdCount (s : State) (x : Vector Segment 4) : (s.setSegments x).holdCount = s.holdCount := rfl
@[simp] theorem State.setSegments_steers (s : State) (x : Vector Segment 4) : (s.setSegments x).steers = s.steers := rfl
@[simp] theorem State.setSegments_passages (s : State) (x : Vector Segment 4) : (s.setSegments x).passages = s.passages := rfl
@[simp] theorem State.setSegments_passageSettings (s : State) (x : Vector Segment 4) : (s.setSegments x).passageSettings = s.passageSettings := rfl
@[simp] theorem State.setSegments_signs (s : State) (x : Vector Segment 4) : (s.setSegments x).signs = s.signs := rfl
@[simp] theorem State.setSegments_patterns (s : State) (x : Vector Segment 4) : (s.setSegments x).patterns = s.patterns := rfl
@[simp] theorem State.setSegments_airSettings (s : State) (x : Vector Segment 4) : (s.setSegments x).airSettings = s.airSettings := rfl
@[simp] theorem State.setSegments_startTime (s : State) (x : Vector Segment 4) : (s.setSegments x).startTime = s.startTime := rfl
@[simp] theorem State.setSegments_nextEvaluation (s : State) (x : Vector Segment 4) : (s.setSegments x).nextEvaluation = s.nextEvaluation := rfl
@[simp] theorem State.setSegments_fans (s : State) (x : Vector Segment 4) : (s.setSegments x).fans = s.fans := rfl
@[simp] theorem State.setSegments_fanSettings (s : State) (x : Vector Segment 4) : (s.setSegments x).fanSettings = s.fanSettings := rfl
@[simp] theorem State.setSegments_lamps (s : State) (x : Vector Segment 4) : (s.setSegments x).lamps = s.lamps := rfl
@[simp] theorem State.setSegments_faultThreshold (s : State) (x : Vector Segment 4) : (s.setSegments x).faultThreshold = s.faultThreshold := rfl
@[simp] theorem State.setSegments_fireLine (s : State) (x : Vector Segment 4) : (s.setSegments x).fireLine = s.fireLine := rfl
@[simp] theorem State.setSegments_quiet (s : State) (x : Vector Segment 4) : (s.setSegments x).quiet = s.quiet := rfl
@[simp] theorem State.setSegments_heads (s : State) (x : Vector Segment 4) : (s.setSegments x).heads = s.heads := rfl
@[simp] theorem State.setSegments_segments (s : State) (x : Vector Segment 4) : (s.setSegments x).segments = x := rfl
@[simp] theorem State.setSegments_lostTime (s : State) (x : Vector Segment 4) : (s.setSegments x).lostTime = s.lostTime := rfl
@[simp] theorem State.setSegments_clients (s : State) (x : Vector Segment 4) : (s.setSegments x).clients = s.clients := rfl
@[simp] theorem State.setSegments_sources (s : State) (x : Vector Segment 4) : (s.setSegments x).sources = s.sources := rfl
@[simp] theorem State.setSegments_fetchMask (s : State) (x : Vector Segment 4) : (s.setSegments x).fetchMask = s.fetchMask := rfl
@[simp] theorem State.setSegments_response (s : State) (x : Vector Segment 4) : (s.setSegments x).response = s.response := rfl
@[simp] theorem State.setSegments_miso (s : State) (x : Vector Segment 4) : (s.setSegments x).miso = s.miso := rfl

/-! ### The update of `lostTime` -/

@[simp] theorem State.setLostTime_pending (s : State) (x : Nat) : (s.setLostTime x).pending = s.pending := rfl
@[simp] theorem State.setLostTime_partTime (s : State) (x : Nat) : (s.setLostTime x).partTime = s.partTime := rfl
@[simp] theorem State.setLostTime_resetCause (s : State) (x : Nat) : (s.setLostTime x).resetCause = s.resetCause := rfl
@[simp] theorem State.setLostTime_device (s : State) (x : Nat) : (s.setLostTime x).device = s.device := rfl
@[simp] theorem State.setLostTime_zones (s : State) (x : Nat) : (s.setLostTime x).zones = s.zones := rfl
@[simp] theorem State.setLostTime_bays (s : State) (x : Nat) : (s.setLostTime x).bays = s.bays := rfl
@[simp] theorem State.setLostTime_settleTime (s : State) (x : Nat) : (s.setLostTime x).settleTime = s.settleTime := rfl
@[simp] theorem State.setLostTime_holdCount (s : State) (x : Nat) : (s.setLostTime x).holdCount = s.holdCount := rfl
@[simp] theorem State.setLostTime_steers (s : State) (x : Nat) : (s.setLostTime x).steers = s.steers := rfl
@[simp] theorem State.setLostTime_passages (s : State) (x : Nat) : (s.setLostTime x).passages = s.passages := rfl
@[simp] theorem State.setLostTime_passageSettings (s : State) (x : Nat) : (s.setLostTime x).passageSettings = s.passageSettings := rfl
@[simp] theorem State.setLostTime_signs (s : State) (x : Nat) : (s.setLostTime x).signs = s.signs := rfl
@[simp] theorem State.setLostTime_patterns (s : State) (x : Nat) : (s.setLostTime x).patterns = s.patterns := rfl
@[simp] theorem State.setLostTime_airSettings (s : State) (x : Nat) : (s.setLostTime x).airSettings = s.airSettings := rfl
@[simp] theorem State.setLostTime_startTime (s : State) (x : Nat) : (s.setLostTime x).startTime = s.startTime := rfl
@[simp] theorem State.setLostTime_nextEvaluation (s : State) (x : Nat) : (s.setLostTime x).nextEvaluation = s.nextEvaluation := rfl
@[simp] theorem State.setLostTime_fans (s : State) (x : Nat) : (s.setLostTime x).fans = s.fans := rfl
@[simp] theorem State.setLostTime_fanSettings (s : State) (x : Nat) : (s.setLostTime x).fanSettings = s.fanSettings := rfl
@[simp] theorem State.setLostTime_lamps (s : State) (x : Nat) : (s.setLostTime x).lamps = s.lamps := rfl
@[simp] theorem State.setLostTime_faultThreshold (s : State) (x : Nat) : (s.setLostTime x).faultThreshold = s.faultThreshold := rfl
@[simp] theorem State.setLostTime_fireLine (s : State) (x : Nat) : (s.setLostTime x).fireLine = s.fireLine := rfl
@[simp] theorem State.setLostTime_quiet (s : State) (x : Nat) : (s.setLostTime x).quiet = s.quiet := rfl
@[simp] theorem State.setLostTime_heads (s : State) (x : Nat) : (s.setLostTime x).heads = s.heads := rfl
@[simp] theorem State.setLostTime_segments (s : State) (x : Nat) : (s.setLostTime x).segments = s.segments := rfl
@[simp] theorem State.setLostTime_lostTime (s : State) (x : Nat) : (s.setLostTime x).lostTime = x := rfl
@[simp] theorem State.setLostTime_clients (s : State) (x : Nat) : (s.setLostTime x).clients = s.clients := rfl
@[simp] theorem State.setLostTime_sources (s : State) (x : Nat) : (s.setLostTime x).sources = s.sources := rfl
@[simp] theorem State.setLostTime_fetchMask (s : State) (x : Nat) : (s.setLostTime x).fetchMask = s.fetchMask := rfl
@[simp] theorem State.setLostTime_response (s : State) (x : Nat) : (s.setLostTime x).response = s.response := rfl
@[simp] theorem State.setLostTime_miso (s : State) (x : Nat) : (s.setLostTime x).miso = s.miso := rfl

/-! ### The update of `clients` -/

@[simp] theorem State.setClients_pending (s : State) (x : Vector Nat 8) : (s.setClients x).pending = s.pending := rfl
@[simp] theorem State.setClients_partTime (s : State) (x : Vector Nat 8) : (s.setClients x).partTime = s.partTime := rfl
@[simp] theorem State.setClients_resetCause (s : State) (x : Vector Nat 8) : (s.setClients x).resetCause = s.resetCause := rfl
@[simp] theorem State.setClients_device (s : State) (x : Vector Nat 8) : (s.setClients x).device = s.device := rfl
@[simp] theorem State.setClients_zones (s : State) (x : Vector Nat 8) : (s.setClients x).zones = s.zones := rfl
@[simp] theorem State.setClients_bays (s : State) (x : Vector Nat 8) : (s.setClients x).bays = s.bays := rfl
@[simp] theorem State.setClients_settleTime (s : State) (x : Vector Nat 8) : (s.setClients x).settleTime = s.settleTime := rfl
@[simp] theorem State.setClients_holdCount (s : State) (x : Vector Nat 8) : (s.setClients x).holdCount = s.holdCount := rfl
@[simp] theorem State.setClients_steers (s : State) (x : Vector Nat 8) : (s.setClients x).steers = s.steers := rfl
@[simp] theorem State.setClients_passages (s : State) (x : Vector Nat 8) : (s.setClients x).passages = s.passages := rfl
@[simp] theorem State.setClients_passageSettings (s : State) (x : Vector Nat 8) : (s.setClients x).passageSettings = s.passageSettings := rfl
@[simp] theorem State.setClients_signs (s : State) (x : Vector Nat 8) : (s.setClients x).signs = s.signs := rfl
@[simp] theorem State.setClients_patterns (s : State) (x : Vector Nat 8) : (s.setClients x).patterns = s.patterns := rfl
@[simp] theorem State.setClients_airSettings (s : State) (x : Vector Nat 8) : (s.setClients x).airSettings = s.airSettings := rfl
@[simp] theorem State.setClients_startTime (s : State) (x : Vector Nat 8) : (s.setClients x).startTime = s.startTime := rfl
@[simp] theorem State.setClients_nextEvaluation (s : State) (x : Vector Nat 8) : (s.setClients x).nextEvaluation = s.nextEvaluation := rfl
@[simp] theorem State.setClients_fans (s : State) (x : Vector Nat 8) : (s.setClients x).fans = s.fans := rfl
@[simp] theorem State.setClients_fanSettings (s : State) (x : Vector Nat 8) : (s.setClients x).fanSettings = s.fanSettings := rfl
@[simp] theorem State.setClients_lamps (s : State) (x : Vector Nat 8) : (s.setClients x).lamps = s.lamps := rfl
@[simp] theorem State.setClients_faultThreshold (s : State) (x : Vector Nat 8) : (s.setClients x).faultThreshold = s.faultThreshold := rfl
@[simp] theorem State.setClients_fireLine (s : State) (x : Vector Nat 8) : (s.setClients x).fireLine = s.fireLine := rfl
@[simp] theorem State.setClients_quiet (s : State) (x : Vector Nat 8) : (s.setClients x).quiet = s.quiet := rfl
@[simp] theorem State.setClients_heads (s : State) (x : Vector Nat 8) : (s.setClients x).heads = s.heads := rfl
@[simp] theorem State.setClients_segments (s : State) (x : Vector Nat 8) : (s.setClients x).segments = s.segments := rfl
@[simp] theorem State.setClients_lostTime (s : State) (x : Vector Nat 8) : (s.setClients x).lostTime = s.lostTime := rfl
@[simp] theorem State.setClients_clients (s : State) (x : Vector Nat 8) : (s.setClients x).clients = x := rfl
@[simp] theorem State.setClients_sources (s : State) (x : Vector Nat 8) : (s.setClients x).sources = s.sources := rfl
@[simp] theorem State.setClients_fetchMask (s : State) (x : Vector Nat 8) : (s.setClients x).fetchMask = s.fetchMask := rfl
@[simp] theorem State.setClients_response (s : State) (x : Vector Nat 8) : (s.setClients x).response = s.response := rfl
@[simp] theorem State.setClients_miso (s : State) (x : Vector Nat 8) : (s.setClients x).miso = s.miso := rfl

/-! ### The update of `sources` -/

@[simp] theorem State.setSources_pending (s : State) (x : Vector Source 16) : (s.setSources x).pending = s.pending := rfl
@[simp] theorem State.setSources_partTime (s : State) (x : Vector Source 16) : (s.setSources x).partTime = s.partTime := rfl
@[simp] theorem State.setSources_resetCause (s : State) (x : Vector Source 16) : (s.setSources x).resetCause = s.resetCause := rfl
@[simp] theorem State.setSources_device (s : State) (x : Vector Source 16) : (s.setSources x).device = s.device := rfl
@[simp] theorem State.setSources_zones (s : State) (x : Vector Source 16) : (s.setSources x).zones = s.zones := rfl
@[simp] theorem State.setSources_bays (s : State) (x : Vector Source 16) : (s.setSources x).bays = s.bays := rfl
@[simp] theorem State.setSources_settleTime (s : State) (x : Vector Source 16) : (s.setSources x).settleTime = s.settleTime := rfl
@[simp] theorem State.setSources_holdCount (s : State) (x : Vector Source 16) : (s.setSources x).holdCount = s.holdCount := rfl
@[simp] theorem State.setSources_steers (s : State) (x : Vector Source 16) : (s.setSources x).steers = s.steers := rfl
@[simp] theorem State.setSources_passages (s : State) (x : Vector Source 16) : (s.setSources x).passages = s.passages := rfl
@[simp] theorem State.setSources_passageSettings (s : State) (x : Vector Source 16) : (s.setSources x).passageSettings = s.passageSettings := rfl
@[simp] theorem State.setSources_signs (s : State) (x : Vector Source 16) : (s.setSources x).signs = s.signs := rfl
@[simp] theorem State.setSources_patterns (s : State) (x : Vector Source 16) : (s.setSources x).patterns = s.patterns := rfl
@[simp] theorem State.setSources_airSettings (s : State) (x : Vector Source 16) : (s.setSources x).airSettings = s.airSettings := rfl
@[simp] theorem State.setSources_startTime (s : State) (x : Vector Source 16) : (s.setSources x).startTime = s.startTime := rfl
@[simp] theorem State.setSources_nextEvaluation (s : State) (x : Vector Source 16) : (s.setSources x).nextEvaluation = s.nextEvaluation := rfl
@[simp] theorem State.setSources_fans (s : State) (x : Vector Source 16) : (s.setSources x).fans = s.fans := rfl
@[simp] theorem State.setSources_fanSettings (s : State) (x : Vector Source 16) : (s.setSources x).fanSettings = s.fanSettings := rfl
@[simp] theorem State.setSources_lamps (s : State) (x : Vector Source 16) : (s.setSources x).lamps = s.lamps := rfl
@[simp] theorem State.setSources_faultThreshold (s : State) (x : Vector Source 16) : (s.setSources x).faultThreshold = s.faultThreshold := rfl
@[simp] theorem State.setSources_fireLine (s : State) (x : Vector Source 16) : (s.setSources x).fireLine = s.fireLine := rfl
@[simp] theorem State.setSources_quiet (s : State) (x : Vector Source 16) : (s.setSources x).quiet = s.quiet := rfl
@[simp] theorem State.setSources_heads (s : State) (x : Vector Source 16) : (s.setSources x).heads = s.heads := rfl
@[simp] theorem State.setSources_segments (s : State) (x : Vector Source 16) : (s.setSources x).segments = s.segments := rfl
@[simp] theorem State.setSources_lostTime (s : State) (x : Vector Source 16) : (s.setSources x).lostTime = s.lostTime := rfl
@[simp] theorem State.setSources_clients (s : State) (x : Vector Source 16) : (s.setSources x).clients = s.clients := rfl
@[simp] theorem State.setSources_sources (s : State) (x : Vector Source 16) : (s.setSources x).sources = x := rfl
@[simp] theorem State.setSources_fetchMask (s : State) (x : Vector Source 16) : (s.setSources x).fetchMask = s.fetchMask := rfl
@[simp] theorem State.setSources_response (s : State) (x : Vector Source 16) : (s.setSources x).response = s.response := rfl
@[simp] theorem State.setSources_miso (s : State) (x : Vector Source 16) : (s.setSources x).miso = s.miso := rfl

/-! ### The update of `fetchMask` -/

@[simp] theorem State.setFetchMask_pending (s : State) (x : Bool) : (s.setFetchMask x).pending = s.pending := rfl
@[simp] theorem State.setFetchMask_partTime (s : State) (x : Bool) : (s.setFetchMask x).partTime = s.partTime := rfl
@[simp] theorem State.setFetchMask_resetCause (s : State) (x : Bool) : (s.setFetchMask x).resetCause = s.resetCause := rfl
@[simp] theorem State.setFetchMask_device (s : State) (x : Bool) : (s.setFetchMask x).device = s.device := rfl
@[simp] theorem State.setFetchMask_zones (s : State) (x : Bool) : (s.setFetchMask x).zones = s.zones := rfl
@[simp] theorem State.setFetchMask_bays (s : State) (x : Bool) : (s.setFetchMask x).bays = s.bays := rfl
@[simp] theorem State.setFetchMask_settleTime (s : State) (x : Bool) : (s.setFetchMask x).settleTime = s.settleTime := rfl
@[simp] theorem State.setFetchMask_holdCount (s : State) (x : Bool) : (s.setFetchMask x).holdCount = s.holdCount := rfl
@[simp] theorem State.setFetchMask_steers (s : State) (x : Bool) : (s.setFetchMask x).steers = s.steers := rfl
@[simp] theorem State.setFetchMask_passages (s : State) (x : Bool) : (s.setFetchMask x).passages = s.passages := rfl
@[simp] theorem State.setFetchMask_passageSettings (s : State) (x : Bool) : (s.setFetchMask x).passageSettings = s.passageSettings := rfl
@[simp] theorem State.setFetchMask_signs (s : State) (x : Bool) : (s.setFetchMask x).signs = s.signs := rfl
@[simp] theorem State.setFetchMask_patterns (s : State) (x : Bool) : (s.setFetchMask x).patterns = s.patterns := rfl
@[simp] theorem State.setFetchMask_airSettings (s : State) (x : Bool) : (s.setFetchMask x).airSettings = s.airSettings := rfl
@[simp] theorem State.setFetchMask_startTime (s : State) (x : Bool) : (s.setFetchMask x).startTime = s.startTime := rfl
@[simp] theorem State.setFetchMask_nextEvaluation (s : State) (x : Bool) : (s.setFetchMask x).nextEvaluation = s.nextEvaluation := rfl
@[simp] theorem State.setFetchMask_fans (s : State) (x : Bool) : (s.setFetchMask x).fans = s.fans := rfl
@[simp] theorem State.setFetchMask_fanSettings (s : State) (x : Bool) : (s.setFetchMask x).fanSettings = s.fanSettings := rfl
@[simp] theorem State.setFetchMask_lamps (s : State) (x : Bool) : (s.setFetchMask x).lamps = s.lamps := rfl
@[simp] theorem State.setFetchMask_faultThreshold (s : State) (x : Bool) : (s.setFetchMask x).faultThreshold = s.faultThreshold := rfl
@[simp] theorem State.setFetchMask_fireLine (s : State) (x : Bool) : (s.setFetchMask x).fireLine = s.fireLine := rfl
@[simp] theorem State.setFetchMask_quiet (s : State) (x : Bool) : (s.setFetchMask x).quiet = s.quiet := rfl
@[simp] theorem State.setFetchMask_heads (s : State) (x : Bool) : (s.setFetchMask x).heads = s.heads := rfl
@[simp] theorem State.setFetchMask_segments (s : State) (x : Bool) : (s.setFetchMask x).segments = s.segments := rfl
@[simp] theorem State.setFetchMask_lostTime (s : State) (x : Bool) : (s.setFetchMask x).lostTime = s.lostTime := rfl
@[simp] theorem State.setFetchMask_clients (s : State) (x : Bool) : (s.setFetchMask x).clients = s.clients := rfl
@[simp] theorem State.setFetchMask_sources (s : State) (x : Bool) : (s.setFetchMask x).sources = s.sources := rfl
@[simp] theorem State.setFetchMask_fetchMask (s : State) (x : Bool) : (s.setFetchMask x).fetchMask = x := rfl
@[simp] theorem State.setFetchMask_response (s : State) (x : Bool) : (s.setFetchMask x).response = s.response := rfl
@[simp] theorem State.setFetchMask_miso (s : State) (x : Bool) : (s.setFetchMask x).miso = s.miso := rfl

/-! ### The update of `response` -/

@[simp] theorem State.setResponse_pending (s : State) (x : Option (List Byte)) : (s.setResponse x).pending = s.pending := rfl
@[simp] theorem State.setResponse_partTime (s : State) (x : Option (List Byte)) : (s.setResponse x).partTime = s.partTime := rfl
@[simp] theorem State.setResponse_resetCause (s : State) (x : Option (List Byte)) : (s.setResponse x).resetCause = s.resetCause := rfl
@[simp] theorem State.setResponse_device (s : State) (x : Option (List Byte)) : (s.setResponse x).device = s.device := rfl
@[simp] theorem State.setResponse_zones (s : State) (x : Option (List Byte)) : (s.setResponse x).zones = s.zones := rfl
@[simp] theorem State.setResponse_bays (s : State) (x : Option (List Byte)) : (s.setResponse x).bays = s.bays := rfl
@[simp] theorem State.setResponse_settleTime (s : State) (x : Option (List Byte)) : (s.setResponse x).settleTime = s.settleTime := rfl
@[simp] theorem State.setResponse_holdCount (s : State) (x : Option (List Byte)) : (s.setResponse x).holdCount = s.holdCount := rfl
@[simp] theorem State.setResponse_steers (s : State) (x : Option (List Byte)) : (s.setResponse x).steers = s.steers := rfl
@[simp] theorem State.setResponse_passages (s : State) (x : Option (List Byte)) : (s.setResponse x).passages = s.passages := rfl
@[simp] theorem State.setResponse_passageSettings (s : State) (x : Option (List Byte)) : (s.setResponse x).passageSettings = s.passageSettings := rfl
@[simp] theorem State.setResponse_signs (s : State) (x : Option (List Byte)) : (s.setResponse x).signs = s.signs := rfl
@[simp] theorem State.setResponse_patterns (s : State) (x : Option (List Byte)) : (s.setResponse x).patterns = s.patterns := rfl
@[simp] theorem State.setResponse_airSettings (s : State) (x : Option (List Byte)) : (s.setResponse x).airSettings = s.airSettings := rfl
@[simp] theorem State.setResponse_startTime (s : State) (x : Option (List Byte)) : (s.setResponse x).startTime = s.startTime := rfl
@[simp] theorem State.setResponse_nextEvaluation (s : State) (x : Option (List Byte)) : (s.setResponse x).nextEvaluation = s.nextEvaluation := rfl
@[simp] theorem State.setResponse_fans (s : State) (x : Option (List Byte)) : (s.setResponse x).fans = s.fans := rfl
@[simp] theorem State.setResponse_fanSettings (s : State) (x : Option (List Byte)) : (s.setResponse x).fanSettings = s.fanSettings := rfl
@[simp] theorem State.setResponse_lamps (s : State) (x : Option (List Byte)) : (s.setResponse x).lamps = s.lamps := rfl
@[simp] theorem State.setResponse_faultThreshold (s : State) (x : Option (List Byte)) : (s.setResponse x).faultThreshold = s.faultThreshold := rfl
@[simp] theorem State.setResponse_fireLine (s : State) (x : Option (List Byte)) : (s.setResponse x).fireLine = s.fireLine := rfl
@[simp] theorem State.setResponse_quiet (s : State) (x : Option (List Byte)) : (s.setResponse x).quiet = s.quiet := rfl
@[simp] theorem State.setResponse_heads (s : State) (x : Option (List Byte)) : (s.setResponse x).heads = s.heads := rfl
@[simp] theorem State.setResponse_segments (s : State) (x : Option (List Byte)) : (s.setResponse x).segments = s.segments := rfl
@[simp] theorem State.setResponse_lostTime (s : State) (x : Option (List Byte)) : (s.setResponse x).lostTime = s.lostTime := rfl
@[simp] theorem State.setResponse_clients (s : State) (x : Option (List Byte)) : (s.setResponse x).clients = s.clients := rfl
@[simp] theorem State.setResponse_sources (s : State) (x : Option (List Byte)) : (s.setResponse x).sources = s.sources := rfl
@[simp] theorem State.setResponse_fetchMask (s : State) (x : Option (List Byte)) : (s.setResponse x).fetchMask = s.fetchMask := rfl
@[simp] theorem State.setResponse_response (s : State) (x : Option (List Byte)) : (s.setResponse x).response = x := rfl
@[simp] theorem State.setResponse_miso (s : State) (x : Option (List Byte)) : (s.setResponse x).miso = s.miso := rfl

/-! ### The update of `miso` -/

@[simp] theorem State.setMiso_pending (s : State) (x : List Byte) : (s.setMiso x).pending = s.pending := rfl
@[simp] theorem State.setMiso_partTime (s : State) (x : List Byte) : (s.setMiso x).partTime = s.partTime := rfl
@[simp] theorem State.setMiso_resetCause (s : State) (x : List Byte) : (s.setMiso x).resetCause = s.resetCause := rfl
@[simp] theorem State.setMiso_device (s : State) (x : List Byte) : (s.setMiso x).device = s.device := rfl
@[simp] theorem State.setMiso_zones (s : State) (x : List Byte) : (s.setMiso x).zones = s.zones := rfl
@[simp] theorem State.setMiso_bays (s : State) (x : List Byte) : (s.setMiso x).bays = s.bays := rfl
@[simp] theorem State.setMiso_settleTime (s : State) (x : List Byte) : (s.setMiso x).settleTime = s.settleTime := rfl
@[simp] theorem State.setMiso_holdCount (s : State) (x : List Byte) : (s.setMiso x).holdCount = s.holdCount := rfl
@[simp] theorem State.setMiso_steers (s : State) (x : List Byte) : (s.setMiso x).steers = s.steers := rfl
@[simp] theorem State.setMiso_passages (s : State) (x : List Byte) : (s.setMiso x).passages = s.passages := rfl
@[simp] theorem State.setMiso_passageSettings (s : State) (x : List Byte) : (s.setMiso x).passageSettings = s.passageSettings := rfl
@[simp] theorem State.setMiso_signs (s : State) (x : List Byte) : (s.setMiso x).signs = s.signs := rfl
@[simp] theorem State.setMiso_patterns (s : State) (x : List Byte) : (s.setMiso x).patterns = s.patterns := rfl
@[simp] theorem State.setMiso_airSettings (s : State) (x : List Byte) : (s.setMiso x).airSettings = s.airSettings := rfl
@[simp] theorem State.setMiso_startTime (s : State) (x : List Byte) : (s.setMiso x).startTime = s.startTime := rfl
@[simp] theorem State.setMiso_nextEvaluation (s : State) (x : List Byte) : (s.setMiso x).nextEvaluation = s.nextEvaluation := rfl
@[simp] theorem State.setMiso_fans (s : State) (x : List Byte) : (s.setMiso x).fans = s.fans := rfl
@[simp] theorem State.setMiso_fanSettings (s : State) (x : List Byte) : (s.setMiso x).fanSettings = s.fanSettings := rfl
@[simp] theorem State.setMiso_lamps (s : State) (x : List Byte) : (s.setMiso x).lamps = s.lamps := rfl
@[simp] theorem State.setMiso_faultThreshold (s : State) (x : List Byte) : (s.setMiso x).faultThreshold = s.faultThreshold := rfl
@[simp] theorem State.setMiso_fireLine (s : State) (x : List Byte) : (s.setMiso x).fireLine = s.fireLine := rfl
@[simp] theorem State.setMiso_quiet (s : State) (x : List Byte) : (s.setMiso x).quiet = s.quiet := rfl
@[simp] theorem State.setMiso_heads (s : State) (x : List Byte) : (s.setMiso x).heads = s.heads := rfl
@[simp] theorem State.setMiso_segments (s : State) (x : List Byte) : (s.setMiso x).segments = s.segments := rfl
@[simp] theorem State.setMiso_lostTime (s : State) (x : List Byte) : (s.setMiso x).lostTime = s.lostTime := rfl
@[simp] theorem State.setMiso_clients (s : State) (x : List Byte) : (s.setMiso x).clients = s.clients := rfl
@[simp] theorem State.setMiso_sources (s : State) (x : List Byte) : (s.setMiso x).sources = s.sources := rfl
@[simp] theorem State.setMiso_fetchMask (s : State) (x : List Byte) : (s.setMiso x).fetchMask = s.fetchMask := rfl
@[simp] theorem State.setMiso_response (s : State) (x : List Byte) : (s.setMiso x).response = s.response := rfl
@[simp] theorem State.setMiso_miso (s : State) (x : List Byte) : (s.setMiso x).miso = x := rfl

end Sys2Proof.Machine
end

