-- ==== Sys2Proof/Laws/Frames.lean ====
section
/-!
SUPPORT. Frames: for each shared operation one lemma that says which fields of State it can write, in a form that lets
`simp (disch := decide)` strip the operation from a frame. The first section is about `SameExcept` itself.
-/
namespace Sys2Proof.Machine

variable {fs : List Field} {s t : State}

/-! ### SameExcept -/

/-- A state agrees with itself. -/
@[simp] theorem SameExcept.refl (fs : List Field) (s : State) : SameExcept fs s s := fun f _ => by cases f <;> rfl

theorem sameField.trans {f : Field} {s t u : State} (h : sameField f s t) (k : sameField f t u) : sameField f s u := by
  cases f <;> exact Eq.trans k h

theorem sameField.symm {f : Field} {s t : State} (h : sameField f s t) : sameField f t s := by
  cases f <;> exact Eq.symm h

/-- Two changes one after another. -/
theorem SameExcept.trans {fs : List Field} {s t u : State} (h : SameExcept fs s t) (k : SameExcept fs t u) :
    SameExcept fs s u := fun f hf => (h f hf).trans (k f hf)

/-- More fields may be named. -/
theorem SameExcept.mono {fs gs : List Field} {s t : State} (h : SameExcept fs s t) (sub : fs ⊆ gs) :
    SameExcept gs s t := fun f hf => h f fun k => hf (sub k)

/-- A change that writes fields among `fs` alone is stripped from a frame. -/
theorem SameExcept.strip {fs gs : List Field} {s t u : State} (h : SameExcept gs t u) (sub : gs ⊆ fs) :
    SameExcept fs s u ↔ SameExcept fs s t :=
  ⟨fun k f hf => (k f hf).trans (h f fun m => hf (sub m)).symm, fun k => k.trans (h.mono sub)⟩

/-- What one field of a frame says. -/
theorem SameExcept.same {fs : List Field} {s t : State} (h : SameExcept fs s t) (f : Field) (hf : f ∉ fs) :
    sameField f s t := h f hf

/-- A fold of changes, each of which writes the same fields alone. -/
theorem SameExcept.foldl {α : Type} {gs : List Field} {f : State → α → State}
    (h : ∀ s x, SameExcept gs s (f s x)) (l : List α) (s : State) : SameExcept gs s (l.foldl f s) := by
  induction l generalizing s with
  | nil => exact .refl _ _
  | cons x l ih => exact (h s x).trans (ih _)

/-! ### One lemma for each update of a field -/

@[simp] theorem State.setPending_frame (h : [Field.pending] ⊆ fs) (x) :
    SameExcept fs s (t.setPending x) ↔ SameExcept fs s t :=
  SameExcept.strip (fun f hf => by cases f <;> first | rfl | exact absurd (List.mem_singleton.2 rfl) hf) h

@[simp] theorem State.setPartTime_frame (h : [Field.partTime] ⊆ fs) (x) :
    SameExcept fs s (t.setPartTime x) ↔ SameExcept fs s t :=
  SameExcept.strip (fun f hf => by cases f <;> first | rfl | exact absurd (List.mem_singleton.2 rfl) hf) h

@[simp] theorem State.setResetCause_frame (h : [Field.resetCause] ⊆ fs) (x) :
    SameExcept fs s (t.setResetCause x) ↔ SameExcept fs s t :=
  SameExcept.strip (fun f hf => by cases f <;> first | rfl | exact absurd (List.mem_singleton.2 rfl) hf) h

@[simp] theorem State.setDevice_frame (h : [Field.device] ⊆ fs) (x) :
    SameExcept fs s (t.setDevice x) ↔ SameExcept fs s t :=
  SameExcept.strip (fun f hf => by cases f <;> first | rfl | exact absurd (List.mem_singleton.2 rfl) hf) h

@[simp] theorem State.setZones_frame (h : [Field.zones] ⊆ fs) (x) :
    SameExcept fs s (t.setZones x) ↔ SameExcept fs s t :=
  SameExcept.strip (fun f hf => by cases f <;> first | rfl | exact absurd (List.mem_singleton.2 rfl) hf) h

@[simp] theorem State.setBays_frame (h : [Field.bays] ⊆ fs) (x) :
    SameExcept fs s (t.setBays x) ↔ SameExcept fs s t :=
  SameExcept.strip (fun f hf => by cases f <;> first | rfl | exact absurd (List.mem_singleton.2 rfl) hf) h

@[simp] theorem State.setSettleTime_frame (h : [Field.settleTime] ⊆ fs) (x) :
    SameExcept fs s (t.setSettleTime x) ↔ SameExcept fs s t :=
  SameExcept.strip (fun f hf => by cases f <;> first | rfl | exact absurd (List.mem_singleton.2 rfl) hf) h

@[simp] theorem State.setHoldCount_frame (h : [Field.holdCount] ⊆ fs) (x) :
    SameExcept fs s (t.setHoldCount x) ↔ SameExcept fs s t :=
  SameExcept.strip (fun f hf => by cases f <;> first | rfl | exact absurd (List.mem_singleton.2 rfl) hf) h

@[simp] theorem State.setSteers_frame (h : [Field.steers] ⊆ fs) (x) :
    SameExcept fs s (t.setSteers x) ↔ SameExcept fs s t :=
  SameExcept.strip (fun f hf => by cases f <;> first | rfl | exact absurd (List.mem_singleton.2 rfl) hf) h

@[simp] theorem State.setPassages_frame (h : [Field.passages] ⊆ fs) (x) :
    SameExcept fs s (t.setPassages x) ↔ SameExcept fs s t :=
  SameExcept.strip (fun f hf => by cases f <;> first | rfl | exact absurd (List.mem_singleton.2 rfl) hf) h

@[simp] theorem State.setPassageSettings_frame (h : [Field.passageSettings] ⊆ fs) (x) :
    SameExcept fs s (t.setPassageSettings x) ↔ SameExcept fs s t :=
  SameExcept.strip (fun f hf => by cases f <;> first | rfl | exact absurd (List.mem_singleton.2 rfl) hf) h

@[simp] theorem State.setSigns_frame (h : [Field.signs] ⊆ fs) (x) :
    SameExcept fs s (t.setSigns x) ↔ SameExcept fs s t :=
  SameExcept.strip (fun f hf => by cases f <;> first | rfl | exact absurd (List.mem_singleton.2 rfl) hf) h

@[simp] theorem State.setPatterns_frame (h : [Field.patterns] ⊆ fs) (x) :
    SameExcept fs s (t.setPatterns x) ↔ SameExcept fs s t :=
  SameExcept.strip (fun f hf => by cases f <;> first | rfl | exact absurd (List.mem_singleton.2 rfl) hf) h

@[simp] theorem State.setAirSettings_frame (h : [Field.airSettings] ⊆ fs) (x) :
    SameExcept fs s (t.setAirSettings x) ↔ SameExcept fs s t :=
  SameExcept.strip (fun f hf => by cases f <;> first | rfl | exact absurd (List.mem_singleton.2 rfl) hf) h

@[simp] theorem State.setStartTime_frame (h : [Field.startTime] ⊆ fs) (x) :
    SameExcept fs s (t.setStartTime x) ↔ SameExcept fs s t :=
  SameExcept.strip (fun f hf => by cases f <;> first | rfl | exact absurd (List.mem_singleton.2 rfl) hf) h

@[simp] theorem State.setNextEvaluation_frame (h : [Field.nextEvaluation] ⊆ fs) (x) :
    SameExcept fs s (t.setNextEvaluation x) ↔ SameExcept fs s t :=
  SameExcept.strip (fun f hf => by cases f <;> first | rfl | exact absurd (List.mem_singleton.2 rfl) hf) h

@[simp] theorem State.setFans_frame (h : [Field.fans] ⊆ fs) (x) :
    SameExcept fs s (t.setFans x) ↔ SameExcept fs s t :=
  SameExcept.strip (fun f hf => by cases f <;> first | rfl | exact absurd (List.mem_singleton.2 rfl) hf) h

@[simp] theorem State.setFanSettings_frame (h : [Field.fanSettings] ⊆ fs) (x) :
    SameExcept fs s (t.setFanSettings x) ↔ SameExcept fs s t :=
  SameExcept.strip (fun f hf => by cases f <;> first | rfl | exact absurd (List.mem_singleton.2 rfl) hf) h

@[simp] theorem State.setLamps_frame (h : [Field.lamps] ⊆ fs) (x) :
    SameExcept fs s (t.setLamps x) ↔ SameExcept fs s t :=
  SameExcept.strip (fun f hf => by cases f <;> first | rfl | exact absurd (List.mem_singleton.2 rfl) hf) h

@[simp] theorem State.setFaultThreshold_frame (h : [Field.faultThreshold] ⊆ fs) (x) :
    SameExcept fs s (t.setFaultThreshold x) ↔ SameExcept fs s t :=
  SameExcept.strip (fun f hf => by cases f <;> first | rfl | exact absurd (List.mem_singleton.2 rfl) hf) h

@[simp] theorem State.setFireLine_frame (h : [Field.fireLine] ⊆ fs) (x) :
    SameExcept fs s (t.setFireLine x) ↔ SameExcept fs s t :=
  SameExcept.strip (fun f hf => by cases f <;> first | rfl | exact absurd (List.mem_singleton.2 rfl) hf) h

@[simp] theorem State.setQuiet_frame (h : [Field.quiet] ⊆ fs) (x) :
    SameExcept fs s (t.setQuiet x) ↔ SameExcept fs s t :=
  SameExcept.strip (fun f hf => by cases f <;> first | rfl | exact absurd (List.mem_singleton.2 rfl) hf) h

@[simp] theorem State.setHeads_frame (h : [Field.heads] ⊆ fs) (x) :
    SameExcept fs s (t.setHeads x) ↔ SameExcept fs s t :=
  SameExcept.strip (fun f hf => by cases f <;> first | rfl | exact absurd (List.mem_singleton.2 rfl) hf) h

@[simp] theorem State.setSegments_frame (h : [Field.segments] ⊆ fs) (x) :
    SameExcept fs s (t.setSegments x) ↔ SameExcept fs s t :=
  SameExcept.strip (fun f hf => by cases f <;> first | rfl | exact absurd (List.mem_singleton.2 rfl) hf) h

@[simp] theorem State.setLostTime_frame (h : [Field.lostTime] ⊆ fs) (x) :
    SameExcept fs s (t.setLostTime x) ↔ SameExcept fs s t :=
  SameExcept.strip (fun f hf => by cases f <;> first | rfl | exact absurd (List.mem_singleton.2 rfl) hf) h

@[simp] theorem State.setClients_frame (h : [Field.clients] ⊆ fs) (x) :
    SameExcept fs s (t.setClients x) ↔ SameExcept fs s t :=
  SameExcept.strip (fun f hf => by cases f <;> first | rfl | exact absurd (List.mem_singleton.2 rfl) hf) h

@[simp] theorem State.setSources_frame (h : [Field.sources] ⊆ fs) (x) :
    SameExcept fs s (t.setSources x) ↔ SameExcept fs s t :=
  SameExcept.strip (fun f hf => by cases f <;> first | rfl | exact absurd (List.mem_singleton.2 rfl) hf) h

@[simp] theorem State.setFetchMask_frame (h : [Field.fetchMask] ⊆ fs) (x) :
    SameExcept fs s (t.setFetchMask x) ↔ SameExcept fs s t :=
  SameExcept.strip (fun f hf => by cases f <;> first | rfl | exact absurd (List.mem_singleton.2 rfl) hf) h

@[simp] theorem State.setResponse_frame (h : [Field.response] ⊆ fs) (x) :
    SameExcept fs s (t.setResponse x) ↔ SameExcept fs s t :=
  SameExcept.strip (fun f hf => by cases f <;> first | rfl | exact absurd (List.mem_singleton.2 rfl) hf) h

@[simp] theorem State.setMiso_frame (h : [Field.miso] ⊆ fs) (x) :
    SameExcept fs s (t.setMiso x) ↔ SameExcept fs s t :=
  SameExcept.strip (fun f hf => by cases f <;> first | rfl | exact absurd (List.mem_singleton.2 rfl) hf) h

/-! ### Shared updates (Ops, Flags) -/

@[simp] theorem State.updZone_frame (h : [Field.zones] ⊆ fs) (z : Nat) (f : Zone → Zone) :
    SameExcept fs s (t.updZone z f) ↔ SameExcept fs s t := by
  refine SameExcept.strip ?_ h
  simp (disch := decide) [State.updZone]

@[simp] theorem State.putSegment_frame (h : [Field.segments] ⊆ fs) (i : Nat) (g : Segment) :
    SameExcept fs s (t.putSegment i g) ↔ SameExcept fs s t := by
  refine SameExcept.strip ?_ h
  simp (disch := decide) [State.putSegment]

@[simp] theorem raise_frame (h : [Field.sources] ⊆ fs) (n : Nat) (zs : List Nat) (d : List Byte) :
    SameExcept fs s (raise n zs d t) ↔ SameExcept fs s t := by
  refine SameExcept.strip ?_ h
  simp (disch := decide) [raise]

/-! ### Lamp control -/

@[simp] theorem settleLampsWhere_frame (h : [Field.lamps] ⊆ fs) (p : Nat → LampGroup → Bool) :
    SameExcept fs s (settleLampsWhere p t) ↔ SameExcept fs s t := by
  refine SameExcept.strip ?_ h
  simp (disch := decide) [settleLampsWhere]

@[simp] theorem settleLampsOf_frame (h : [Field.lamps] ⊆ fs) (zs : List Nat) :
    SameExcept fs s (settleLampsOf zs t) ↔ SameExcept fs s t := by
  refine SameExcept.strip ?_ h
  simp (disch := decide) [settleLampsOf]

@[simp] theorem settleAllLamps_frame (h : [Field.lamps] ⊆ fs)  :
    SameExcept fs s (settleAllLamps  t) ↔ SameExcept fs s t := by
  refine SameExcept.strip ?_ h
  simp (disch := decide) [settleAllLamps]

@[simp] theorem settleLamp_frame (h : [Field.lamps] ⊆ fs) (n : Nat) :
    SameExcept fs s (settleLamp n t) ↔ SameExcept fs s t := by
  refine SameExcept.strip ?_ h
  simp (disch := decide) [settleLamp]

@[simp] theorem presence_frame (h : [Field.lamps] ⊆ fs) (z : Nat) :
    SameExcept fs s (presence z t) ↔ SameExcept fs s t := by
  refine SameExcept.strip ?_ h
  simp (disch := decide) [presence]

/-! ### Steers -/

@[simp] theorem transitUp_frame (h : [Field.zones] ⊆ fs) (z : Nat) (k : BayKind) :
    SameExcept fs s (transitUp z k t) ↔ SameExcept fs s t := by
  refine SameExcept.strip ?_ h
  simp (disch := decide) [transitUp]

@[simp] theorem transitDown_frame (h : [Field.zones] ⊆ fs) (z : Nat) (k : BayKind) :
    SameExcept fs s (transitDown z k t) ↔ SameExcept fs s t := by
  refine SameExcept.strip ?_ h
  simp (disch := decide) [transitDown]

@[simp] theorem countPassage_frame (h : [Field.passages] ⊆ fs) (p : Nat) (f : PassageCounters → PassageCounters) :
    SameExcept fs s (countPassage p f t) ↔ SameExcept fs s t := by
  refine SameExcept.strip ?_ h
  simp (disch := decide) [countPassage]

@[simp] theorem retireSteer_frame (h : [Field.zones, Field.steers, Field.passages] ⊆ fs) (id : Nat) (o : SteerOutcome) :
    SameExcept fs s (retireSteer id o t) ↔ SameExcept fs s t := by
  refine SameExcept.strip ?_ h
  simp only [retireSteer]
  split
  · simp
  · simp (disch := decide)
    split <;> simp (disch := decide)

@[simp] theorem settlePlain_frame (h : [Field.zones, Field.steers, Field.passages] ⊆ fs) (z : Nat) (k : BayKind) :
    SameExcept fs s (settlePlain z k t) ↔ SameExcept fs s t := by
  refine SameExcept.strip ?_ h
  simp only [settlePlain]; repeat' split
  all_goals simp (disch := decide)

/-- A slot taken for a new steer may retire the steer that stood in it. -/
theorem takeSlot_frame {n : Nat} (h : takeSlot s = some (n, t)) : SameExcept [.zones, .steers, .passages] s t := by
  simp only [takeSlot] at h
  split at h
  · cases h; simp
  · split at h
    · cases h; simp (disch := decide)
    · cases h

@[simp] theorem issueSteer_frame (h : [Field.zones, Field.steers] ⊆ fs) (id : Nat) (x : Steer) :
    SameExcept fs s (issueSteer id x t) ↔ SameExcept fs s t := by
  refine SameExcept.strip ?_ h
  simp only [issueSteer]; repeat' split
  all_goals simp (disch := decide)

@[simp] theorem tellSteers_frame (h : [Field.zones, Field.steers, Field.passages] ⊆ fs) (b : Nat × Nat) (e : HoldEnding) :
    SameExcept fs s (tellSteers b e t) ↔ SameExcept fs s t := by
  refine SameExcept.strip ?_ h
  simp only [tellSteers]; repeat' split
  all_goals simp (disch := decide)

@[simp] theorem steerBecomesPlain_frame (h : [Field.zones, Field.steers] ⊆ fs) (id : Nat) :
    SameExcept fs s (steerBecomesPlain id t) ↔ SameExcept fs s t := by
  refine SameExcept.strip ?_ h
  simp only [steerBecomesPlain]; repeat' split
  all_goals simp (disch := decide)

@[simp] theorem setShow_frame (h : [Field.signs] ⊆ fs) (n x : Nat) (z : Option Nat) :
    SameExcept fs s (setShow n x z t) ↔ SameExcept fs s t := by
  refine SameExcept.strip ?_ h
  simp (disch := decide) [setShow]

@[simp] theorem showDirection_frame (h : [Field.signs] ⊆ fs) (n : Option Nat) (z : Nat) :
    SameExcept fs s (showDirection n z t) ↔ SameExcept fs s t := by
  refine SameExcept.strip ?_ h
  simp only [showDirection]; repeat' split
  all_goals simp (disch := decide)

@[simp] theorem showFull_frame (h : [Field.signs] ⊆ fs) (n : Option Nat) :
    SameExcept fs s (showFull n t) ↔ SameExcept fs s t := by
  refine SameExcept.strip ?_ h
  simp only [showFull]; repeat' split
  all_goals simp (disch := decide)

@[simp] theorem raiseEntryFull_frame (h : [Field.sources] ⊆ fs) (p : Nat) (r : Passage) :
    SameExcept fs s (raiseEntryFull p r t) ↔ SameExcept fs s t := by
  refine SameExcept.strip ?_ h
  simp (disch := decide) [raiseEntryFull]

/-! ### Bays and holds -/

@[simp] theorem creditAir_frame (h : [Field.zones] ⊆ fs) (z n : Nat) :
    SameExcept fs s (creditAir z n t) ↔ SameExcept fs s t := by
  refine SameExcept.strip ?_ h
  simp (disch := decide) [creditAir]

@[simp] theorem moveCount_frame (h : [Field.zones] ⊆ fs) (z : Nat) (k : BayKind) (c : Category) (k' : BayKind) (c' : Category) :
    SameExcept fs s (moveCount z k c k' c' t) ↔ SameExcept fs s t := by
  refine SameExcept.strip ?_ h
  simp only [moveCount]; repeat' split
  all_goals simp (disch := decide)

@[simp] theorem changeBay_frame (h : [Field.bays, Field.zones] ⊆ fs) (g : Nat) (f : Bay → Bay) :
    SameExcept fs s (changeBay g f t) ↔ SameExcept fs s t := by
  refine SameExcept.strip ?_ h
  simp only [changeBay]; repeat' split
  all_goals simp (disch := decide)

@[simp] theorem reportEnding_frame (h : [Field.holdCount, Field.sources] ⊆ fs) (b : Nat × Nat) (e : HoldEnding) :
    SameExcept fs s (reportEnding b e t) ↔ SameExcept fs s t := by
  refine SameExcept.strip ?_ h
  simp only [reportEnding]; repeat' split
  all_goals simp (disch := decide)

@[simp] theorem changeBayEnding_frame (h : steerFields ⊆ fs) (g : Nat) (e : HoldEnding) (f : Bay → Bay) :
    SameExcept fs s (changeBayEnding g e f t) ↔ SameExcept fs s t := by
  refine SameExcept.strip ?_ h
  simp only [changeBayEnding]; repeat' split
  all_goals simp (disch := decide)

@[simp] theorem releaseInRedirect_frame (h : [Field.bays, Field.zones, Field.holdCount, Field.sources] ⊆ fs) (g : Nat) (b : Nat × Nat) :
    SameExcept fs s (releaseInRedirect g b t) ↔ SameExcept fs s t := by
  refine SameExcept.strip ?_ h
  simp only [releaseInRedirect]
  split <;> simp (disch := decide)

@[simp] theorem arrival_frame (h : redirectFields ⊆ fs) (g : Nat) :
    SameExcept fs s (arrival g t) ↔ SameExcept fs s t := by
  refine SameExcept.strip ?_ h
  simp only [arrival]
  split
  · simp (disch := decide)
    split <;> simp (disch := decide)
  · simp

@[simp] theorem departure_frame (h : [Field.bays, Field.zones, Field.lamps] ⊆ fs) (g : Nat) :
    SameExcept fs s (departure g t) ↔ SameExcept fs s t := by
  refine SameExcept.strip ?_ h
  simp only [departure]; repeat' split
  all_goals simp (disch := decide)

@[simp] theorem applyRaw_frame (h : redirectFields ⊆ fs) (g : Nat) (raw : Raw) :
    SameExcept fs s (applyRaw g raw t) ↔ SameExcept fs s t := by
  refine SameExcept.strip ?_ h
  simp only [applyRaw]; repeat' split
  all_goals simp (disch := decide)

@[simp] theorem takeRaw_frame (h : redirectFields ⊆ fs) (l : List Byte) (p : Nat × Bay) :
    SameExcept fs s (takeRaw l t p) ↔ SameExcept fs s t := by
  refine SameExcept.strip ?_ h
  simp only [takeRaw]; repeat' split
  all_goals simp (disch := decide)

@[simp] theorem bayReport_frame (h : redirectFields ⊆ fs) (i a : Nat) (l : List Byte) :
    SameExcept fs s (bayReport i a l t) ↔ SameExcept fs s t := by
  refine SameExcept.strip ?_ h
  exact SameExcept.foldl (fun s x => by simp (disch := decide)) _ _

@[simp] theorem baysUnsensed_frame (h : steerFields ⊆ fs) (i a : Nat) :
    SameExcept fs s (baysUnsensed i a t) ↔ SameExcept fs s t := by
  refine SameExcept.strip ?_ h
  exact SameExcept.foldl (fun s x => by simp (disch := decide)) _ _

/-! ### Guidance and the redirect pass -/

@[simp] theorem giveUpHold_frame (h : [Field.bays, Field.zones, Field.holdCount, Field.steers, Field.sources] ⊆ fs) (id : Nat) :
    SameExcept fs s (giveUpHold id t) ↔ SameExcept fs s t := by
  refine SameExcept.strip ?_ h
  simp only [giveUpHold]; repeat' split
  all_goals simp (disch := decide)

@[simp] theorem rechoose_frame (h : [Field.steers, Field.zones, Field.passages, Field.lamps] ⊆ fs) (l : List Nat) (id : Nat) :
    SameExcept fs s (rechoose l id t) ↔ SameExcept fs s t := by
  refine SameExcept.strip ?_ h
  simp only [rechoose]; repeat' split
  all_goals simp (disch := decide)

@[simp] theorem redirectOne_frame (h : redirectFields ⊆ fs) (l : List Nat) (id : Nat) :
    SameExcept fs s (redirectOne l t id) ↔ SameExcept fs s t := by
  refine SameExcept.strip ?_ h
  simp (disch := decide) [redirectOne]

@[simp] theorem redirectPass_frame (h : redirectFields ⊆ fs) (l : List Nat) :
    SameExcept fs s (redirectPass l t) ↔ SameExcept fs s t := by
  refine SameExcept.strip ?_ h
  exact SameExcept.foldl (fun s x => by simp (disch := decide)) _ _

@[simp] theorem refreshGuidance_frame (h : [Field.zones] ⊆ fs) (l : List Nat) :
    SameExcept fs s (refreshGuidance l t) ↔ SameExcept fs s t := by
  refine SameExcept.strip ?_ h
  simp (disch := decide) [refreshGuidance]

@[simp] theorem deriveAndRedirect_frame (h : redirectFields ⊆ fs) (l : List Nat) :
    SameExcept fs s (deriveAndRedirect l t) ↔ SameExcept fs s t := by
  refine SameExcept.strip ?_ h
  simp (disch := decide) [deriveAndRedirect]

/-! ### The fan drive -/

@[simp] theorem retargetZone_frame (h : [Field.fans] ⊆ fs) (z : Nat) :
    SameExcept fs s (retargetZone z t) ↔ SameExcept fs s t := by
  refine SameExcept.strip ?_ h
  simp (disch := decide) [retargetZone]

@[simp] theorem admitFans_frame (h : [Field.fans] ⊆ fs) (n : Nat) :
    SameExcept fs s (admitFans n t) ↔ SameExcept fs s t := by
  refine SameExcept.strip ?_ h
  induction n generalizing t with
  | zero => simp [admitFans]
  | succ n ih =>
    simp only [admitFans]
    repeat' split
    · simp
    · exact SameExcept.trans (by simp (disch := decide)) (ih (t := t.setFans _))
    · simp

@[simp] theorem takeUpFire_frame (h : [Field.fans] ⊆ fs) :
    SameExcept fs s (takeUpFire t) ↔ SameExcept fs s t := by
  refine SameExcept.strip ?_ h
  simp (disch := decide) [takeUpFire]

@[simp] theorem gate_frame (h : [Field.fans] ⊆ fs)  :
    SameExcept fs s (gate  t) ↔ SameExcept fs s t := by
  refine SameExcept.strip ?_ h
  simp (disch := decide) [gate]

@[simp] theorem storeDemand_frame (h : [Field.zones] ⊆ fs) (l : List Nat) :
    SameExcept fs s (storeDemand l t) ↔ SameExcept fs s t := by
  refine SameExcept.strip ?_ h
  simp (disch := decide) [storeDemand]

@[simp] theorem retargetZones_frame (h : [Field.fans] ⊆ fs) (l : List Nat) :
    SameExcept fs s (retargetZones l t) ↔ SameExcept fs s t := by
  refine SameExcept.strip ?_ h
  exact SameExcept.foldl (fun s x => by simp (disch := decide)) _ _

@[simp] theorem settleDemand_frame (h : [Field.zones, Field.fans] ⊆ fs) (l : List Nat) :
    SameExcept fs s (settleDemand l t) ↔ SameExcept fs s t := by
  refine SameExcept.strip ?_ h
  simp (disch := decide) [settleDemand]

@[simp] theorem putFan_frame (h : [Field.fans] ⊆ fs) (n : Nat) (f : Fan) :
    SameExcept fs s (putFan n f t) ↔ SameExcept fs s t := by
  refine SameExcept.strip ?_ h
  simp (disch := decide) only [putFan, gate_frame]
  split <;> simp (disch := decide)

@[simp] theorem fanDown_frame (h : [Field.fans] ⊆ fs) (n : Nat) (f : Fan) :
    SameExcept fs s (fanDown n f t) ↔ SameExcept fs s t := by
  refine SameExcept.strip ?_ h
  simp (disch := decide) only [fanDown, gate_frame]
  split <;> simp (disch := decide)

@[simp] theorem fanTrip_frame (h : [Field.fans, Field.sources] ⊆ fs) (n : Nat) (f : Fan) :
    SameExcept fs s (fanTrip n f t) ↔ SameExcept fs s t := by
  refine SameExcept.strip ?_ h
  simp (disch := decide) [fanTrip]

@[simp] theorem applyFanFlags_frame (h : [Field.fans, Field.sources] ⊆ fs) (n : Nat) (f : Fan) :
    SameExcept fs s (applyFanFlags n f t) ↔ SameExcept fs s t := by
  refine SameExcept.strip ?_ h
  simp only [applyFanFlags]; repeat' split
  all_goals simp (disch := decide)

@[simp] theorem fanReport_frame (h : [Field.fans, Field.sources] ⊆ fs) (i a : Nat) (l : List Byte) :
    SameExcept fs s (fanReport i a l t) ↔ SameExcept fs s t := by
  refine SameExcept.strip ?_ h
  simp only [fanReport]; repeat' split
  all_goals simp (disch := decide)

@[simp] theorem fanUnreached_frame (h : [Field.fans] ⊆ fs) (i a : Nat) :
    SameExcept fs s (fanUnreached i a t) ↔ SameExcept fs s t := by
  refine SameExcept.strip ?_ h
  simp only [fanUnreached]; repeat' split
  all_goals simp (disch := decide)

/-! ### The air evaluator -/

@[simp] theorem raiseAll_frame (h : [Field.sources] ⊆ fs) (l : List Raise) :
    SameExcept fs s (raiseAll l t) ↔ SameExcept fs s t := by
  refine SameExcept.strip ?_ h
  exact SameExcept.foldl (fun s x => by simp (disch := decide)) _ _

@[simp] theorem evaluateZones_frame (h : [Field.zones] ⊆ fs)  :
    SameExcept fs s (evaluateZones  t) ↔ SameExcept fs s t := by
  refine SameExcept.strip ?_ h
  simp (disch := decide) [evaluateZones]

/-! ### Sweeps and quiet hours -/

@[simp] theorem walkSegment_frame (h : [Field.segments] ⊆ fs) (i : Nat) :
    SameExcept fs s (walkSegment i t) ↔ SameExcept fs s t := by
  refine SameExcept.strip ?_ h
  simp (disch := decide) [walkSegment]

@[simp] theorem forSegments_frame (h : [Field.segments] ⊆ fs) (f : State → Nat → Segment → Segment) :
    SameExcept fs s (forSegments f t) ↔ SameExcept fs s t := by
  refine SameExcept.strip ?_ h
  exact SameExcept.foldl (fun s x => by simp (disch := decide)) _ _

@[simp] theorem endStarting_frame (h : Field.device :: redirectFields ⊆ fs)  :
    SameExcept fs s (endStarting  t) ↔ SameExcept fs s t := by
  refine SameExcept.strip ?_ h
  simp only [endStarting]; repeat' split
  all_goals simp (disch := decide)

@[simp] theorem raiseQuietChange_frame (h : [Field.sources] ⊆ fs) (l : List Nat) (d : List Byte) :
    SameExcept fs s (raiseQuietChange l d t) ↔ SameExcept fs s t := by
  refine SameExcept.strip ?_ h
  simp (disch := decide) [raiseQuietChange]

@[simp] theorem enterWarming_frame (h : quietFields ⊆ fs) (c : WakeCause) (l : List Nat) :
    SameExcept fs s (enterWarming c l t) ↔ SameExcept fs s t := by
  refine SameExcept.strip ?_ h
  simp (disch := decide) [enterWarming]

@[simp] theorem wakeEvent_frame (h : quietFields ⊆ fs) (c : WakeCause) (l : List Nat) :
    SameExcept fs s (wakeEvent c l t) ↔ SameExcept fs s t := by
  refine SameExcept.strip ?_ h
  simp only [wakeEvent]; repeat' split
  all_goals simp (disch := decide)

@[simp] theorem endWarming_frame (h : [Field.device, Field.quiet, Field.lamps, Field.sources] ⊆ fs)  :
    SameExcept fs s (endWarming  t) ↔ SameExcept fs s t := by
  refine SameExcept.strip ?_ h
  simp only [endWarming]; repeat' split
  all_goals simp (disch := decide)

@[simp] theorem leaveWarmSet_frame (h : [Field.quiet] ⊆ fs) (k : Nat) :
    SameExcept fs s (leaveWarmSet k t) ↔ SameExcept fs s t := by
  refine SameExcept.strip ?_ h
  simp (disch := decide) [leaveWarmSet]

@[simp] theorem joinWarmSet_frame (h : [Field.quiet] ⊆ fs) (k : Nat) :
    SameExcept fs s (joinWarmSet k t) ↔ SameExcept fs s t := by
  refine SameExcept.strip ?_ h
  simp (disch := decide) [joinWarmSet]

/-! ### Passages -/

@[simp] theorem entryFull_frame (h : [Field.sources, Field.signs, Field.passages] ⊆ fs) (p : Nat) (r : Passage) :
    SameExcept fs s (entryFull p r t) ↔ SameExcept fs s t := by
  refine SameExcept.strip ?_ h
  simp (disch := decide) [entryFull]

@[simp] theorem entryGuidance_frame (h : [Field.zones, Field.steers, Field.passages, Field.signs, Field.lamps, Field.sources] ⊆ fs) (p : Nat) (r : Passage) (c : VehicleClass) :
    SameExcept fs s (entryGuidance p r c t) ↔ SameExcept fs s t := by
  refine SameExcept.strip ?_ h
  simp only [entryGuidance]
  repeat' split
  all_goals simp (disch := decide)
  exact (takeSlot_frame ‹_›).mono (by decide)

@[simp] theorem creditPassage_frame (h : [Field.zones, Field.lamps] ⊆ fs) (z : Option Nat) (c : VehicleClass) :
    SameExcept fs s (creditPassage z c t) ↔ SameExcept fs s t := by
  refine SameExcept.strip ?_ h
  simp only [creditPassage]; repeat' split
  all_goals simp (disch := decide)

@[simp] theorem forwardPassage_frame (h : ([Field.zones, Field.steers, Field.passages, Field.signs, Field.lamps, Field.sources] ++ quietFields) ⊆ fs) (p : Nat) (r : Passage) (c : VehicleClass) :
    SameExcept fs s (forwardPassage p r c t) ↔ SameExcept fs s t := by
  refine SameExcept.strip ?_ h
  simp only [forwardPassage]
  repeat' split
  all_goals simp (disch := decide)

@[simp] theorem reversePassage_frame (h : [Field.sources] ⊆ fs) (p : Nat) (r : Passage) (c : VehicleClass) :
    SameExcept fs s (reversePassage p r c t) ↔ SameExcept fs s t := by
  refine SameExcept.strip ?_ h
  simp only [reversePassage]; repeat' split
  all_goals simp (disch := decide)

@[simp] theorem takePassage_frame (h : ([Field.zones, Field.steers, Field.passages, Field.signs, Field.lamps, Field.sources] ++ quietFields) ⊆ fs) (p : Nat) (gap : Int) (n : Nat) :
    SameExcept fs s (takePassage p gap n t) ↔ SameExcept fs s t := by
  refine SameExcept.strip ?_ h
  simp only [takePassage]; repeat' split
  all_goals simp (disch := decide)

@[simp] theorem loopReport_frame (h : ([Field.zones, Field.steers, Field.passages, Field.signs, Field.lamps, Field.sources] ++ quietFields) ⊆ fs) (i a : Nat) (l : List Byte) :
    SameExcept fs s (loopReport i a l t) ↔ SameExcept fs s t := by
  refine SameExcept.strip ?_ h
  simp only [loopReport]
  split
  · exact SameExcept.trans (by simp (disch := decide)) (SameExcept.foldl (fun s x => by simp (disch := decide)) _ _)
  · simp

/-! ### Fire and override stacks -/

@[simp] theorem storeFire_frame (h : [Field.zones] ⊆ fs) (m : Nat → Zone → FireMove) :
    SameExcept fs s (storeFire m t) ↔ SameExcept fs s t := by
  refine SameExcept.strip ?_ h
  simp (disch := decide) [storeFire]

@[simp] theorem raiseFire_frame (h : [Field.sources] ⊆ fs) (c : FireCause) (z : Nat) :
    SameExcept fs s (raiseFire c t z) ↔ SameExcept fs s t := by
  refine SameExcept.strip ?_ h
  simp only [raiseFire]; split <;> simp (disch := decide)

@[simp] theorem handOnFire_frame (h : zoneFields ⊆ fs) (c : FireCause) (l : List Nat) :
    SameExcept fs s (handOnFire c l t) ↔ SameExcept fs s t := by
  refine SameExcept.strip ?_ h
  simp (disch := decide) only [handOnFire, deriveAndRedirect_frame, settleLampsOf_frame, gate_frame, retargetZones_frame,
    settleDemand_frame]
  exact SameExcept.foldl (fun s x => by simp (disch := decide)) _ _

@[simp] theorem moveFire_frame (h : zoneFields ⊆ fs) (c : FireCause) (m : Nat → Zone → FireMove) :
    SameExcept fs s (moveFire c m t) ↔ SameExcept fs s t := by
  refine SameExcept.strip ?_ h
  simp (disch := decide) [moveFire]

@[simp] theorem changeStack_frame (h : zoneFields ⊆ fs) (z : Nat) (r : Zone) (l : List StackEntry) :
    SameExcept fs s (changeStack z r l t) ↔ SameExcept fs s t := by
  refine SameExcept.strip ?_ h
  simp only [changeStack]
  repeat' split
  all_goals simp (disch := decide)

/-! ### Signs and lamp reports -/

@[simp] theorem signReport_frame (h : [Field.signs] ⊆ fs) (i a : Nat) (l : List Byte) :
    SameExcept fs s (signReport i a l t) ↔ SameExcept fs s t := by
  refine SameExcept.strip ?_ h
  simp only [signReport]; repeat' split
  all_goals simp (disch := decide)

@[simp] theorem raiseLampFault_frame (h : [Field.sources] ⊆ fs) (n z k : Nat) :
    SameExcept fs s (raiseLampFault n z k t) ↔ SameExcept fs s t := by
  refine SameExcept.strip ?_ h
  simp (disch := decide) [raiseLampFault]

@[simp] theorem groupReport_frame (h : [Field.lamps, Field.sources] ⊆ fs) (n : Nat) (g : LampGroup) (a b c : Byte) :
    SameExcept fs s (groupReport n g a b c t) ↔ SameExcept fs s t := by
  refine SameExcept.strip ?_ h
  simp only [groupReport]; repeat' split
  all_goals simp (disch := decide)

@[simp] theorem lampReport_frame (h : quietFields ⊆ fs) (i a : Nat) (w : Bool) (l : List Byte) :
    SameExcept fs s (lampReport i a w l t) ↔ SameExcept fs s t := by
  refine SameExcept.strip ?_ h
  simp only [lampReport]; repeat' split
  all_goals simp (disch := decide)

@[simp] theorem thresholdFaults_frame (h : [Field.sources] ⊆ fs) (a b : Nat) :
    SameExcept fs s (thresholdFaults a b t) ↔ SameExcept fs s t := by
  refine SameExcept.strip ?_ h
  exact SameExcept.foldl (fun s x => by split <;> simp (disch := decide)) _ _

/-! ### The lane poller -/

@[simp] theorem pollSign_frame (h : [Field.signs] ⊆ fs) (i a : Nat) (x : Head) :
    SameExcept fs s (pollSign i a x t) ↔ SameExcept fs s t := by
  refine SameExcept.strip ?_ h
  simp only [pollSign]; repeat' split
  all_goals simp (disch := decide)

@[simp] theorem sendPoll_frame (h : [Field.signs, .heads, .segments] ⊆ fs) (i a : Nat) (l : List Nat) (g : Segment)
    (x : Head) : SameExcept fs s (sendPoll i a l g x t) ↔ SameExcept fs s t := by
  refine SameExcept.strip ?_ h
  simp (disch := decide) [sendPoll]

@[simp] theorem headGone_frame (h : Field.fans :: steerFields ⊆ fs) (i a : Nat) :
    SameExcept fs s (headGone i a t) ↔ SameExcept fs s t := by
  refine SameExcept.strip ?_ h
  simp (disch := decide) [headGone]

@[simp] theorem loseHead_frame (h : Field.heads :: .fans :: steerFields ⊆ fs) (i a : Nat) (x : Head) :
    SameExcept fs s (loseHead i a x t) ↔ SameExcept fs s t := by
  refine SameExcept.strip ?_ h
  simp (disch := decide) [loseHead]

@[simp] theorem missHead_frame (h : Field.heads :: .fans :: steerFields ⊆ fs) (i a : Nat) :
    SameExcept fs s (missHead i a t) ↔ SameExcept fs s t := by
  refine SameExcept.strip ?_ h
  simp only [missHead]; repeat' split
  all_goals simp (disch := decide)

@[simp] theorem mismatchHead_frame (h : Field.heads :: .fans :: steerFields ⊆ fs) (i a : Nat) (x : Head) (r : Response) :
    SameExcept fs s (mismatchHead i a x r t) ↔ SameExcept fs s t := by
  refine SameExcept.strip ?_ h
  simp only [mismatchHead]
  split <;> simp (disch := decide)

@[simp] theorem headBack_frame (h : [Field.sources] ⊆ fs) (i a : Nat) (x : Head) :
    SameExcept fs s (headBack i a x t) ↔ SameExcept fs s t := by
  refine SameExcept.strip ?_ h
  simp only [headBack]; repeat' split
  all_goals simp (disch := decide)

@[simp] theorem flipToggle_frame (h : [Field.heads] ⊆ fs) (i a : Nat) :
    SameExcept fs s (flipToggle i a t) ↔ SameExcept fs s t := by
  refine SameExcept.strip ?_ h
  simp (disch := decide) [flipToggle]

@[simp] theorem handReport_frame (h : laneFields ⊆ fs) (i a : Nat) (x : Head) (l : List Byte) :
    SameExcept fs s (handReport i a x l t) ↔ SameExcept fs s t := by
  refine SameExcept.strip ?_ h
  simp only [handReport]; repeat' split
  all_goals simp (disch := decide)

@[simp] theorem acceptHead_frame (h : laneFields ⊆ fs) (i a : Nat) (x : Head) (r : Response) :
    SameExcept fs s (acceptHead i a x r t) ↔ SameExcept fs s t := by
  refine SameExcept.strip ?_ h
  simp (disch := decide) [acceptHead]

@[simp] theorem answerHead_frame (h : laneFields ⊆ fs) (i a : Nat) (r : Response) :
    SameExcept fs s (answerHead i a r t) ↔ SameExcept fs s t := by
  refine SameExcept.strip ?_ h
  simp only [answerHead]; repeat' split
  all_goals simp (disch := decide)

@[simp] theorem warmPolled_frame (h : [Field.quiet] ⊆ fs) (i : Nat) (x : Exchange) (b : Bool) :
    SameExcept fs s (warmPolled i x b t) ↔ SameExcept fs s t := by
  refine SameExcept.strip ?_ h
  simp only [warmPolled]; repeat' split
  all_goals simp (disch := decide)

/-- The end of an exchange writes no more than what it settles, the segments, quiet control and what the end of WARMING or
STARTING hands on. -/
theorem endExchange_frame {i : Nat} {x : Exchange} {f : State → State} (h : ∀ s, SameExcept laneFields s (f s)) :
    SameExcept laneFields s (endExchange i x f s) := by
  simp only [endExchange]
  split
  · simp (disch := decide)
  · simp (disch := decide)
    exact SameExcept.trans (by simp (disch := decide)) (h _)

/-! ### The supervisor port -/

@[simp] theorem readOut_frame (h : portFields ⊆ fs) (n : Nat) (r : List Byte) :
    SameExcept fs s (readOut n r t) ↔ SameExcept fs s t := by
  refine SameExcept.strip ?_ h
  simp only [readOut]; repeat' split
  all_goals simp (disch := decide)

@[simp] theorem respond_frame (h : [Field.response] ⊆ fs) (g : Half) (r : Reply) :
    SameExcept fs s (respond g r t) ↔ SameExcept fs s t := by
  refine SameExcept.strip ?_ h
  simp (disch := decide) [respond]

/-- A request writes no more than its serving rule and the port. -/
theorem request_frame {gs : List Field} {m : Option Nat} {rule : Rule} {c : Byte} {g : Half} {b : List Byte}
    (h : ∀ s, SameExcept gs s (rule c.toNat b s).2) : SameExcept (portFields ++ gs) s (request m rule c g b s) := by
  have hr : [Field.response] ⊆ portFields ++ gs := fun f hf => by simp_all [portFields]
  have hm : [Field.miso] ⊆ portFields ++ gs := fun f hf => by simp_all [portFields]
  have hp : portFields ⊆ portFields ++ gs := List.subset_append_left _ _
  simp only [request]
  repeat' split
  · rw [readOut_frame hp]; exact .refl _ _
  · rw [State.setMiso_frame hm]; exact .refl _ _
  · rw [respond_frame hr, State.setMiso_frame hm]; exact .refl _ _
  · rw [respond_frame hr, State.setMiso_frame hm]; exact .refl _ _
  · rw [respond_frame hr]
    exact SameExcept.trans ((State.setMiso_frame hm _).2 (.refl _ _)) ((h _).mono (List.subset_append_right _ _))

/-! ### Holds, steers for kiosk requests, stacks, fire, quiet hours, evaluations -/

@[simp] theorem makeHold_frame (h : [Field.bays, Field.zones, Field.holdCount] ⊆ fs) (g : Nat) (x : Hold) :
    SameExcept fs s (makeHold g x t) ↔ SameExcept fs s t := by
  refine SameExcept.strip ?_ h
  simp (disch := decide) [makeHold]

@[simp] theorem renewSteer_frame (h : [Field.steers] ⊆ fs) (b : Nat × Nat) (n : Nat) :
    SameExcept fs s (renewSteer b n t) ↔ SameExcept fs s t := by
  refine SameExcept.strip ?_ h
  simp only [renewSteer]; repeat' split
  all_goals simp (disch := decide)

@[simp] theorem renewHold_frame (h : [Field.bays, Field.zones, Field.steers] ⊆ fs) (g : Nat) (b : Nat × Nat) (x : Hold) :
    SameExcept fs s (renewHold g b x t) ↔ SameExcept fs s t := by
  refine SameExcept.strip ?_ h
  simp (disch := decide) [renewHold]

@[simp] theorem afterSteer_frame (h : [Field.passages, Field.lamps] ⊆ fs) (p z : Nat) :
    SameExcept fs s (afterSteer p z t) ↔ SameExcept fs s t := by
  refine SameExcept.strip ?_ h
  simp (disch := decide) [afterSteer]

@[simp] theorem cancelSteer_frame (h : steerFields ⊆ fs) (id : Nat) (x : Steer) :
    SameExcept fs s (cancelSteer id x t) ↔ SameExcept fs s t := by
  refine SameExcept.strip ?_ h
  simp only [cancelSteer]; repeat' split
  all_goals simp (disch := decide)

@[simp] theorem expireSteer_frame (h : [Field.zones, Field.steers, Field.passages, Field.sources] ⊆ fs) (id : Nat) (x : Steer) :
    SameExcept fs s (expireSteer id x t) ↔ SameExcept fs s t := by
  refine SameExcept.strip ?_ h
  simp (disch := decide) [expireSteer]

@[simp] theorem expireEntry_frame (h : zoneFields ⊆ fs) (z p : Nat) (r : Zone) (e : StackEntry) :
    SameExcept fs s (expireEntry z p r e t) ↔ SameExcept fs s t := by
  refine SameExcept.strip ?_ h
  simp (disch := decide) [expireEntry]

@[simp] theorem activateFire_frame (h : Field.fireLine :: (zoneFields ++ quietFields) ⊆ fs)  :
    SameExcept fs s (activateFire  t) ↔ SameExcept fs s t := by
  refine SameExcept.strip ?_ h
  simp only [activateFire]; repeat' split
  all_goals simp (disch := decide)

@[simp] theorem releaseFire_frame (h : Field.fireLine :: zoneFields ⊆ fs)  :
    SameExcept fs s (releaseFire  t) ↔ SameExcept fs s t := by
  refine SameExcept.strip ?_ h
  simp (disch := decide) [releaseFire]

@[simp] theorem enterQuiet_frame (h : quietFields ⊆ fs) (m : QuietMode) :
    SameExcept fs s (enterQuiet m t) ↔ SameExcept fs s t := by
  refine SameExcept.strip ?_ h
  simp (disch := decide) [enterQuiet]

@[simp] theorem takeQuiet_frame (h : quietFields ⊆ fs) (m : QuietMode) :
    SameExcept fs s (takeQuiet m t) ↔ SameExcept fs s t := by
  refine SameExcept.strip ?_ h
  simp only [takeQuiet]; repeat' split
  all_goals simp (disch := decide)

@[simp] theorem quietInFalls_frame (h : quietFields ⊆ fs)  :
    SameExcept fs s (quietInFalls  t) ↔ SameExcept fs s t := by
  refine SameExcept.strip ?_ h
  simp only [quietInFalls]; repeat' split
  all_goals simp (disch := decide)

@[simp] theorem quietInRises_frame (h : quietFields ⊆ fs)  :
    SameExcept fs s (quietInRises  t) ↔ SameExcept fs s t := by
  refine SameExcept.strip ?_ h
  simp only [quietInRises]; repeat' split
  all_goals simp (disch := decide)

@[simp] theorem handOnAir_frame (h : zoneFields ⊆ fs)  :
    SameExcept fs s (handOnAir  t) ↔ SameExcept fs s t := by
  refine SameExcept.strip ?_ h
  simp (disch := decide) [handOnAir]

@[simp] theorem wakeByAir_frame (h : quietFields ⊆ fs)  :
    SameExcept fs s (wakeByAir  t) ↔ SameExcept fs s t := by
  refine SameExcept.strip ?_ h
  simp only [wakeByAir]; repeat' split
  all_goals simp (disch := decide)

@[simp] theorem airEvaluation_frame (h : Field.nextEvaluation :: (zoneFields ++ quietFields) ⊆ fs)  :
    SameExcept fs s (airEvaluation  t) ↔ SameExcept fs s t := by
  refine SameExcept.strip ?_ h
  simp (disch := decide) [airEvaluation]

@[simp] theorem pollNext_frame (h : [Field.heads, Field.segments, Field.signs] ⊆ fs) (i : Nat) :
    SameExcept fs s (pollNext i t) ↔ SameExcept fs s t := by
  refine SameExcept.strip ?_ h
  simp only [pollNext]; repeat' split
  all_goals simp (disch := decide)

@[simp] theorem keepExchange_frame (h : [Field.segments] ⊆ fs) (i : Nat) (x : Exchange) :
    SameExcept fs s (keepExchange i x t) ↔ SameExcept fs s t := by
  refine SameExcept.strip ?_ h
  simp (disch := decide) [keepExchange]

/-! ### Resets and the start -/

@[simp] theorem enterStarting_frame (h : [Field.startTime, Field.nextEvaluation, Field.segments, Field.device] ⊆ fs)  :
    SameExcept fs s (enterStarting  t) ↔ SameExcept fs s t := by
  refine SameExcept.strip ?_ h
  simp (disch := decide) [enterStarting]

@[simp] theorem start_frame (h : zoneFields ++ [Field.startTime, .nextEvaluation, .segments, .device] ⊆ fs)  :
    SameExcept fs s (start  t) ↔ SameExcept fs s t := by
  refine SameExcept.strip ?_ h
  simp (disch := decide) [start]

/-! ### Records -/

@[simp] theorem addZone_frame (h : [Field.bays, Field.zones] ⊆ fs) (n : Nat) (c : ZoneConfig) :
    SameExcept fs s (addZone n c t) ↔ SameExcept fs s t := by
  refine SameExcept.strip ?_ h
  simp (disch := decide) [addZone]

@[simp] theorem replaceZone_frame (h : [Field.bays, Field.zones] ⊆ fs) (n : Nat) (z : Zone) (c : ZoneConfig) :
    SameExcept fs s (replaceZone n z c t) ↔ SameExcept fs s t := by
  refine SameExcept.strip ?_ h
  simp only [replaceZone]; repeat' split
  all_goals simp (disch := decide)

@[simp] theorem settleZone_frame (h : [Field.fans, Field.lamps] ⊆ fs) (n : Nat) :
    SameExcept fs s (settleZone n t) ↔ SameExcept fs s t := by
  refine SameExcept.strip ?_ h
  simp (disch := decide) [settleZone]

@[simp] theorem setZoneConfig_frame (h : [Field.bays, Field.zones, Field.fans, Field.lamps] ⊆ fs) (n : Nat) (c : ZoneConfig) :
    SameExcept fs s (setZoneConfig n c t) ↔ SameExcept fs s t := by
  refine SameExcept.strip ?_ h
  simp (disch := decide) only [setZoneConfig, settleZone_frame]
  split <;> simp (disch := decide)

@[simp] theorem removeZone_frame (h : [Field.bays, Field.zones, Field.fans, Field.lamps] ⊆ fs) (n : Nat) (z : Zone) :
    SameExcept fs s (removeZone n z t) ↔ SameExcept fs s t := by
  refine SameExcept.strip ?_ h
  simp (disch := decide) [removeZone]

@[simp] theorem configureHead_frame (h : Field.heads :: .segments :: .quiet :: .device :: zoneFields ⊆ fs) (i a : Nat) (k : HeadKind) (w : Bool) :
    SameExcept fs s (configureHead i a k w t) ↔ SameExcept fs s t := by
  refine SameExcept.strip ?_ h
  simp (disch := decide) only [configureHead, endStarting_frame, State.putSegment_frame]
  split <;> simp (disch := decide)

@[simp] theorem removeHead_frame (h : Field.heads :: .segments :: .quiet :: .device :: redirectFields ⊆ fs) (i a : Nat) :
    SameExcept fs s (removeHead i a t) ↔ SameExcept fs s t := by
  refine SameExcept.strip ?_ h
  simp (disch := decide) [removeHead]

@[simp] theorem putGroup_frame (h : [Field.lamps] ⊆ fs) (n : Nat) (g : LampGroup) :
    SameExcept fs s (putGroup n g t) ↔ SameExcept fs s t := by
  refine SameExcept.strip ?_ h
  simp (disch := decide) [putGroup]

@[simp] theorem hostSet_frame (h : redirectFields ⊆ fs) (g : Nat) (b : Bay) (v : Bool) :
    SameExcept fs s (hostSet g b v t) ↔ SameExcept fs s t := by
  refine SameExcept.strip ?_ h
  simp only [hostSet]; repeat' split
  all_goals simp (disch := decide)

@[simp] theorem setLost_frame (h : Field.lostTime :: .heads :: .fans :: steerFields ⊆ fs) (n : Nat) :
    SameExcept fs s (setLost n t) ↔ SameExcept fs s t := by
  refine SameExcept.strip ?_ h
  simp only [setLost]
  split
  · refine SameExcept.trans (by simp (disch := decide)) (SameExcept.foldl (fun s x => ?_) _ _)
    simp only [loseLate]
    repeat' split
    all_goals simp (disch := decide)
  · simp (disch := decide)

end Sys2Proof.Machine
end

