-- ==== Sys2Proof/Laws/Tables.lean ====
section
/-!
SUPPORT. What the tables of records do: a read after each change of a table, and that every change keeps the canonical
form (numbers strictly rising).
-/
namespace Sys2Proof.Machine

variable {α : Type}

/-! ### A read after a change -/

@[simp] theorem Table.find_nil (n : Nat) : Table.find ([] : Table α) n = none := rfl

/-- A record put is read back, and every other record reads as before. -/
theorem Table.find_put (t : Table α) (n m : Nat) (x : α) :
    (t.put n x).find m = if m = n then some x else t.find m := by
  induction t with
  | nil => simp only [Table.put, Table.find]
  | cons p t ih =>
    obtain ⟨k, v⟩ := p
    simp only [Table.put]
    split
    · simp only [Table.find]
    · split
      · subst_vars; simp only [Table.find]; split <;> simp_all
      · simp only [Table.find, ih]; split <;> simp_all [Ne.symm]

/-- The record put. -/
@[simp] theorem Table.find_put_same (t : Table α) (n : Nat) (x : α) : (t.put n x).find n = some x := by
  simp [Table.find_put]

/-- A record deleted is gone, and every other record reads as before. -/
theorem Table.find_del (t : Table α) (n m : Nat) : (t.del n).find m = if m = n then none else t.find m := by
  induction t with
  | nil => simp [Table.del]
  | cons p t ih =>
    obtain ⟨k, v⟩ := p
    simp only [Table.del]
    split
    · rw [ih, Table.find]; split <;> simp_all
    · simp only [Table.find, ih]; split <;> split <;> simp_all

/-- Every record changed by a function reads as changed. -/
@[simp] theorem Table.find_mapWith (t : Table α) (f : Nat → α → α) (m : Nat) :
    (t.mapWith f).find m = (t.find m).map (f m) := by
  induction t with
  | nil => rfl
  | cons p t ih =>
    obtain ⟨k, v⟩ := p
    simp only [Table.mapWith, List.map_cons, Table.find]
    split
    · subst_vars; rfl
    · exact ih

/-- One record changed by a function reads as changed, and every other record reads as before. -/
theorem Table.find_upd (t : Table α) (n m : Nat) (f : α → α) :
    (t.upd n f).find m = if m = n then (t.find m).map f else t.find m := by
  simp only [Table.upd, Table.find_mapWith]
  split <;> cases t.find m <;> simp_all

/-! ### Membership -/

/-- The records after one is put: the new one, and those that stood. -/
theorem Table.mem_put {t : Table α} {n : Nat} {x : α} {q : Nat × α} (h : q ∈ t.put n x) : q = (n, x) ∨ q ∈ t := by
  induction t with
  | nil => simp_all [Table.put]
  | cons p t ih =>
    obtain ⟨k, v⟩ := p
    simp only [Table.put] at h
    split at h
    · simp_all
    · split at h
      · simp_all; tauto
      · simp only [List.mem_cons] at h ⊢
        rcases h with h | h
        · exact .inr (.inl h)
        · rcases ih h with h | h
          · exact .inl h
          · exact .inr (.inr h)

/-- The records after one is deleted stood before. -/
theorem Table.mem_del {t : Table α} {n : Nat} {q : Nat × α} (h : q ∈ t.del n) : q ∈ t := by
  induction t with
  | nil => simp [Table.del] at h
  | cons p t ih =>
    obtain ⟨k, v⟩ := p
    simp only [Table.del] at h
    split at h
    · simp_all
    · simp only [List.mem_cons] at h ⊢
      exact h.imp_right ih

/-- A record found stands in the table. -/
theorem Table.mem_of_find {t : Table α} {n : Nat} {x : α} (h : t.find n = some x) : (n, x) ∈ t := by
  induction t with
  | nil => simp at h
  | cons p t ih =>
    obtain ⟨k, v⟩ := p
    simp only [Table.find] at h
    split at h <;> simp_all

/-! ### Numbers -/

@[simp] theorem Table.keys_mapWith (t : Table α) (f : Nat → α → α) : (t.mapWith f).keys = t.keys := by
  simp [Table.mapWith, Table.keys, Function.comp_def]

@[simp] theorem Table.keys_upd (t : Table α) (n : Nat) (f : α → α) : (t.upd n f).keys = t.keys :=
  Table.keys_mapWith t _

/-- A number of the table after one is put is that one or stood before. -/
theorem Table.mem_keys_put {t : Table α} {n k : Nat} {x : α} (h : k ∈ (t.put n x).keys) : k = n ∨ k ∈ t.keys := by
  simp only [Table.keys, List.mem_map] at h ⊢
  obtain ⟨q, hq, rfl⟩ := h
  rcases Table.mem_put hq with rfl | hq
  · exact .inl rfl
  · exact .inr ⟨q, hq, rfl⟩

/-- A number of the table after one is deleted stood before. -/
theorem Table.mem_keys_del {t : Table α} {n k : Nat} (h : k ∈ (t.del n).keys) : k ∈ t.keys := by
  simp only [Table.keys, List.mem_map] at h ⊢
  obtain ⟨q, hq, rfl⟩ := h
  exact ⟨q, Table.mem_del hq, rfl⟩

/-! ### The canonical form -/

/-- The canonical form, said of numbers: each number is below all that follow it. -/
theorem Table.wf_cons {k : Nat} {v : α} {t : Table α} :
    Table.wf ((k, v) :: t) = true ↔ (∀ n ∈ t.keys, k < n) ∧ t.wf = true := by
  simp [Table.wf, Table.keys]

/-- A record put keeps the canonical form. -/
theorem Table.wf_put {t : Table α} (h : t.wf = true) (n : Nat) (x : α) : (t.put n x).wf = true := by
  induction t with
  | nil => simp [Table.put, Table.wf]
  | cons p t ih =>
    obtain ⟨k, v⟩ := p
    rw [Table.wf_cons] at h
    simp only [Table.put]
    split
    · rw [Table.wf_cons]
      refine ⟨fun m hm => ?_, Table.wf_cons.2 h⟩
      simp only [Table.keys, List.map_cons, List.mem_cons] at hm
      rcases hm with rfl | hm
      · assumption
      · exact lt_trans ‹_› (h.1 m hm)
    · split
      · subst_vars; exact Table.wf_cons.2 h
      · rw [Table.wf_cons]
        refine ⟨fun m hm => ?_, ih h.2⟩
        rcases Table.mem_keys_put hm with rfl | hm
        · omega
        · exact h.1 m hm

/-- A record deleted keeps the canonical form. -/
theorem Table.wf_del {t : Table α} (h : t.wf = true) (n : Nat) : (t.del n).wf = true := by
  induction t with
  | nil => rfl
  | cons p t ih =>
    obtain ⟨k, v⟩ := p
    rw [Table.wf_cons] at h
    simp only [Table.del]
    split
    · exact ih h.2
    · exact Table.wf_cons.2 ⟨fun m hm => h.1 m (Table.mem_keys_del hm), ih h.2⟩

/-- Records changed where they stand keep the canonical form. -/
theorem Table.wf_mapWith {t : Table α} (h : t.wf = true) (f : Nat → α → α) : (t.mapWith f).wf = true := by
  induction t with
  | nil => rfl
  | cons p t ih =>
    obtain ⟨k, v⟩ := p
    rw [Table.wf_cons] at h
    show Table.wf ((k, f k v) :: Table.mapWith t f) = true
    exact Table.wf_cons.2 ⟨by rw [Table.keys_mapWith]; exact h.1, ih h.2⟩

/-- One record changed where it stands keeps the canonical form. -/
theorem Table.wf_upd {t : Table α} (h : t.wf = true) (n : Nat) (f : α → α) : (t.upd n f).wf = true :=
  Table.wf_mapWith h _

/-- Records dropped keep the canonical form. -/
theorem Table.wf_filter {t : Table α} (h : t.wf = true) (p : Nat × α → Bool) : Table.wf (t.filter p) = true := by
  induction t with
  | nil => rfl
  | cons q t ih =>
    obtain ⟨k, v⟩ := q
    rw [Table.wf_cons] at h
    simp only [List.filter_cons]
    split
    · refine Table.wf_cons.2 ⟨fun m hm => h.1 m ?_, ih h.2⟩
      simp only [Table.keys, List.mem_map] at hm ⊢
      obtain ⟨r, hr, rfl⟩ := hm
      exact ⟨r, (List.mem_filter.1 hr).1, rfl⟩
    · exact ih h.2

/-- In canonical form a record that stands in the table is the one found under its number. -/
theorem Table.find_of_mem {t : Table α} (h : t.wf = true) {n : Nat} {x : α} (hm : (n, x) ∈ t) : t.find n = some x := by
  induction t with
  | nil => simp at hm
  | cons p t ih =>
    obtain ⟨k, v⟩ := p
    rw [Table.wf_cons] at h
    simp only [List.mem_cons, Prod.mk.injEq] at hm
    simp only [Table.find]
    rcases hm with ⟨rfl, rfl⟩ | hm
    · simp
    · have := h.1 n (List.mem_map.2 ⟨(n, x), hm, rfl⟩)
      rw [if_neg (by omega)]
      exact ih h.2 hm

end Sys2Proof.Machine
end

