-- ==== Sys2Proof/Laws/Ops.lean ====
section
/-!
SUPPORT. For the operations that the blocks share, one lemma that says what a record, a latch or a poller reads afterwards.
-/
namespace Sys2Proof.Machine

/-! ### Fixed tables -/

/-- A fixed table after one element is replaced. -/
theorem fixedAt_set {α : Type} {n : Nat} (v : Vector α n) (i j : Nat) (x d : α) :
    fixedAt (v.setIfInBounds i x) j d = if j = i ∧ i < n then x else fixedAt v j d := by
  unfold fixedAt
  by_cases hij : j = i
  · subst hij
    by_cases hj : j < n <;> simp [hj]
  · have : i ≠ j := Ne.symm hij
    by_cases hj : j < n <;> simp [hij, hj, this]

/-- The pollers after one is replaced. -/
theorem State.segment_putSegment (s : State) (i j : Nat) (g : Segment) :
    (s.putSegment i g).segment j = if j = i ∧ i < 4 then g else s.segment j :=
  fixedAt_set s.segments i j g Segment.off

/-- The latches after a source is raised: that source takes the raise, the others stand (R188). -/
theorem State.source_raise (n m : Nat) (zs : List Nat) (d : List Byte) (s : State) :
    (Machine.raise n zs d s).source m =
      if m = n ∧ n < 16 then (s.source n).raise s.partTime (maskOf zs) d else s.source m :=
  fixedAt_set s.sources n m _ _

/-! ### Zones and counts -/

/-- The zone records after one is changed. -/
theorem State.zone_updZone (s : State) (z n : Nat) (f : Zone → Zone) :
    (s.updZone z f).zone n = if n = z then (s.zone n).map f else s.zone n :=
  Table.find_upd s.zones z n f

/-- The counts of each kind after those of one kind are changed. -/
@[simp] theorem Counts.of_upd (c : Counts) (k j : BayKind) (f : KindCounts → KindCounts) :
    (c.upd k f).of j = if j = k then f (c.of j) else c.of j := by
  cases k <;> cases j <;> simp [Counts.upd, Counts.of]

/-- The count of each category after that of one category is changed. -/
@[simp] theorem KindCounts.of_upd (c : KindCounts) (k j : Category) (f : Nat → Nat) :
    (c.upd k f).of j = if j = k then f (c.of j) else c.of j := by
  cases k <;> cases j <;> simp [KindCounts.upd, KindCounts.of]

@[simp] theorem KindCounts.inTransit_upd (c : KindCounts) (k : Category) (f : Nat → Nat) :
    (c.upd k f).inTransit = c.inTransit := by
  cases k <;> rfl

/-! ### Bays -/

/-- The bay records after one is changed with its zone's counts (R24). -/
theorem changeBay_bays (g : Nat) (f : Bay → Bay) (s : State) :
    (changeBay g f s).bays = match s.bays.find g with
      | none => s.bays
      | some b => s.bays.put g (f b) := by
  unfold changeBay moveCount State.updZone
  split
  · simp_all
  · simp_all only
    split
    · simp
    · split <;> simp

/-- A bay that is changed reads as changed, and every other bay as before (R24). -/
theorem changeBay_find (g n : Nat) (f : Bay → Bay) (s : State) :
    (changeBay g f s).bays.find n = if n = g then (s.bays.find n).map f else s.bays.find n := by
  rw [changeBay_bays]
  split
  · next h => split <;> simp_all
  · next b h =>
    rw [Table.find_put]
    split <;> simp_all

/-! ### Lamp groups -/

/-- A settled group is commanded its effective level (R124, R125). -/
@[simp] theorem settleGroup_commanded (d : DeviceState) (z : Option Zone) (g : LampGroup) :
    (settleGroup d z g).commanded = (lampLevel d z g).1 := rfl

@[simp] theorem settleGroup_effective (d : DeviceState) (z : Option Zone) (g : LampGroup) :
    (settleGroup d z g).effective = (lampLevel d z g).1 := rfl

@[simp] theorem settleGroup_reason (d : DeviceState) (z : Option Zone) (g : LampGroup) :
    (settleGroup d z g).reason = (lampLevel d z g).2 := rfl

/-- The groups that pass a test are settled, and the others stand (R125). -/
theorem settleLampsWhere_find (p : Nat → LampGroup → Bool) (s : State) (n : Nat) :
    (settleLampsWhere p s).lamps.find n =
      (s.lamps.find n).map fun g => if p n g then settleGroup s.device (s.zone g.zone) g else g := by
  simp [settleLampsWhere]

/-- Presence brightens the groups of its zone and no other (R122). -/
theorem presence_find (z n : Nat) (s : State) :
    (presence z s).lamps.find n =
      (s.lamps.find n).map fun g =>
        if g.zone = z then settleGroup s.device (s.zone g.zone) (g.brighten s.partTime) else g := by
  simp [presence]

/-! ### Guidance and demand -/

/-- The guidance state of the zones of a list is derived again, and every other zone stands (R11). -/
theorem refreshGuidance_zone (zs : List Nat) (s : State) (n : Nat) :
    (refreshGuidance zs s).zone n =
      (s.zone n).map fun r => if zs.contains n then { r with guidance := deriveGuidance s.device r } else r := by
  simp [refreshGuidance, State.zone]

/-- The demand step of the zones of a list is settled, and every other zone stands (R102). -/
theorem storeDemand_zone (zs : List Nat) (s : State) (n : Nat) :
    (storeDemand zs s).zone n =
      (s.zone n).map fun r => if zs.contains n then { r with demand := demandStep r } else r := by
  simp [storeDemand, State.zone]

/-- Fire states and flags move in every zone (R145). -/
theorem storeFire_zone (move : Nat → Zone → FireMove) (s : State) (n : Nat) :
    (storeFire move s).zone n = (s.zone n).map fun z => z.withFire (move n z) := by
  simp [storeFire, State.zone]

/-! ### Steers -/

/-- The steer table after a steer is retired: its slot is free, every other steer stands (R57). -/
theorem retireSteer_steers (id : Nat) (o : SteerOutcome) (s : State) :
    (retireSteer id o s).steers = match s.steers.find id with
      | none => s.steers
      | some _ => s.steers.del id := by
  unfold retireSteer countPassage transitDown State.updZone
  split
  · simp_all
  · simp_all only
    split <;> simp

/-- A steer that is retired is gone, and every other steer stands (R57). -/
theorem retireSteer_find (id n : Nat) (o : SteerOutcome) (s : State) :
    (retireSteer id o s).steers.find n = if n = id then none else s.steers.find n := by
  rw [retireSteer_steers]
  split
  · next h => split <;> simp_all
  · rw [Table.find_del]

/-! ### Fans and exchanges -/

/-- Where fans take up fire (R139): a fan of a zone in fire state ACTIVE moves on its target, every other fan stands. -/
theorem takeUpFire_find (s : State) (n : Nat) :
    (takeUpFire s).fans.find n = (s.fans.find n).map fun f =>
      if s.zoneIs f.zone fun r => r.fire = .active then
        if fanTarget s f = f.target then f else f.retarget s.partTime s.fanSettings.minOffTime (fanTarget s f)
      else f := by
  simp [takeUpFire]

/-- The pollers while an exchange goes on: that segment's exchange is replaced, every other poller stands. -/
theorem keepExchange_segment (i j : Nat) (x : Exchange) (s : State) :
    (keepExchange i x s).segment j =
      if j = i ∧ i < 4 then { s.segment i with exchange := some x } else s.segment j :=
  State.segment_putSegment s i j _

/-! ### Responses of heads -/

/-- A number that fits one byte is carried as that byte. -/
theorem number_one {n : Nat} (h : n < 256) : number 1 n = [BitVec.ofNat 8 n] := by
  simp [number, h, bigEndian]

/-- The lengths that the parser allows are those of the table of R161. -/
theorem lengthAllowed_iff (k : HeadKind) (n : Nat) : lengthAllowed k n = true ↔ PayloadFits k n := by
  cases k <;> simp [lengthAllowed, PayloadFits, or_assoc]

/-- No head answers with more than 16 bytes of payload (R161). -/
theorem PayloadFits.lt {k : HeadKind} {n : Nat} (h : PayloadFits k n) : n < 17 := by
  cases k <;> simp only [PayloadFits] at h <;> omega

@[simp] theorem HeadKind.ofCode_code (k : HeadKind) : HeadKind.ofCode k.code = some k := by cases k <;> rfl
theorem HeadKind.code_lt (k : HeadKind) : k.code < 256 := by cases k <;> decide
/-- A code that names a kind is that kind's. -/
theorem HeadKind.ofCode_eq {n : Nat} {k : HeadKind} (h : HeadKind.ofCode n = some k) : n = k.code := by
  unfold HeadKind.ofCode at h; split at h <;> simp_all [HeadKind.code] <;> subst h <;> rfl

/-- The bytes of a window parse to a response exactly when they begin with its frame, a valid one (R161, R163). -/
theorem parseResponse_eq_some {address : Nat} {bytes : List Byte} {r : Response} (ha : address < 256) :
    parseResponse address bytes = some r ↔ ValidResponse address bytes r := by
  constructor
  · intro h
    unfold parseResponse at h
    split at h
    · next lead a k status n rest =>
      split at h
      · cases h
      · next kind hk =>
        dsimp only at h
        split at h
        · next hc =>
          obtain ⟨rfl, rfl, hl, hp, hr⟩ := hc
          cases h
          refine ⟨by rw [hp]; exact (lengthAllowed_iff _ _).1 hl, rest.drop (n.toNat + 1), ?_⟩
          have hk' := HeadKind.ofCode_eq hk
          have e1 : rest = rest.take n.toNat ++ (crc8 (a :: k :: status :: n :: rest.take n.toNat)) :: rest.drop (n.toNat + 1) := by
            obtain ⟨hlt, hv⟩ := List.getElem?_eq_some_iff.1 hr
            rw [← hv, List.getElem_cons_drop hlt, List.take_append_drop]
          simp only [Response.frame, hp, ← hk', number_one ha, number_one k.isLt, number_one n.isLt, BitVec.ofNat_toNat, BitVec.setWidth_eq]
          conv_lhs => rw [e1]
          simp
        · cases h
    · cases h
  · rintro ⟨hf, after, rfl⟩
    have hn := hf.lt
    simp only [Response.frame, number_one ha, number_one r.kind.code_lt, number_one (Nat.lt_of_lt_of_le hn (by decide : 17 ≤ 256))]
    have hm : ∀ x, x < 256 → (BitVec.ofNat 8 x).toNat = x := fun x hx => by simp; omega
    have h1 := hm _ ha; have h2 := hm _ r.kind.code_lt; have h3 := hm r.payload.length (by omega)
    simp [parseResponse, h1, h2, h3, HeadKind.ofCode_code, (lengthAllowed_iff _ _).2 hf]

end Sys2Proof.Machine
end

