-- ==== Sys2Proof/Laws/Port.lean ====
section
/-!
SUPPORT. The supervisor port: the command that a selection gives, what a request does in each case of R179 to R181, what a
read transfer does, and how the checks of a serving rule are taken apart.
-/
namespace Sys2Proof.Machine

/-! ### Selections (R178 to R180) -/

/-- A frame that R179 discards gives no request. -/
theorem commandOf_discarded {mosi : List Byte} (h : isDiscarded mosi = true) : commandOf mosi = .discardedFrame mosi := by
  unfold commandOf
  split <;> simp_all

/-- A frame that is taken gives the request of its kind code, with the body that its length byte counts (R178, R179). -/
theorem commandOf_taken {n client kind high low : Byte} {rest : List Byte}
    (h : isDiscarded (n :: client :: kind :: high :: low :: rest) = false) :
    commandOf (n :: client :: kind :: high :: low :: rest) = requestOf kind client (high ++ low) (rest.take (n.toNat - 5)) := by
  simp [commandOf, h]

/-- A request frame with its kind code outside the table of 10.2 is of an unknown kind (R181). -/
theorem requestOf_unknown {kind client : Byte} {tag : Half} {body : List Byte} (h : isRequestKind kind = false) :
    requestOf kind client tag body = .requestKindUnknown client kind tag body := by
  unfold requestOf
  split <;> simp_all [isRequestKind]

/-- While READY is asserted a selection is a read transfer (R180). -/
theorem State.transferOf_ready {s : State} {r mosi : List Byte} (h : s.response = some r) :
    s.transferOf mosi = .readTransfer mosi.length := by
  simp [State.transferOf, h]

/-- While READY is deasserted a selection's frame is read (R179). -/
theorem State.transferOf_idle {s : State} {mosi : List Byte} (h : s.response = none) : s.transferOf mosi = commandOf mosi := by
  simp [State.transferOf, h]

/-- A selection writes the queue alone. -/
theorem State.select_eq (s : State) (mosi : List Byte) :
    s.select mosi = s.setPending (s.pending ++ [s.transferOf mosi]) := rfl

/-! ### The checks of a serving rule -/

/-- A serving rule that goes on past a step has an answer from that step. -/
theorem Check.bind_ok {α β : Type} {x : Check α} {f : α → Check β} {r : β} (h : (x >>= f) = .ok r) :
    ∃ a, x = .ok a ∧ f a = .ok r := by
  cases x with
  | error e => cases h
  | ok a => exact ⟨a, rfl, h⟩

@[simp] theorem Check.ok_bind {α β : Type} (a : α) (f : α → Check β) : ((.ok a : Check α) >>= f) = f a := rfl

@[simp] theorem Check.error_bind {α β : Type} (r : Reply) (f : α → Check β) :
    ((.error r : Check α) >>= f) = .error r := rfl

@[simp] theorem require_true (r : Result) : require true r = .ok () := rfl

@[simp] theorem require_false (r : Result) : require false r = .error (Reply.refuse r) := rfl

@[simp] theorem need_some {α : Type} (x : α) (r : Result) : need (some x) r = .ok x := rfl

@[simp] theorem need_none {α : Type} (r : Result) : (need none r : Check α) = .error (Reply.refuse r) := rfl

/-- A condition passes when it holds. -/
theorem require_ok {c : Bool} {r : Result} {u : Unit} : require c r = .ok u ↔ c = true := by
  cases c <;> simp

/-- A value that must be there passes when it is. -/
theorem need_ok {α : Type} {o : Option α} {r : Result} {x : α} : need o r = .ok x ↔ o = some x := by
  cases o <;> simp

@[simp] theorem served_ok (s : State) (p : Served) : served s (.ok p) = p := rfl

@[simp] theorem served_error (s : State) (r : Reply) : served s (.error r) = (r, s) := rfl

/-- A refused request leaves every record as it was, so a serving rule writes what its accepted cases write (R179). -/
theorem served_frame {gs : List Field} {s : State} {c : Check Served} (h : ∀ p, c = .ok p → SameExcept gs s p.2) :
    SameExcept gs s (served s c).2 := by
  cases c with
  | error r => exact .refl _ _
  | ok p => exact h p rfl

/-! ### Requests -/

/-- Taken while READY is asserted, a request is a read transfer and is lost (R180). -/
theorem request_ready {m : Option Nat} {rule : Rule} {c : Byte} {g : Half} {b : List Byte} {s : State} {r : List Byte}
    (h : s.response = some r) : request m rule c g b s = readOut (5 + b.length) r s := by
  simp [request, h]

/-- A client byte above 7 answers FORM (R181). -/
theorem request_form {m : Option Nat} {rule : Rule} {c : Byte} {g : Half} {b : List Byte} {s : State}
    (h : s.response = none) (hb : bodyFits b = true) (hc : 8 ≤ c.toNat) :
    request m rule c g b s = respond g (Reply.refuse .form) (received b s) := by
  simp [request, h, hb, hc, received]

/-- A level numerically above the minimum level answers AUTHORITY (R181). -/
theorem request_authority {m : Nat} {rule : Rule} {c : Byte} {g : Half} {b : List Byte} {s : State}
    (h : s.response = none) (hb : bodyFits b = true) (hc : c.toNat < 8) (hl : m < s.clientLevel c.toNat) :
    request (some m) rule c g b s = respond g (Reply.refuse .authority) (received b s) := by
  have : ¬8 ≤ c.toNat := by omega
  have hm : m < (s.setMiso (zeros (5 + b.length))).clientLevel c.toNat := hl
  simp [request, h, hb, this, received, hm]

/-- A request that meets no bar is served, and its response stands in the buffer (R179, R181). -/
theorem request_served {m : Nat} {rule : Rule} {c : Byte} {g : Half} {b : List Byte} {s : State} (h : Reaches m c b s) :
    request (some m) rule c g b s =
      respond g (rule c.toNat b (received b s)).1 (rule c.toNat b (received b s)).2 := by
  obtain ⟨h, hb, hc, hl⟩ := h
  have hc' : ¬8 ≤ c.toNat := by omega
  have hm : ¬m < (s.setMiso (zeros (5 + b.length))).clientLevel c.toNat := Nat.not_lt.2 hl
  simp [request, h, hb, hc', received, hm]

/-- The same where the serving rule checks the level (chapter 10.2). -/
theorem request_unlevelled {rule : Rule} {c : Byte} {g : Half} {b : List Byte} {s : State}
    (h : s.response = none) (hb : bodyFits b = true) (hc : c.toNat < 8) :
    request none rule c g b s =
      respond g (rule c.toNat b (received b s)).1 (rule c.toNat b (received b s)).2 := by
  have hc' : ¬8 ≤ c.toNat := by omega
  simp [request, h, hb, hc', received]

/-- A frame's header arrives with MISO at 00h and changes nothing else. -/
@[simp] theorem received_frame {fs : List Field} {s t : State} {b : List Byte} (h : [Field.miso] ⊆ fs) :
    SameExcept fs s (received b t) ↔ SameExcept fs s t := State.setMiso_frame h _

/-- What a read transfer leaves on MISO and in the buffer (R180). -/
theorem readOut_reads (n : Nat) (r : List Byte) (s : State) :
    (readOut n r s).miso = (r ++ zeros n).take n ∧
      (readOut n r s).response = if r.length ≤ n then none else s.response := by
  unfold readOut
  split <;> simp

end Sys2Proof.Machine
end

