-- ==== Sys2Proof/Tests/Slice0.lean ====
section
/-!
SUPPORT. Tests: the refusals of WellFormed, the manual's worked figures and examples (the expected values are the
manual's), and for each statement of Certificates/Slice0/Obligations.lean that has hypotheses a state and operands that
meet them (test_meets_<the statement's name>).
-/
namespace Sys2Proof.Tests
open Sys2Proof Sys2Proof.Machine

/-! ### WellFormed: an ill-formed command for each check -/

/-- A body of 60 bytes. -/
def longBody : List Byte := List.replicate 60 0

theorem test_wellFormed_body :
    [Instr.identify 0 0 longBody, .look 0 0 longBody, .amend 0 0 longBody, .claim 0 0 longBody, .release 0 0 longBody,
      .retire 0 0 longBody, .commission 0 0 longBody, .steer 0 0 longBody, .cancelSteer 0 0 longBody, .push 0 0 longBody,
      .pop 0 0 longBody, .declareFire 0 0 longBody, .clearFire 0 0 longBody, .quiet 0 0 longBody, .wake 0 0 longBody,
      .fetch 0 0 longBody, .fetchDone 0 0 longBody, .configure 0 0 longBody, .go 0 0 longBody, .restart 0 0 longBody,
      .requestKindUnknown 0 0 0 longBody].all (fun c => !c.wellFormed) = true := by decide
theorem test_wellFormed_discarded : (Instr.discardedFrame [0x06, 0x01, 0x0E, 0x01, 0x07, 0x02]).wellFormed = false := by
  decide
theorem test_wellFormed_numbers :
    [Instr.holdExpiry 2048, .steerExpiry 96, .kioskWaitExpiry 32, .showUntil 48, .startEnds 24, .rundownEnds 24,
      .brightUntil 64, .stackEntryExpiry 32 1, .stackEntryExpiry 0 0, .stackEntryExpiry 0 5].all
      (fun c => !c.wellFormed) = true := by decide
theorem test_wellFormed_lane :
    [Instr.lostTimeReached 4 1, .lostTimeReached 0 0, .lostTimeReached 0 31, .pollBuild 4, .responseAccepted 4 [], .miss 4,
      .sweepResume 4, .startupSweepBegin 4].all (fun c => !c.wellFormed) = true := by decide
theorem test_wellFormed_kind : (Instr.requestKindUnknown 0 0x14 0 []).wellFormed = false := by decide

/-! ### Worked figures -/

/-- R164, the fan poll: command step 3 to address 5. -/
theorem test_crc : crcByte 0xFF 0x05 = 0xD1 ∧ crcByte 0xD1 0x04 = 0x38 ∧ crcByte 0x38 0x00 = 0x8A ∧ crcByte 0x8A 0x01 = 0xC5 ∧
    crcByte 0xC5 0x03 = 0xE7 := by decide

theorem test_crc_frame : pollFrame 5 4 0 [0x03] = [0xC5, 0x05, 0x04, 0x00, 0x01, 0x03, 0xE7] := by decide +kernel

/-- R53, all seven rows. -/
theorem test_vehicle_length :
    vehicleLength 300 200 180 420 = some 500 ∧ vehicleLength 300 200 180 421 = some 501 ∧
      vehicleLength 300 200 100 300 = some 700 ∧ vehicleLength 300 200 (-100) 500 = some 1300 ∧
      vehicleLength 300 200 200 50 = some 0 ∧ vehicleLength 300 200 1 30000 = some 3000 ∧
      vehicleLength 300 200 0 420 = none := by decide
theorem test_vehicle_class :
    [some 500, some 501, some 700, some 1300, some 0, some 3000, none].map (vehicleClass { carLimit := 520, vanLimit := 700 }) =
      [.car, .car, .van, .long, .car, .long, .unknown] := by decide

/-- R82, all six rows. -/
theorem test_averages :
    moveAverage 4 10240 7360 = 8080 ∧ moveAverage 32 10240 6520 = 6636 ∧ moveAverage 32 10240 6522 = 6638 ∧
      moveAverage 4 10240 10238 = 10239 ∧ moveAverage 4 10240 10239 = 10239 ∧ moveAverage 32 10240 10256 = 10255 := by
  decide

/-- A zone's air fields with a fast CO and a fast NO2 average. -/
def airAt (fCO fNO : Nat) : ZoneAir := { ZoneAir.start with fCO := fCO, fNO := fNO }

/-- R89. -/
theorem test_auto_step :
    autoStep AirSettings.defaults (airAt 10128 0) = 3 ∧ autoStep AirSettings.defaults (airAt 6401 0) = 1 ∧
      autoStep AirSettings.defaults (airAt 0 200000) = 3 ∧ autoStep AirSettings.defaults (airAt 12800 0) = 4 := by decide

/-- R111: trips at 2,000, 2,300, 2,650 and 2,880. -/
theorem test_trips :
    addTrip 2650 [2000, 2300] = [2000, 2300, 2650] ∧ locksOut [2000, 2300, 2650] = false ∧
      addTrip 2880 [2000, 2300, 2650] = [2300, 2650, 2880] ∧ locksOut [2300, 2650, 2880] = true := by decide

/-- R140: asserted at 5,000, deasserted at 5,001, asserted again at 5,003, complete at 5,005. -/
theorem test_fire_line :
    let f : FireLine := { alarm := false, asserted := false, changeSince := none }
    let g := ((f.see 5000 true).see 5001 false).see 5003 true
    g.changeSince = some 5003 ∧ g.complete 5004 activationTime = false ∧ g.complete 5005 activationTime = true := by decide

/-- R135: an expiry of 45 s is taken as 60 s. -/
theorem test_expiry : clampTo expiryShortest expiryLongest 45 = 60 := by decide

/-- R119: a guard level of 50 is taken as 40; a low level of 20 with guard 25 is taken as 25. -/
theorem test_lamp_clamps : clampGuard 50 = 40 ∧ clampLow 25 20 = 25 := by decide

/-- The response to the worked transaction of chapter 10: NOT_NOW, detail STEERS, one live steer. -/
theorem test_quiet_refusal_frame :
    ({ result := .notNow, detail := 4, body := [0x01] } : Reply).frame 0x0107 = [0x06, 0x01, 0x07, 0x08, 0x04, 0x01] := by
  decide

/-! ### A small car park -/

/-- A zone of four bays. -/
def smallZone (base : Nat) (occupied : Nat) : Zone :=
  { Zone.fresh
      { level := 1, bayBase := base, bayCount := 4, airHeads := [{ segment := 0, address := 1 }], travelTime := 180,
        baseStep := 1, quietBase := 0, blindStep := 2, longAllowed := false, fireGroup := true, haltRole := false } with
    guidance := .opened
    air := { ZoneAir.start with state := .clear, autoDemand := 1 }
    demand := 1
    counts :=
      { Counts.zero with
        standard := { free := 4 - occupied, occupied := occupied, held := 0, unavailable := 0, inTransit := 0 } } }

/-- Zone 0: one bay held, one occupied. -/
def zone0 : Zone :=
  { smallZone 0 1 with
    counts :=
      { Counts.zero with standard := { free := 2, occupied := 1, held := 1, unavailable := 0, inTransit := 0 } } }

/-- A bay without a sensor. -/
def bay (o : Occupancy) (h : Option Hold) : Bay :=
  { kind := .standard, binding := none, service := .inService, locked := false, sense := .sensed, occupancy := o,
    pendingSince := none, lastChange := 0, hold := h }

/-- A hold of client 1 with tag 7 until 150. -/
def hold : Hold := { client := 1, tag := 7, expiry := 150 }

/-- A head that has reported. -/
def head (k : HeadKind) (st : HeadState) : Head := { Head.listed k false with state := st, reference := some 50 }

/-- An entry passage with zones 0 and 1 in its preference list, and a ramp between them. -/
def passages : Table Passage :=
  [(0, Passage.fresh
      { kind := .entry, head := { segment := 0, address := 10 }, fromZone := none, toZone := some 0, preference := [0, 1],
        entrySign := none, spacing := 300, loopLength := 200, wakeFlag := false, kioskWindow := 60 }),
    (1, Passage.fresh
      { kind := .ramp, head := { segment := 0, address := 11 }, fromZone := some 0, toZone := some 1, preference := [],
        entrySign := none, spacing := 300, loopLength := 200, wakeFlag := false, kioskWindow := 60 })]

/-- A fan of zone 0. -/
def fan (st : FanState) (target : Nat) : Fan :=
  { Fan.fresh { segment := 0, address := 4 } 0 none st with
    target := target, startEnds := some 90, rundownEnds := some 90 }

/-- A lamp group of zone 0. -/
def lamp : LampGroup :=
  { head := { segment := 0, address := 5 }, zone := 0, guardLevel := 10, lowLevel := 30, holdTime := 180, egress := false,
    motionFlag := true, bright := false, brightUntil := none, effective := 30, reason := .dim, commanded := 30,
    observed := 30, failed := 0, motionSeen := false, reportTime := none }

/-- Two zones in RUNNING at part time 200: bay 1 held, bay 2 occupied, nothing on its way. -/
def field : State :=
  { State.reset with
    pending := [.partTimeTick]
    partTime := 200
    device := .running
    zones := [(0, zone0), (1, smallZone 4 0)]
    bays :=
      [(0, bay .vacant none), (1, bay .vacant (some hold)), (2, bay .present none), (3, bay .vacant none),
        (4, bay .vacant none), (5, bay .vacant none), (6, bay .vacant none), (7, bay .vacant none)]
    holdCount := 1
    passages := passages
    fans := [(0, fan .running 1)]
    lamps := [(0, lamp)]
    heads := [(1, head .air .live), (4, head .fan .live), (5, head .lamp .silent)]
    nextEvaluation := some 195
    clients := #v[0, 1, 2, 3, 3, 3, 3, 3] }

/-- The field with something changed in zone 0. -/
def withZone (f : Zone → Zone) : State := field.setZones (field.zones.upd 0 f)

/-- The field with bay 0 replaced. -/
def withBay (b : Bay) : State := field.setBays (field.bays.put 0 b)

/-- The field with fan 0 replaced. -/
def withFan (f : Fan) : State := field.setFans [(0, f)]

/-- The field with head 1 of segment 0 replaced. -/
def withHead (h : Head) : State := field.setHeads (field.heads.put 1 h)

/-- The field with segment 0 replaced. -/
def withSegment (g : Segment) : State := field.putSegment 0 g

/-- An exchange with head 1. -/
def exchange : Exchange := { address := 1, frame := [], received := [], beforeWake := false, discarded := false }

/-- A plain steer to zone 0. -/
def steer : Steer :=
  { state := .inTransit, origin := 0, kind := .standard, long := false, vclass := .car, target := 0, firstTarget := none,
    issued := 10, deadline := 190, holdBay := none }

/-- The field with steer 0 live. -/
def withSteer (x : Steer) : State :=
  (withZone fun z => { z with counts := z.counts.upd .standard fun c => { c with inTransit := 1 } }).setSteers [(0, x)]

/-- An entry of a stack. -/
def entry (level : Nat) (v : Vent) (u : GuideSetting) (expiry : Option Nat) : StackEntry :=
  { level := level, client := 1, vent := v, lighting := .auto, guide := u, pushedAt := 20, expiry := expiry }

/-- The field with a stack on zone 0, its demand step and guidance state settled. -/
def withStack (stack : List StackEntry) : State :=
  withZone fun z =>
    { z with
      stack := stack, demand := demandStep { z with stack := stack },
      guidance := deriveGuidance .running { z with stack := stack } }

/-- The entry passage with a kiosk wait until 200. -/
def waiting : Passage :=
  { Passage.fresh
      { kind := .entry, head := { segment := 0, address := 10 }, fromZone := none, toZone := some 0, preference := [0, 1],
        entrySign := none, spacing := 300, loopLength := 200, wakeFlag := false, kioskWindow := 60 } with
    kioskWait := 4, waitUntil := some 200 }

/-! ### Commands on it -/

/-- The response that a command leaves. -/
def responseOf (c : Instr) (s : State) : Option (List Byte) :=
  match exec c s with
  | .next t => t.response
  | _ => none

/-- The worked transaction: client 1 asks for QUIET, WHILE_LINE, while one steer is live. -/
theorem test_quiet_refused :
    responseOf (.quiet 1 0x0107 [0x02]) (withSteer steer) = some [0x06, 0x01, 0x07, 0x08, 0x04, 0x01] := by decide

/-- R184: vendor 1D4Ch, part 0416h, revision 1, RUNNING, POWER, part time 200, two zones, eight bays, three heads. -/
theorem test_identify :
    responseOf (.identify 1 0x0005 []) field =
      some [0x14, 0x00, 0x05, 0x00, 0x00, 0x1D, 0x4C, 0x04, 0x16, 0x01, 0x02, 0x00, 0x00, 0x00, 0x00, 0xC8, 0x02, 0x00, 0x08,
        0x03] := by decide

/-- R14: a travel time of 20 is taken as 30, with result CLAMPED; the prior 180 is returned. -/
theorem test_amend_travel :
    responseOf (.amend 0 0x0001 [0x01, 0x00, 0x05, 0x00, 0x14]) field = some [0x07, 0x00, 0x01, 0x01, 0x00, 0x00, 0xB4] := by
  decide

/-- R93: an AMEND of act CO to 160 is refused with COMBINATION, of bar CO to 600 taken as 500 with CLAMPED. -/
theorem test_amend_air :
    responseOf (.amend 0 0x0001 [0x0A, 0x02, 0x00, 0xA0]) field = some [0x05, 0x00, 0x01, 0x06, 0x00] ∧
      responseOf (.amend 0 0x0001 [0x0A, 0x03, 0x02, 0x58]) field = some [0x07, 0x00, 0x01, 0x01, 0x00, 0x00, 0x96] := by
  decide

/-- R129: an AMEND of the guard level to 35 over a low level of 30 is refused with COMBINATION and returns prior 10. -/
theorem test_amend_guard :
    responseOf (.amend 0 0x0001 [0x0D, 0x00, 0x01, 0x23]) field = some [0x07, 0x00, 0x01, 0x06, 0x00, 0x0A, 0x1E] := by decide

/-- R5: index 4 of a zone of four bays is RANGE, zone 40 is RANGE, an unconfigured zone is NO_RECORD. -/
theorem test_handles :
    responseOf (.retire 0 0x0001 [0x00, 0x04]) field = some [0x05, 0x00, 0x01, 0x04, 0x00] ∧
      responseOf (.retire 0 0x0001 [0x28, 0x02]) field = some [0x05, 0x00, 0x01, 0x04, 0x00] ∧
      responseOf (.retire 0 0x0001 [0x0C, 0x00]) field = some [0x05, 0x00, 0x01, 0x03, 0x00] := by decide

/-! ### Frames of requests -/

/-- The frame of the worked transaction of spec/10, "one transaction", with a byte beyond its length, and the frames that R179 discards. -/
theorem test_frames :
    commandOf [0x06, 0x01, 0x0E, 0x01, 0x07, 0x02] = .quiet 1 0x0107 [0x02] ∧
      commandOf [0x06, 0x01, 0x0E, 0x01, 0x07, 0x02, 0xFF] = .quiet 1 0x0107 [0x02] ∧
      commandOf [0x06, 0x01, 0x0E, 0x01, 0x07] = .discardedFrame [0x06, 0x01, 0x0E, 0x01, 0x07] ∧
      commandOf [0x04, 0x01, 0x0E, 0x01, 0x07] = .discardedFrame [0x04, 0x01, 0x0E, 0x01, 0x07] ∧
      commandOf [0x41, 0x01, 0x0E, 0x01, 0x07] = .discardedFrame [0x41, 0x01, 0x0E, 0x01, 0x07] ∧
      commandOf [] = .discardedFrame [] := by decide

/-- The kind codes of the table of 10.2. -/
theorem test_kind_codes :
    ((List.range 22).map fun k => commandOf [0x05, 0x02, BitVec.ofNat 8 k, 0x12, 0x34]) =
      [.requestKindUnknown 2 0x00 0x1234 [], .identify 2 0x1234 [], .look 2 0x1234 [], .amend 2 0x1234 [], .claim 2 0x1234 [],
        .release 2 0x1234 [], .retire 2 0x1234 [], .commission 2 0x1234 [], .steer 2 0x1234 [], .cancelSteer 2 0x1234 [],
        .push 2 0x1234 [], .pop 2 0x1234 [], .declareFire 2 0x1234 [], .clearFire 2 0x1234 [], .quiet 2 0x1234 [],
        .wake 2 0x1234 [], .fetch 2 0x1234 [], .fetchDone 2 0x1234 [], .configure 2 0x1234 [], .go 2 0x1234 [],
        .restart 2 0x1234 [], .requestKindUnknown 2 0x15 0x1234 []] := by decide

/-! ### The hypotheses of the statements -/

theorem test_meets_StepTakesTheFrontCommand : field.pending = .partTimeTick :: [] ∧ State.reset.pending = [] := by decide
theorem test_meets_RequestsAreLostWhileReady :
    requestParts (.wake 0 1 []) = some (0, 1, []) ∧ (field.setResponse (some [5, 0, 1, 0, 0])).response = some [5, 0, 1, 0, 0] ∧
      (field.setResponse (some [6, 0, 1, 0, 0, 0])).response = some [6, 0, 1, 0, 0, 0] := by decide
theorem test_meets_PortChecksComeFirst :
    requestParts (.wake 8 1 []) = some (8, 1, []) ∧ requestParts (.wake 7 1 []) = some (7, 1, []) ∧ field.response = none ∧
      bodyFits [] = true ∧ 8 ≤ (8 : Byte).toNat ∧ (7 : Byte).toNat < 8 ∧ minLevel (.wake 7 1 []) = some 1 ∧
      1 < field.clientLevel (7 : Byte).toNat := by decide
theorem test_meets_PortChecksComeFirst_selections :
    requestParts (.quiet 1 0x0107 [0x02]) = some (1, 0x0107, [0x02]) ∧ (Instr.quiet 1 0x0107 [0x02]).wellFormed = true ∧
      requestParts (.requestKindUnknown 1 0x15 0 (zeros 59)) = some (1, 0, zeros 59) ∧
      (Instr.requestKindUnknown 1 0x15 0 (zeros 59)).wellFormed = true ∧ field.response = none ∧
      (4 : Byte).toNat < 5 ∧ 64 < (65 : Byte).toNat ∧ [(6 : Byte), 1, 0x0E].length < (6 : Byte).toNat ∧
      (field.setResponse (some [5, 0, 1, 0, 0])).response = some [5, 0, 1, 0, 0] ∧ State.reset.pending = [] := by decide
theorem test_meets_ReadTransfersEmptyTheBuffer :
    (field.setResponse (some [5, 0, 1, 0, 0])).response = some [5, 0, 1, 0, 0] ∧ field.response = none := by decide
theorem test_meets_IdentifyReportsTheDevice : Reaches 3 7 [] field := by unfold Reaches; decide

/-- Sources 3 (level 1) and 0 (level 0) set, and source 1 too. -/
def twoLatches : State := Machine.raise 1 [1] [] (Machine.raise 0 [0] [] (Machine.raise 3 [] [] field))

theorem test_meets_FetchTakesTheMostUrgentLatch :
    Reaches 1 1 [] twoLatches ∧ (twoLatches.source 0).isSet = true ∧ (twoLatches.source 0).firstSet = some 200 ∧
      (twoLatches.source 0).detail = some [] ∧
      (∀ m, m < 16 → (twoLatches.source m).isSet = true →
        (twoLatches.source 0).level < (twoLatches.source m).level ∨
          ((twoLatches.source 0).level = (twoLatches.source m).level ∧ 0 ≤ m)) ∧
      ∀ m, m < 16 → (field.source m).isSet = false := by
  unfold Reaches; decide
theorem test_meets_FetchDoneFreesAttention : Reaches 1 1 [] field := by unfold Reaches; decide
theorem test_meets_ARaiseSetsOneLatch :
    (field.source 15).isSet = false ∧ (twoLatches.source 0).isSet = true ∧ (twoLatches.source 0).count ≤ 255 := by decide
theorem test_meets_ClientLevelsAreSetForClientZero :
    Reaches 0 0 [0x14, 8, 0] field ∧ Reaches 0 0 [0x14, 7, 4] field ∧ Reaches 0 0 [0x14, 0, 3] field ∧
      Reaches 0 0 [0x14, 7, 3] field ∧ Reaches 0 1 [0x14, 1, 0] (field.setClients (Vector.replicate 8 0)) := by
  unfold Reaches; decide

/-- The field before its start. -/
def before : State :=
  (((withZone fun z => { z with guidance := .closedStart }).setDevice .unconfigured).setLamps []).setZones
    (field.zones.mapWith fun _ z => { z with guidance := .closedStart })

theorem test_meets_GoTakesTheDeviceToStarting :
    Reaches 0 0 [] before ∧ before.device = .unconfigured ∧ GuidanceSettled before ∧ before.zones ≠ [] ∧
      (∀ q ∈ before.zones, q.2.config.airHeads ≠ []) ∧ (∀ q ∈ before.bays, q.2.binding = none) ∧
      (∀ q ∈ before.passages, ∀ z ∈ q.2.config.zones, (before.zone z).isSome = true) ∧
      (∀ q ∈ before.passages, q.2.config.kind = .entry → q.2.config.preference ≠ []) ∧
      (∀ q ∈ before.fans, ∀ z ∈ q.2.zone :: optList q.2.assist, (before.zone z).isSome = true) ∧ before.lamps = [] ∧
      before.signs = [] := by
  unfold Reaches GuidanceSettled EachRecord; decide
theorem test_meets_GoTakesTheDeviceToStarting_fire :
    let s := ((before.setZones (before.zones.upd 0 fun z => { z with fire := .active, guidance := .closedFire })).setFans
      [(0, fan .unreached 0)])
    GuidanceSettled s ∧ s.fans.find 0 = some (fan .unreached 0) ∧ s.zoneIs 0 (fun z => z.fire = .active) = true ∧
      Reaches 0 0 [] s ∧ s.device = .unconfigured := by
  unfold Reaches GuidanceSettled EachRecord; decide
theorem test_meets_GoTakesTheDeviceToStarting_refused :
    Reaches 0 0 [] field ∧ field.device ≠ .unconfigured ∧ Reaches 0 0 [] State.reset ∧
      State.reset.device = .unconfigured ∧ State.reset.zones = [] := by
  unfold Reaches; decide
theorem test_meets_RestartKeepsTheConfiguration :
    Reaches 0 0 [] field ∧ field.device ≠ .unconfigured ∧ Reaches 0 0 [] before ∧ before.device = .unconfigured := by
  unfold Reaches; decide

/-- The body of a CONFIGURE of zone 31 with the last 16 bays. -/
def lastZone : List Byte := number 1 1 ++ number 1 31 ++ number 1 6 ++ number 2 2032 ++ number 1 16 ++ zeros 8

theorem test_meets_ConfigureMakesAZone :
    Reaches 0 0 lastZone before ∧ before.device = .unconfigured ∧ before.zone 31 = none ∧ 2032 + 16 ≤ 2048 ∧
      (∀ q ∈ before.zones, ∀ g, 2032 ≤ g → g < 2032 + 16 → q.2.config.covers g = false) ∧
      (∀ g, 2032 ≤ g → g < 2032 + 16 → before.bays.find g = none) ∧ before.bays.wf = true := by
  unfold Reaches; decide
theorem test_meets_AmendClampsTheTravelTime :
    Reaches 1 1 (number 1 1 ++ number 1 0 ++ number 1 5 ++ number 2 29) field ∧ (field.zone 0).isSome = true := by
  unfold Reaches; decide
/-- The codes, fields and widths of the settings that an AMEND names, each with the ends of its range. -/
def settings : List (Nat × Nat × Nat × Nat × Nat) :=
  [(3, 1, 1, 2, 60), (7, 1, 2, 200, 1500), (7, 2, 2, 200, 3000), (0x0A, 1, 2, 5, 500), (0x0A, 4, 2, 100, 10000),
    (0x0A, 7, 1, 0, 16), (0x0A, 8, 1, 0, 8), (0x0A, 9, 2, 30, 600), (0x0C, 1, 1, 1, 4), (0x0C, 2, 1, 2, 30), (0x0C, 3, 1, 5, 120),
    (0x0E, 1, 1, 1, 32), (0x11, 1, 2, 10, 600), (0x11, 2, 2, 5, 120), (0x13, 1, 1, 5, 120)]

theorem test_meets_AmendClampsTheTravelTime_settings :
    (∀ x ∈ settings, ∀ v ∈ [x.2.2.2.1, x.2.2.2.2, x.2.2.2.2 + 1], v < 256 ^ x.2.2.1 ∧
      Reaches 1 1 (number 1 x.1 ++ number 1 x.2.1 ++ number x.2.2.1 v) field) ∧
      max 200 (min 1500 700) ≤ field.passageSettings.vanLimit ∧ field.passageSettings.vanLimit < max 200 (min 1500 701) ∧
      field.passageSettings.carLimit ≤ max 200 (min 3000 520) ∧ max 200 (min 3000 519) < field.passageSettings.carLimit ∧
      field.airSettings.watchCO < 26 ∧ 26 < field.airSettings.barCO ∧ startingCount field ≤ max 1 (min 4 0) ∧
      (let s := field.setFans [(0, fan .starting 1), (1, fan .starting 1)]
       max 1 (min 4 1) < startingCount s ∧ Reaches 1 1 (number 1 0x0C ++ number 1 1 ++ number 1 1) s) ∧
      (∀ v ∈ [31, 32, 255], Reaches 1 1 (number 1 9 ++ number 1 v ++ number 1 1 ++ halfBytes 5 ++ flagByte true) field) ∧
      ∀ v ∈ [0, 15, 16], (field.source v).level ≤ 3 ∧
        (∀ level ∈ [3, 4], Reaches 0 0 (number 1 0x15 ++ number 1 v ++ number 1 1 ++ number 1 level) field) ∧
        Reaches 0 0 (number 1 0x15 ++ number 1 v ++ number 1 2 ++ flagByte false) field := by
  unfold Reaches; decide
theorem test_meets_ClientLevelsAreSetForClientZero_settings :
    field.device ≠ .unconfigured ∧ before.device = .unconfigured ∧
      (∀ s ∈ [field, before],
        (∀ v ∈ [none, some 0, some 255],
          Reaches 0 0 (number 1 0x03 ++ optBytes (number 1) v) s ∧
            Reaches 0 0 (number 1 0x07 ++ optBytes (number 2) v ++ optBytes (number 2) none) s ∧
            Reaches 0 0 (number 1 0x0C ++ optBytes (number 1) v ++ optBytes (number 1) v ++ optBytes (number 1) v) s ∧
            Reaches 0 0 (number 1 0x0E ++ optBytes (number 1) v) s ∧
            Reaches 0 0 (number 1 0x11 ++ optBytes (number 2) v ++ optBytes (number 2) v) s ∧
            Reaches 0 0 (number 1 0x13 ++ optBytes (number 1) v) s) ∧
        Reaches 0 0 (number 1 0x0A ++ optBytes (number 2) (some 500) ++ zeros 8) s ∧ Reaches 0 0 (number 1 0x0A ++ zeros 9) s ∧
        Reaches 0 0 (number 1 9 ++ number 1 2 ++
          [(0, (1 : Half), true), (31, 2, false)].flatMap fun e => number 1 e.1 ++ halfBytes e.2.1 ++ flagByte e.2.2) s ∧
        ∀ n ∈ [15, 16], ∀ level ∈ [none, some 3, some 4],
          Reaches 0 0 (number 1 0x15 ++ number 1 n ++ optBytes (number 1) level ++ optBytes flagByte (some false)) s) ∧
      ([(0, (1 : Half), true), (31, 2, false)].map Prod.fst).Nodup ∧ (field.source 15).level ≤ 3 := by
  unfold Reaches; decide
theorem test_meets_LookReportsTheCounts :
    Reaches 3 3 (number 1 1 ++ number 1 1 ++ number 1 1) field ∧ (field.zone 1).isSome = true ∧ field.zone 31 = none ∧
      Reaches 3 3 (number 1 1 ++ number 1 31 ++ number 1 1) field ∧ Reaches 3 3 (number 1 1 ++ number 1 32 ++ number 1 1) field := by
  unfold Reaches; decide

/-- The body of a CLAIM in zone 0 with tag 7 and a duration. -/
def claimBody (form second : Nat) (d : Option Nat) : List Byte :=
  number 1 form ++ number 1 0 ++ number 1 second ++ halfBytes 7 ++ optBytes (number 2) d

theorem test_meets_ClaimMakesAHold :
    (∀ s ∈ [field, before, field.setHoldCount 256], ∀ d ∈ [none, some 59, some 60, some 7200, some 7201],
      (∀ i ∈ [0, 1, 2, 3], Reaches 2 1 (claimBody 0 i d) s ∧ Reaches 2 2 (claimBody 0 i d) s) ∧
        Reaches 2 1 (claimBody 1 0 d) s ∧ Reaches 2 1 (claimBody 1 1 d) s) ∧
      field.device ≠ .unconfigured ∧ before.device = .unconfigured ∧ (before.zone 0).isSome = true ∧
      Names field 0 3 3 zone0 (bay .vacant none) ∧ (bay .vacant none).category = .free ∧ (bay .vacant none).locked = false ∧
      field.holdCount < 256 ∧ 256 ≤ (field.setHoldCount 256).holdCount ∧
      Names field 0 1 1 zone0 (bay .vacant (some hold)) ∧ (bay .vacant (some hold)).category = .held ∧
      hold.client = (1 : Byte).toNat ∧ hold.tag = 7 ∧ hold.client ≠ (2 : Byte).toNat ∧
      Names field 0 2 2 zone0 (bay .present none) ∧ (bay .present none).category = .occupied ∧
      (∀ q ∈ field.steers, q.2.holdBay ≠ some (0, 1)) := by
  unfold Reaches Names; and_intros <;> decide
theorem test_meets_ClaimMakesAHold_bays :
    (∀ b ∈ [bay .arriving none, { bay .vacant none with locked := true }, { bay .vacant none with service := .outOfService }],
      Names (withBay b) 0 0 0 zone0 b ∧ Reaches 2 1 (claimBody 0 0 none) (withBay b)) ∧
      (bay .arriving none).category = .free ∧ { bay .vacant none with service := .outOfService }.category = .unavailable ∧
      field.clientLevel 1 ≠ 0 ∧
      Names field 0 0 0 zone0 (bay .vacant none) ∧ (bay .vacant none).Takes .standard 1 ∧
      (∀ j < zone0.config.bayCount, ∀ c ∈ field.bays.find j, ¬c.Takes .wide 1) ∧
      let s := field.setBays [(0, bay .arriving none), (1, bay .vacant (some hold)), (2, bay .present none), (3, bay .present none)]
      (∀ j < zone0.config.bayCount, ∀ c ∈ s.bays.find j, ¬c.Takes .standard 1) ∧ Reaches 2 1 (claimBody 1 0 none) s ∧
        s.bays.find 0 = some (bay .arriving none) := by
  unfold Reaches Names Bay.Takes; and_intros <;> decide
/-- The field with a held steer bound for bay 1. -/
def withHeldSteer : State := field.setSteers [(0, { steer with holdBay := some (0, 1), deadline := 150 })]

theorem test_meets_ClaimMakesAHold_steer :
    Reaches 2 1 (claimBody 0 1 none) withHeldSteer ∧ Names withHeldSteer 0 1 1 zone0 (bay .vacant (some hold)) ∧
      withHeldSteer.steers.wf = true ∧ (0, { steer with holdBay := some (0, 1), deadline := 150 }) ∈ withHeldSteer.steers ∧
      ∀ q ∈ withHeldSteer.steers, q.2.holdBay = some (0, 1) → q.1 = 0 := by
  unfold Reaches Names; decide
theorem test_meets_ReleaseEndsAHold :
    Reaches 2 1 (number 1 0 ++ number 1 1 ++ halfBytes 7) field ∧ Names field 0 1 1 zone0 (bay .vacant (some hold)) ∧
      (bay .vacant (some hold)).category = .held ∧ (∀ q ∈ field.steers, q.2.holdBay ≠ some (0, 1)) ∧
      Reaches 2 1 (number 1 0 ++ number 1 1 ++ halfBytes 8) field ∧ Reaches 2 2 (number 1 0 ++ number 1 1 ++ halfBytes 7) field ∧
      field.clientLevel 2 = 2 ∧ Reaches 2 0 (number 1 0 ++ number 1 1 ++ halfBytes 9) field ∧ field.clientLevel 0 ≤ 1 ∧
      Reaches 2 1 (number 1 0 ++ number 1 3 ++ halfBytes 7) field ∧ Names field 0 3 3 zone0 (bay .vacant none) := by
  unfold Reaches Names; decide
theorem test_meets_ReleaseEndsAHold_steer :
    Reaches 2 1 (number 1 0 ++ number 1 1 ++ halfBytes 7) withHeldSteer ∧
      Names withHeldSteer 0 1 1 zone0 (bay .vacant (some hold)) ∧ withHeldSteer.steers.wf = true ∧
      (0, { steer with holdBay := some (0, 1), deadline := 150 }) ∈ withHeldSteer.steers ∧
      ∀ q ∈ withHeldSteer.steers, q.2.holdBay = some (0, 1) → q.1 = 0 := by
  unfold Reaches Names; decide

theorem test_meets_AHoldExpiresAtItsUntil :
    Names field 0 1 1 zone0 (bay .vacant (some hold)) ∧ hold.expiry ≤ field.partTime ∧
      Names (field.setPartTime 149) 0 1 1 zone0 (bay .vacant (some hold)) ∧ (field.setPartTime 149).partTime < hold.expiry ∧
      (bay .vacant (some hold)).category = .held ∧ (∀ q ∈ field.steers, q.2.holdBay ≠ some (0, 1)) ∧
      Names withHeldSteer 0 1 1 zone0 (bay .vacant (some hold)) ∧ withHeldSteer.steers.wf = true ∧
      (0, { steer with holdBay := some (0, 1), deadline := 150 }) ∈ withHeldSteer.steers ∧
      ∀ q ∈ withHeldSteer.steers, q.2.holdBay = some (0, 1) → q.1 = 0 := by
  unfold Names; decide

/-- A bay out of service. -/
def outBay : Bay := { bay .vacant none with service := .outOfService }

theorem test_meets_AHoldExpiresAtItsUntil_gone :
    field.bays.wf = true ∧ Names field 0 1 1 zone0 (bay .vacant (some hold)) ∧ (bay .vacant (some hold)).category = .held ∧
      Names field 0 3 3 zone0 (bay .vacant none) ∧ Names (withBay outBay) 0 0 0 zone0 outBay ∧ outBay.hold = none := by
  unfold Names; decide

theorem test_meets_RetireTakesABayOut :
    Reaches 1 1 (number 1 0 ++ number 1 3) field ∧ Names field 0 3 3 zone0 (bay .vacant none) ∧
      (bay .vacant none).service = .inService ∧ Names (withBay outBay) 0 0 0 zone0 outBay ∧
      Reaches 1 1 (number 1 0 ++ number 1 0) (withBay outBay) ∧
      Names (withBay { outBay with locked := true }) 0 0 0 zone0 { outBay with locked := true } ∧
      Reaches 1 1 (number 1 0 ++ number 1 0) (withBay { outBay with locked := true }) ∧
      (withBay { outBay with locked := true }).clientLevel 1 ≠ 0 := by
  unfold Reaches Names; decide
theorem test_meets_RetireTakesABayOut_held :
    Reaches 1 1 (number 1 0 ++ number 1 1) withHeldSteer ∧ Names withHeldSteer 0 1 1 zone0 (bay .vacant (some hold)) ∧
      (bay .vacant (some hold)).category = .held ∧ (bay .vacant (some hold)).locked = false := by
  unfold Reaches Names; decide

/-- A bay out of service that is bound to sensor 15 of head 1 of segment 0. -/
def boundBay : Bay := { outBay with binding := some { segment := 0, address := 1, sensor := 15 } }

/-- The field with that bay as bay 0, and its head. -/
def withBayHead (h : Head) : State := (withHead h).setBays (field.bays.put 0 boundBay)

/-- A report of sixteen values, the last as given. -/
def sixteen (last : Byte) : Option HeadReport := some { payload := List.replicate 15 0 ++ [last], time := 100 }

theorem test_meets_CommissionResyncsABay :
    Names (withBay outBay) 0 0 0 zone0 outBay ∧ outBay.service = .outOfService ∧ outBay.binding = none ∧
      (∀ b ∈ [(0x00 : Byte), 0x01, 0x02],
        Names (withBayHead { head .bay .live with report := sixteen b }) 0 0 0 zone0 boundBay ∧
          Reaches 1 1 (number 1 0 ++ number 1 0) (withBayHead { head .bay .live with report := sixteen b }) ∧
          (withBayHead { head .bay .live with report := sixteen b }).head 0 1 =
            some { head .bay .live with report := sixteen b } ∧
          (List.replicate 15 0 ++ [b])[15]? = some b) ∧
      Names (withBayHead (head .bay .lost)) 0 0 0 zone0 boundBay ∧
      (withBayHead (head .bay .lost)).head 0 1 = some (head .bay .lost) := by
  unfold Reaches Names; decide
theorem test_meets_ASensorChangeWaitsToSettle :
    Names field 0 0 0 zone0 (bay .vacant none) ∧ Names field 0 2 2 zone0 (bay .present none) ∧
      (∀ o ∈ [Occupancy.arriving, .departing], ∀ p ∈ [194, 195],
        Names (withBay { bay o none with pendingSince := some p }) 0 0 0 zone0 { bay o none with pendingSince := some p }) ∧
      194 + field.settleTime ≤ field.partTime ∧ ¬195 + field.settleTime ≤ field.partTime ∧
      (∀ x ∈ [Sense.fault, .unsensed],
        Names (withBay { bay .vacant none with sense := x }) 0 0 0 zone0 { bay .vacant none with sense := x }) ∧
      (bay .vacant none).sense = .sensed := by
  unfold Names; decide

/-- A change that has waited the settle time on bay 0. -/
def due (o : Occupancy) (h : Option Hold) : Bay := { bay o h with pendingSince := some 194 }

/-- Two plain steers to zone 0, the one in slot 1 the older. -/
def twoSteers : Table Steer := [(0, steer), (1, { steer with issued := 9 })]

/-- An arrival on bay 0 that a held steer heads for. -/
def heldArrival : State := (withBay (due .arriving (some hold))).setSteers [(0, { steer with holdBay := some (0, 0) })]

/-- An arrival on bay 0, without a hold, with two plain steers to its zone. -/
def plainArrival : State := (withBay (due .arriving none)).setSteers twoSteers

theorem test_meets_ASensorChangeWaitsToSettle_confirmed :
    ∀ o ∈ [Occupancy.arriving, .departing], ∀ h ∈ [none, some hold],
      Names (withBay (due o h)) 0 0 0 zone0 (due o h) ∧ (due o h).service = .inService ∧ (due o h).sense = .sensed ∧
        194 + (withBay (due o h)).settleTime ≤ (withBay (due o h)).partTime ∧ (withBay (due o h)).steers = [] := by
  unfold Names; decide
theorem test_meets_ASensorChangeWaitsToSettle_held :
    Names heldArrival 0 0 0 zone0 (due .arriving (some hold)) ∧ heldArrival.steers.wf = true ∧
      (0, { steer with holdBay := some (0, 0) }) ∈ heldArrival.steers ∧
      ∀ q ∈ heldArrival.steers, q.2.holdBay = some (0, 0) → q.1 = 0 := by
  unfold Names; decide
theorem test_meets_ASensorChangeWaitsToSettle_plain :
    Names plainArrival 0 0 0 zone0 (due .arriving none) ∧
      OldestPlain (fun y => y.target = 0 ∧ y.kind = (due .arriving none).kind) plainArrival 1 { steer with issued := 9 } := by
  unfold Names OldestPlain; dsimp only; decide
theorem test_meets_ASensorChangeWaitsToSettle_report :
    field.bays.wf = true ∧ Names (withBay boundBay) 0 0 0 zone0 boundBay ∧ boundBay.service = .outOfService ∧
      boundBay.binding.isSome = true ∧
      Names (withBay { boundBay with service := .inService }) 0 0 0 zone0 { boundBay with service := .inService } := by
  unfold Names; decide
theorem test_meets_ZoneChoiceTakesTheFirstZoneThatQualifies :
    (field.setSteers twoSteers).steers.wf = true ∧
      (withHeldSteer.steers.find 0 = some { steer with holdBay := some (0, 1), deadline := 150 } ∧
        Names withHeldSteer 0 1 1 zone0 (bay .vacant (some hold)) ∧ (bay .vacant (some hold)).category = .held) ∧
      ((withSteer steer).steers.find 0 = some steer ∧ steer.target ∈ [0] ∧
        (withSteer steer).passages.find steer.origin = passages.head?.map Prod.snd ∧
        zoneChoice (withSteer steer) [0, 1] steer.kind steer.long [0] = some 1 ∧
        (withSteer steer).zone 1 = some (smallZone 4 0) ∧
        zoneChoice (withSteer steer) [0, 1] steer.kind steer.long [0, 1] = none) := by
  unfold Names; decide
theorem test_meets_VehicleLengthAndClass : State.reset.passageSettings.carLimit ≤ State.reset.passageSettings.vanLimit := by
  decide
theorem test_meets_SteerIssuesAPlainSteer :
    Reaches 2 2 (number 1 0 ++ number 1 BayKind.standard.code ++ flagByte false ++ [0x00] ++ halfBytes 7) field ∧
      field.device = .running ∧ field.passages.find 0 = (passages.head?.map Prod.snd) ∧
      (passages.head?.map fun p => (decide (p.2.config.kind = .entry), decide (p.2.kioskWait ≤ 4))) = some (true, true) ∧
      zoneChoice field [0, 1] .standard false [] = some 0 ∧ field.zone 0 = some zone0 ∧ field.steers.find 0 = none ∧
      (∀ m, m < 0 → field.steers.find m ≠ none) ∧ (takeSlot field).map Prod.fst = some 0 ∧
      ∀ p ∈ passages, p.2.config.kind = .entry → p.2.kioskWait = 0 ∧ p.2.classOf field 180 420 = .car := by
  unfold Reaches; decide

/-- The field with all 96 slots taken by copies of a steer, issued one after another. -/
def withFullTable (x : Steer) : State :=
  field.setSteers ((List.range 96).map fun n => (n, { x with issued := 10 + n }))

theorem test_meets_SteerIssuesAPlainSteer_hold :
    let body := number 1 0 ++ number 1 BayKind.standard.code ++ flagByte false ++ flagByte true ++ halfBytes 7
    Reaches 2 2 body field ∧ field.holdCount < 256 ∧ Names field 0 0 0 zone0 (bay .vacant none) ∧
      (bay .vacant none).Takes .standard (field.clientLevel 2) ∧ Reaches 2 2 body (field.setHoldCount 256) ∧
      zoneChoice (field.setHoldCount 256) [0, 1] .standard false [] = some 0 := by
  unfold Reaches Names Bay.Takes; decide
theorem test_meets_SteerIssuesAPlainSteer_full :
    (∀ m, m < 96 → (withFullTable steer).steers.find m ≠ none) ∧
      OldestPlain (fun _ => True) (withFullTable steer) 0 { steer with issued := 10 } ∧
      ∀ q ∈ (withFullTable { steer with holdBay := some (0, 1) }).steers, q.2.holdBay ≠ none := by
  unfold OldestPlain; dsimp only; decide
theorem test_meets_SteerWithNoZoneIsFull :
    Reaches 2 2 (number 1 0 ++ number 1 BayKind.wide.code ++ flagByte false ++ flagByte true ++ halfBytes 7) field ∧
      field.device = .running ∧ zoneChoice field [0, 1] .wide false [] = none ∧
      Reaches 2 2 (number 1 0 ++ number 1 BayKind.wide.code ++ flagByte false ++ flagByte true ++ halfBytes 7)
        (field.setDevice .starting) ∧ (field.setDevice .starting).device = .starting := by
  unfold Reaches; decide
theorem test_meets_SteerWithNoZoneIsFull_passage :
    (∀ d ∈ [DeviceState.starting, .running],
      (field.setDevice d).passages.find 0 = passages.head?.map Prod.snd ∧ (field.setDevice d).device ≠ .quiet) ∧
      (field.setPassages [(0, { (passages.head?.map Prod.snd).getD waiting with kioskWait := 4 })]).passages.find 0 =
        some { (passages.head?.map Prod.snd).getD waiting with kioskWait := 4 } ∧
      takeSlot (withFullTable { steer with holdBay := some (0, 1) }) = none := by
  decide
theorem test_meets_SteerWithNoZoneIsFull_qualifies : ∀ z ∈ [0, 1], ¬Qualifies field .wide false [] z := by
  intro z hz ⟨_, r, hr, _, h, _⟩
  have : r.counts.of .wide = KindCounts.zero := by
    rcases List.mem_pair.mp hz with rfl | rfl
    · have := Option.some.inj (hr.symm.trans (show field.zone 0 = some zone0 by decide)); subst this; decide
    · have := Option.some.inj (hr.symm.trans (show field.zone 1 = some (smallZone 4 0) by decide)); subst this; decide
  rw [this] at h
  exact absurd h (by decide)
theorem test_meets_CancelSteerRetiresAPlainSteer :
    Reaches 1 1 (number 1 0) (withSteer steer) ∧ (withSteer steer).steers.find 0 = some steer ∧ steer.holdBay = none ∧
      Reaches 1 1 (number 1 95) field ∧ field.steers.find 95 = none ∧ Reaches 1 1 (number 1 96) field := by
  unfold Reaches; decide
theorem test_meets_CancelSteerRetiresAPlainSteer_held :
    Reaches 1 1 (number 1 0) withHeldSteer ∧ withHeldSteer.steers.wf = true ∧
      (0, { steer with holdBay := some (0, 1), deadline := 150 }) ∈ withHeldSteer.steers ∧
      (∀ q ∈ withHeldSteer.steers, q.2.holdBay = some (0, 1) → q.1 = 0) ∧
      Names withHeldSteer 0 1 1 zone0 (bay .vacant (some hold)) ∧ (bay .vacant (some hold)).category = .held := by
  unfold Reaches Names; decide
theorem test_meets_APlainSteerExpiresAtItsDeadline :
    (withSteer steer).steers.find 0 = some steer ∧ steer.holdBay = none ∧ steer.deadline ≤ (withSteer steer).partTime ∧
      ((withSteer steer).setPartTime 189).steers.find 0 = some steer ∧ ((withSteer steer).setPartTime 189).partTime < steer.deadline ∧
      withHeldSteer.steers.find 0 = some { steer with holdBay := some (0, 1), deadline := 150 } := by
  decide

/-- A sign with a show until 200. -/
def showing : Sign :=
  { Sign.fresh
      { head := { segment := 0, address := 6 }, watched := [], directions := [], showTime := 8, hostFlag := false } with
    shown := some { situation := 1, zone := none, expiry := 200 } }

/-- A lamp group that is BRIGHT until 200. -/
def brightLamp : LampGroup :=
  { lamp with bright := true, brightUntil := some 200, effective := 100, commanded := 100, reason := .bright }

theorem test_meets_WaitsShowsAndBrightTimesEnd :
    (∀ now ∈ [199, 200], (((field.setPassages [(0, waiting)]).setSigns [(47, showing)]).setLamps [(63, brightLamp)]
      |>.setPartTime now).passages.find 0 = some waiting) ∧
      waiting.waitUntil = some 200 ∧ (field.setSigns [(47, showing)]).signs.find 47 = some showing ∧
      showing.shown = some { situation := 1, zone := none, expiry := 200 } ∧
      (field.setLamps [(63, brightLamp)]).lamps.find 63 = some brightLamp ∧ brightLamp.bright = true ∧
      brightLamp.brightUntil = some 200 ∧ ((field.setLamps [(63, brightLamp)]).setPartTime 199).partTime < 200 ∧
      200 ≤ (field.setLamps [(63, brightLamp)]).partTime := by
  decide
theorem test_meets_ARampPassageCreditsItsZone :
    (field.passages.find 1).map (fun r =>
      (r.config.kind, r.config.fromZone, r.config.toZone, r.config.wakeFlag)) = some (.ramp, some 0, some 1, false) ∧
      (field.passages.find 0).map (fun r => r.config.kind) = some .entry ∧ field.passages.wf = true ∧
      (∀ q ∈ field.passages, q.2.config.head ≠ { segment := 0, address := 12 }) ∧
      (∀ q ∈ field.passages, q.2.config.head = { segment := 0, address := 11 } → q.1 = 1) ∧ [0].length % 4 = 1 := by
  decide
theorem test_meets_ARampPassageCreditsItsZone_wake :
    let r := { waiting with config := { waiting.config with wakeFlag := true } }
    ((field.setDevice .quiet).setPassages [(0, r)]).passages.find 0 = some r ∧ r.config.wakeFlag = true ∧
      ((field.setDevice .quiet).setPassages [(0, r)]).device = .quiet := by
  decide
theorem test_meets_ASignShowsItsSituation : { showing with shown := none }.shown = none := by decide
theorem test_meets_TheAutomaticStepIsACeiling :
    AirSettings.defaults.watchCO < AirSettings.defaults.actCO ∧ AirSettings.defaults.watchNO < AirSettings.defaults.actNO := by
  decide
theorem test_meets_AirStatesRiseAtOnceAndFallByDwell : { airAt 0 0 with dwell := 3 }.dwell ≤ 3 := by decide

/-- An AIR head that reported at part time 190, 10 ppm and 100 ppb. -/
def airHead : Head :=
  { head .air .live with report := some { payload := [0x00, 0x0A, 0x00, 0x64, 0x00], time := 190 } }

theorem test_meets_AnAirEvaluationSettlesEveryZone :
    field.device ≠ .unconfigured ∧ field.nextEvaluation = some 195 ∧ 195 ≤ field.partTime ∧
      field.zone 0 = some zone0 ∧ freshReports (withHead airHead).heads 200 zone0.config.airHeads ≠ [] ∧
      (withHead airHead).zone 0 = some zone0 ∧ freshReports field.heads 200 zone0.config.airHeads = [] ∧
      zone0.air.coReading = none ∧
      (withZone fun z => { z with air := { z.air with coReading := some { value := 3, time := 80 } } }).zone 0 =
        some { zone0 with air := { zone0.air with coReading := some { value := 3, time := 80 } } } ∧
      200 ≤ 80 + field.airSettings.staleHold ∧ (field.setPartTime 194).partTime < 195 ∧
      State.reset.device = .unconfigured ∧ State.reset.nextEvaluation = none := by
  decide
theorem test_meets_AveragesMoveByTheRoundedStep :
    fastDivisor = 4 ∧ slowDivisor = 32 ∧ zone0.air.seeded = false ∧
      freshReports (withHead airHead).heads 200 zone0.config.airHeads ≠ [] := by decide
theorem test_meets_FireAndAirBindAZone :
    GuidanceSettled field ∧ DemandSettled field ∧ field.zone 0 = some zone0 ∧ LampsSettled field ∧
      field.lamps.find 0 = some lamp := by
  unfold GuidanceSettled DemandSettled LampsSettled EachRecord ZoneDemand StepsInRange GroupSettled; decide
theorem test_meets_FireAndAirBindAZone_fire :
    let z : Zone := { zone0 with
      fire := .active, declaredFlag := true, demand := 4, guidance := .closedFire, air := { zone0.air with state := .act, autoDemand := 3 } }
    GuidanceSettled (withZone fun _ => z) ∧ DemandSettled (withZone fun _ => z) ∧ (withZone fun _ => z).zone 0 = some z := by
  unfold GuidanceSettled DemandSettled EachRecord ZoneDemand StepsInRange; decide
theorem test_meets_FanTimersMoveTheFan_report :
    ∀ st ∈ [FanState.unreached, .stopped, .running, .tripped, .lockedOut, .localControl],
      ∀ trips ∈ [[], [10, 20], [10, 20, 30], [190, 195, 200]],
        let f := { fan st 1 with trips := trips }
        (withFan f).fans.wf = true ∧ (0, f) ∈ (withFan f).fans ∧ f.head = { segment := 0, address := 4 } ∧
          (∀ q ∈ (withFan f).fans, q.2.head = { segment := 0, address := 4 } → q.1 = 0) ∧ f.trips.length ≤ 3 ∧
          (∀ q ∈ (withFan f).fans, q.2.head ≠ { segment := 1, address := 4 }) := by
  decide
/-- A fan of zone 0 that runs at the step its zone asks. -/
def runningFan : Fan := { fan .running 1 with commanded := 1, startEnds := none, rundownEnds := none }

/-- The field with one demand step in zone 0 and one fan. -/
def atDemand (d : Nat) (f : Fan) : State := (withZone fun z => { z with demand := d }).setFans [(0, f)]

theorem test_meets_TheGateAdmitsInQueueOrder_targets :
    (∀ st ∈ [FanState.queued, .starting, .running, .rundown], ∀ d ∈ [0, 1],
      (atDemand d (fan st 2)).fans.find 0 = some (fan st 2) ∧ fanTarget (atDemand d (fan st 2)) (fan st 2) = d) ∧
      fanTarget (atDemand 1 (fan .stopped 0)) (fan .stopped 0) = 1 ∧
      fanTarget (atDemand 4 (fan .tripped 1)) (fan .tripped 1) = 4 ∧
      fanTarget (atDemand 3 (fan .tripped 1)) (fan .tripped 1) = 4 ∧
      (let z := (atDemand 3 (fan .tripped 1)).setFans [(0, fan .tripped 1), (1, { fan .running 1 with zone := 1, assist := some 0 })]
       z.short 0 = true ∧ z.short 1 = false ∧ fanTarget z { fan .running 1 with zone := 1, assist := some 0 } = 2) ∧
      ∀ halt ∈ [false, true],
        fanTarget (withZone fun z => { z with fire := .active, config := { z.config with haltRole := halt } }) (fan .running 1) =
          if halt then 0 else 4 := by
  decide
theorem test_meets_TheGateAdmitsInQueueOrder : (withFan (fan .queued 2)).fans.wf = true ∧ KeysBelow 24 (withFan (fan .queued 2)).fans := by
  unfold KeysBelow; decide
theorem test_meets_FanTimersMoveTheFan :
    ∀ f ∈ [fan .starting 2, fan .starting 0, fan .rundown 2, fan .rundown 0],
      (withFan f).fans.wf = true ∧ (withFan f).fans.find 0 = some f ∧ f.startEnds = some 90 ∧ f.rundownEnds = some 90 ∧
        90 ≤ (withFan f).partTime ∧ ((withFan f).setPartTime 89).partTime < 90 := by
  decide
theorem test_meets_FanTimersMoveTheFan_slots :
    startingCount (withFan (fan .rundown 2)) < (withFan (fan .rundown 2)).fanSettings.startLimit ∧
      (∀ q ∈ (withFan (fan .rundown 2)).fans, q.2.state ≠ .queued) ∧
      let s := field.setFans [(0, fan .rundown 2), (1, fan .starting 1), (2, fan .starting 1)]
      s.fanSettings.startLimit ≤ startingCount s ∧ s.fans.find 0 = some (fan .rundown 2) ∧ s.fans.wf = true := by
  decide

/-- The body of a PUSH of HALT with guidance AUTO and no expiry. -/
def haltBody : List Byte := number 1 0 ++ Vent.halt.bytes ++ number 1 Lighting.auto.code ++ number 1 GuideSetting.auto.code ++ [0x00]

/-- Four entries of level 1. -/
def fullStack : List StackEntry := List.replicate 4 (entry 1 .extract .auto none)

theorem test_meets_PushStacksAnEntry :
    field.zone 0 = some zone0 ∧ Vent.halt.stepInRange = true ∧ (Vent.hold 4).stepInRange = true ∧
      Reaches 0 0 haltBody field ∧ field.clientLevel 0 = 0 ∧ zone0.stack = [] ∧ Reaches 1 1 haltBody field ∧
      field.clientLevel 1 = 1 ∧ Reaches 3 3 haltBody field ∧ field.clientLevel 3 = 3 ∧
      ((withStack fullStack).zone 0).map Zone.stack = some fullStack ∧ fullStack.length = 4 ∧
      Reaches 0 0 haltBody (withStack fullStack) ∧
      ((withStack [entry 0 .extract .auto none]).zone 0).map (fun z => z.stack.getLast?.map StackEntry.level) = some (some 0) := by
  unfold Reaches; decide
theorem test_meets_PushStacksAnEntry_range :
    ∃ n, 4 < n ∧ Vent.hold 5 = .hold n ∧ n < 256 ∧
      Reaches 1 1 (number 1 0 ++ (Vent.hold n).bytes ++ number 1 Lighting.auto.code ++ number 1 GuideSetting.auto.code ++ [0x00])
        field := ⟨5, by unfold Reaches; decide⟩
theorem test_meets_StackEntriesLeave :
    (∀ stack ∈ [[], [entry 1 .extract .closed (some 200), entry 1 .auto .auto (some 201), entry 0 .halt .auto none]],
      GuidanceSettled (withStack stack) ∧ DemandSettled (withStack stack) ∧
        ((withStack stack).zone 0).map Zone.stack = some stack ∧ Reaches 3 1 (number 1 0) (withStack stack)) ∧
      (entry 0 .halt .auto none).level < field.clientLevel 1 ∧ field.clientLevel 0 ≤ (entry 0 .halt .auto none).level := by
  unfold GuidanceSettled DemandSettled EachRecord ZoneDemand StepsInRange Reaches; decide
theorem test_meets_FireIsDeclaredAndCleared :
    Reaches 0 0 (maskBytes 3) field ∧ field.zones.wf = true ∧ (3 : ZoneMask) ≠ 0 ∧
      (∀ n, n < 32 → (3 : ZoneMask).getLsbD n = true → (field.zone n).isSome = true) := by
  unfold Reaches; decide
theorem test_meets_TheFireLineIsFiltered :
    ∀ alarm ∈ [false, true], ∀ w ∈ [190, 191, 198, 199],
      (field.setFireLine { alarm := alarm, asserted := !alarm, changeSince := some w }).zones.wf = true ∧
        (field.setFireLine { alarm := alarm, asserted := !alarm, changeSince := some w }).fireLine.changeSince = some w ∧
        190 + 10 ≤ field.partTime ∧ field.partTime < 191 + 10 ∧ 198 + 2 ≤ field.partTime ∧ field.partTime < 199 + 2 := by
  decide
theorem test_meets_QuietHoursAreEntered :
    (∀ mode ∈ [QuietMode.untilWake, .whileLine],
      mode ≠ .noMode ∧ Reaches 1 1 (number 1 mode.code) field ∧ Reaches 1 1 (number 1 mode.code) (withSteer steer)) ∧
      field.zones.wf = true ∧ field.device = .running ∧ (∀ q ∈ field.zones, q.2.fire = .noFire) ∧
      (∀ q ∈ field.zones, q.2.air.state = .clear) ∧ field.steers = [] ∧ field.quiet.line = false ∧
      (field.setQuiet { field.quiet with line := true }).quiet.line = true ∧ (withSteer steer).steers ≠ [] ∧
      ((withZone fun z => { z with fire := .held }).zone 0).map Zone.fire = some .held ∧
      ((withZone fun z => { z with air := { z.air with state := .blind } }).zone 0).map (fun z => z.air.state) = some .blind := by
  unfold Reaches; decide

/-- The field in QUIET, WHILE_LINE, with the line asserted. -/
def inQuiet : State := (field.setDevice .quiet).setQuiet { field.quiet with mode := .whileLine, line := true, enteredAt := some 150 }

/-- The field in WARMING until 200. -/
def inWarming : State := (field.setDevice .warming).setQuiet { field.quiet with warmUntil := some 200 }

theorem test_meets_QuietHoursEnd :
    Reaches 1 1 [] inQuiet ∧ inQuiet.device = .quiet ∧ Reaches 1 1 [] inWarming ∧ inWarming.device = .warming ∧
      Reaches 1 1 [] field ∧ field.device = .running ∧ inQuiet.quiet.line = true ∧ inQuiet.quiet.mode = .whileLine ∧
      field.quiet.line = false ∧ (inWarming.setQuiet { inWarming.quiet with line := true }).quiet.line = true ∧
      inWarming.quiet.warmUntil = some 200 ∧ 200 ≤ inWarming.partTime ∧ inWarming.quiet.warmSet = [] ∧
      (inWarming.setPartTime 199).partTime < 200 := by
  unfold Reaches; decide
/-- The field in QUIET with segment 0 as given, its three heads not of the normal-rate set: those at addresses 1 and 5 last
polled at 199 and not yet due, that at address 4 last polled at 140, which the keepalive interval of 60 s makes due now. -/
def dueField (g : Segment) : State :=
  (((field.setDevice .quiet).setHeads
    [(1, { head .bay .live with lastPolled := some 199 }), (4, { head .fan .live with lastPolled := some 140 }),
      (5, { head .lamp .silent with lastPolled := some 199 })]).putSegment 0 g)

theorem test_meets_SweepsPollTheListedHeads :
    (∀ d ∈ [DeviceState.starting, .running], ((withSegment { Segment.off with sweep := .awaitingStart }).setDevice d).device ≠
      .unconfigured) ∧
      ((withSegment { Segment.off with sweep := .awaitingStart } |>.setDevice .starting).segment 0).sweep = .awaitingStart ∧
      (withSegment { Segment.off with sweep := .awaitingStart }).listed 0 = [] ++ 1 :: [4, 5] ∧ field.listed 3 = [] ∧
      (field.segment 3).sweep ≠ .awaitingStart ∧ (∀ todo, (field.segment 3).sweep ≠ .sweeping todo) ∧
      (withSegment { Segment.off with exchange := some exchange }).segment 0 = { Segment.off with exchange := some exchange } ∧
      (∀ todo ∈ [[1, 4, 5], [4, 5], [5]],
        (withSegment { Segment.off with sweep := .sweeping todo }).segment 0 = { Segment.off with sweep := .sweeping todo }) ∧
      (field.head 0 1 = some (head .air .live) ∧ field.head 0 4 = some (head .fan .live) ∧
        field.head 0 5 = some (head .lamp .silent)) ∧
      fanOf 0 4 field = some (0, fan .running 1) ∧ lampOf 0 5 field = some (0, lamp) ∧
      fanOf 0 4 (withFan (fan .localControl 1)) = some (0, fan .localControl 1) ∧ fanOf 0 6 field = none ∧
      lampOf 0 6 field = none ∧ signOf 0 6 field = none ∧ signOf 0 6 (field.setSigns [(47, showing)]) = some (47, showing) := by
  refine ⟨by decide, by decide, by decide, by decide, by decide, ?_, by decide⟩
  intro todo h
  exact Sweep.noConfusion (h.symm.trans (show (field.segment 3).sweep = .idle by decide))
theorem test_meets_SweepsPollTheListedHeads_due :
    (∀ sw ∈ [Sweep.waiting, .awaitingStart, .sweeping [1, 4, 5]],
      (dueField { Segment.off with sweep := sw }).device = .quiet ∧
        ((dueField { Segment.off with sweep := sw }).segment 0) = { Segment.off with sweep := sw } ∧
        (dueField { Segment.off with sweep := sw }).listed 0 = [1] ++ 4 :: [5]) ∧
      (dueField Segment.off).head 0 4 = some { head .fan .live with lastPolled := some 140 } ∧
      140 + (dueField Segment.off).quiet.keepalive ≤ (dueField Segment.off).partTime ∧
      (dueField Segment.off).head 0 1 = some { head .bay .live with lastPolled := some 199 } ∧
      (dueField Segment.off).partTime < 199 + (dueField Segment.off).quiet.keepalive ∧
      ∀ k ∈ [HeadKind.bay, .fan, .lamp], k ≠ .air ∧ k ≠ .loop ∧ (head k .live).wake = false := by
  decide
theorem test_meets_AValidResponseIsStored :
    (∀ st ∈ [HeadState.listed, .live, .silent, .lost, .mismatch], ∀ k ∈ [HeadKind.bay, .air, .loop, .fan, .lamp, .sign],
      ((withHead (head k st)).putSegment 0 { Segment.off with exchange := some exchange }).head 0 exchange.address =
        some (head k st)) ∧
      field.device = .running ∧
      (∀ x ∈ [exchange, { exchange with discarded := true }],
        ((withSegment { Segment.off with exchange := some x }).segment 0).exchange = some x) ∧
      exchange.discarded = false ∧ exchange.address < 32 ∧ (field.segment 0).exchange = none := by
  decide

/-- The field in STARTING, its segment 0 at the end of its third sweep, in an exchange with the head at address 1. -/
def lastSweep : State :=
  ((field.setDevice .starting).setZones (field.zones.mapWith fun _ z => { z with guidance := .closedStart })).putSegment 0
    { sweepCount := 2, sweep := .sweeping [], keepaliveTail := false, exchange := some exchange }

/-- The field in WARMING until 200, in an exchange with the last head of the warm set. -/
def lastWarm : State :=
  (inWarming.setQuiet { inWarming.quiet with warmSet := [1] }).putSegment 0 { Segment.off with exchange := some exchange }

/-- A state with the exchange of segment 0 ended. -/
def ended (s : State) : State := s.putSegment 0 { s.segment 0 with exchange := none }

/-- The ends of STARTING and of WARMING, by a miss, in the terms of ExchangeConcluded. -/
theorem test_meets_MissesAndTimeLoseAHead_ends :
    (∃ t, exec (.miss 0) lastSweep = .next t ∧ lastSweep.device = .starting ∧
      (∀ j, j < 4 → 3 ≤ (t.segment j).sweepCount ∨ (ended lastSweep).listed j = []) ∧ t.device = .running) ∧
      GuidanceSettled (ended lastSweep) ∧ lastSweep.head 0 1 = some (head .air .live) ∧
      (∃ t, exec (.miss 0) lastWarm = .next t ∧ lastWarm.device = .warming ∧ t.device = .running) ∧
      (lastWarm.quiet.warmSet.filter fun k => k ≠ 32 * 0 + 1) = [] ∧ lastWarm.quiet.warmUntil = some 200 ∧
      200 ≤ lastWarm.partTime ∧ exchange.beforeWake = false := by
  refine ⟨⟨_, rfl, by decide, by decide, by decide⟩, by unfold GuidanceSettled EachRecord; decide, by decide,
    ⟨_, rfl, by decide, by decide⟩, by decide, by decide, by decide, by decide⟩
theorem test_meets_WaitsShowsAndBrightTimesEnd_reports :
    field.lamps.wf = true ∧ (0, lamp) ∈ field.lamps ∧ lamp.head = { segment := 0, address := 5 } ∧
      (∀ q ∈ field.lamps, q.2.head = { segment := 0, address := 5 } → q.1 = 0) ∧
      (∀ q ∈ field.lamps, q.2.head ≠ { segment := 1, address := 5 }) ∧ inQuiet.device = .quiet ∧
      (field.setSigns [(47, showing)]).signs.wf = true ∧ (47, showing) ∈ (field.setSigns [(47, showing)]).signs ∧
      showing.config.head = { segment := 0, address := 6 } ∧ ∀ q ∈ field.signs, q.1 = 47 := by
  decide
theorem test_meets_AValidResponseIsStored_bytes :
    (∀ k n, PayloadFits k n → n ≤ 16 → ∀ status,
      ValidResponse exchange.address (exchange.received ++
          ({ kind := k, status := status, payload := List.replicate n 0 } : Response).frame exchange.address)
        { kind := k, status := status, payload := List.replicate n 0 }) ∧
      (PayloadFits .bay 16 ∧ PayloadFits .air 5 ∧ PayloadFits .loop 13 ∧ PayloadFits .fan 2 ∧ PayloadFits .lamp 3 ∧
        PayloadFits .sign 1) ∧
      ∀ r, ¬ValidResponse exchange.address (exchange.received ++ [0xA3, 0x01, 0x02]) r := by
  refine ⟨fun k n h _ status => ⟨by simpa using h, [], by simp [exchange]⟩, by simp [PayloadFits], ?_⟩
  rintro r ⟨_, after, h⟩
  have := congrArg List.length h
  simp [exchange, Response.frame, number, bigEndian] at this
  omega

theorem test_meets_MissesAndTimeLoseAHead :
    (∀ st ∈ [HeadState.listed, .live, .silent, .lost, .mismatch], ∀ m ∈ [1, 2, 3, 255],
      ((withHead { head .air st with misses := m }).putSegment 0 { Segment.off with exchange := some exchange }).head 0 1 =
        some { head .air st with misses := m }) ∧
      ((withSegment { Segment.off with exchange := some exchange }).segment 0).exchange = some exchange ∧
      (head .air .live).reference = some 50 ∧ 50 + field.lostTime ≤ field.partTime ∧
      (field.segment 0).exchange = none ∧
      ((withSegment { Segment.off with exchange := some { exchange with discarded := true } }).segment 0).exchange =
        some { exchange with discarded := true } := by
  decide
theorem test_meets_MissesAndTimeLoseAHead_bound :
    (∀ st ∈ [FanState.running, .queued, .lockedOut, .unreached],
        (withFan (fan st 1)).fans.wf = true ∧ (0, fan st 1) ∈ (withFan (fan st 1)).fans ∧
          (fan st 1).head = { segment := 0, address := 4 } ∧
          ∀ q ∈ (withFan (fan st 1)).fans, q.2.head = { segment := 0, address := 4 } → q.1 = 0) ∧
      ∀ q ∈ field.fans, q.2.head ≠ { segment := 1, address := 4 } := by
  decide

/-! Each invariant holds of the field, and a step is taken from it. -/

theorem test_meets_CountsStayMatched : CountsMatch field ∧ ∃ t, step field = .next t := by
  refine ⟨⟨by decide, by decide, by unfold RangesApart; decide, ?_⟩, _, rfl⟩
  intro q hq k c
  rcases (show q = (0, zone0) ∨ q = (1, smallZone 4 0) by simpa [field] using hq) with rfl | rfl <;>
    cases k <;> cases c <;> decide
theorem test_meets_InTransitCountsStayMatched :
    TransitMatches ((withSteer steer).setPending [.steerExpiry 0]) ∧
      ∃ t, step ((withSteer steer).setPending [.steerExpiry 0]) = .next t := by
  refine ⟨⟨by decide, by decide, by decide, ?_⟩, _, rfl⟩
  intro q hq k
  rcases (show q = (0, { zone0 with counts := zone0.counts.upd .standard fun c => { c with inTransit := 1 } }) ∨
      q = (1, smallZone 4 0) by
    simpa [withSteer, withZone, field, Table.upd, Table.mapWith, State.setSteers, State.setZones, State.setPending] using hq)
    with rfl | rfl <;> cases k <;> decide
theorem test_meets_NoSteerHeadsForAClosedZone :
    SteersGuided ((withSteer steer).setPending [.declareFire 0 0 [0, 0, 0, 1]]) ∧
      ∃ t, step ((withSteer steer).setPending [.declareFire 0 0 [0, 0, 0, 1]]) = .next t := by
  refine ⟨⟨by decide, by unfold GuidanceSettled EachRecord; decide, ?_⟩, _, rfl⟩
  intro q hq
  have : q = (0, steer) := by simpa [withSteer, State.setSteers, State.setPending] using hq
  subst this
  exact ⟨_, rfl, by decide⟩
theorem test_meets_GuidanceStaysSettled : GuidanceSettled field ∧ ∃ t, step field = .next t :=
  ⟨by unfold GuidanceSettled EachRecord; decide, _, rfl⟩
theorem test_meets_AccumulatorsStayBounded :
    AccumulatorsBounded (field.setPending [.airEvaluation]) ∧ ∃ t, step (field.setPending [.airEvaluation]) = .next t :=
  ⟨by unfold AccumulatorsBounded EachRecord AirInBounds; decide, _, rfl⟩
theorem test_meets_DemandStaysSettled_kept :
    let s := (withZone fun z => { z with
      config := { z.config with haltRole := true }, fire := .active, declaredFlag := true, demand := 4 }).setPending [.airEvaluation]
    DemandKept s ∧ ¬DemandSettled s ∧ ∃ t, step s = .next t :=
  ⟨by unfold DemandKept EachRecord ZoneDemandKept StepsInRange; decide,
    by unfold DemandSettled EachRecord ZoneDemand StepsInRange; decide, _, rfl⟩
theorem test_meets_DemandStaysSettled :
    DemandSettled (field.setPending [.airEvaluation]) ∧ ∃ t, step (field.setPending [.airEvaluation]) = .next t :=
  ⟨by unfold DemandSettled EachRecord ZoneDemand StepsInRange; decide, _, rfl⟩
theorem test_meets_StartsStayWithinTheLimit :
    StartGateHolds ((withFan (fan .rundown 2)).setPending [.rundownEnds 0]) ∧
      ∃ t, step ((withFan (fan .rundown 2)).setPending [.rundownEnds 0]) = .next t :=
  ⟨⟨by decide, by decide, fun h => absurd h (by decide)⟩, _, rfl⟩
theorem test_meets_StartsStayWithinTheLimit_targets :
    FansStand (atDemand 1 runningFan) ∧ FansOnTarget (atDemand 1 runningFan) ∧
      ((atDemand 1 runningFan).device ≠ .unconfigured) ∧ ∃ t, step (atDemand 1 runningFan) = .next t :=
  ⟨by unfold FansStand EachRecord FanStands; decide, by unfold FansOnTarget EachRecord; decide, by decide, _, rfl⟩
theorem test_meets_LampsStaySettled :
    LampsSettled (field.setPending [.declareFire 0 0 [0, 0, 0, 1]]) ∧
      ∃ t, step (field.setPending [.declareFire 0 0 [0, 0, 0, 1]]) = .next t :=
  ⟨by unfold LampsSettled EachRecord GroupSettled; decide, _, rfl⟩
theorem test_meets_StacksStayOrdered :
    StacksFit ((withStack [entry 1 .extract .auto none, entry 0 .halt .auto none]).setPending [.pop 0 0 [0]]) ∧
      ∃ t, step ((withStack [entry 1 .extract .auto none, entry 0 .halt .auto none]).setPending [.pop 0 0 [0]]) = .next t := by
  refine ⟨?_, _, rfl⟩
  unfold StacksFit EachRecord StackFits
  intro q hq
  rcases (show q.2.stack = [entry 1 .extract .auto none, entry 0 .halt .auto none] ∨ q.2.stack = [] by
    simp [withStack, withZone, field, Table.upd, Table.mapWith, State.setZones, State.setPending] at hq
    rcases hq with rfl | rfl
    · exact .inl rfl
    · exact .inr rfl) with h | h <;> rw [h]
  · exact ⟨by decide, by unfold LevelsOrdered LevelsOrdered LevelsOrdered; decide, by decide⟩
  · exact ⟨by decide, trivial, by decide⟩
theorem test_meets_TablesStayCanonical : TablesCanonical field ∧ ∃ t, step field = .next t :=
  ⟨by unfold TablesCanonical KeysBelow; decide, _, rfl⟩
theorem test_meets_LimitsAndOrdersAreKept :
    (HoldsWithinLimit field ∧ SettingsOrdered field) ∧ HoldsCounted (field.setPending [.holdExpiry 1]) ∧
      FireMatchesFlags (field.setPending [.declareFire 0 0 [0, 0, 0, 1]]) ∧
      (∃ t, step field = .next t) ∧ (∃ t, step (field.setPending [.holdExpiry 1]) = .next t) ∧
      ∃ t, step (field.setPending [.declareFire 0 0 [0, 0, 0, 1]]) = .next t :=
  ⟨by unfold HoldsWithinLimit SettingsOrdered; decide, by unfold HoldsCounted EachRecord; decide,
    by unfold FireMatchesFlags EachRecord; decide, ⟨_, rfl⟩, ⟨_, rfl⟩, _, rfl⟩

end Sys2Proof.Tests
end

section
/-!
SUPPORT. Records of a table counted, tables that keep their canonical form, and records changed one by one: what the
invariants of the tables need beyond a read after a change.
-/
namespace Sys2Proof.Machine

variable {α : Type}

/-! ### Records changed where they stand -/

@[simp] theorem Table.mapWith_self (t : Table α) : (t.mapWith fun _ x => x) = t := by simp [Table.mapWith]

theorem Table.mapWith_mapWith (t : Table α) (f g : Nat → α → α) :
    (t.mapWith f).mapWith g = t.mapWith fun n x => g n (f n x) := by simp [Table.mapWith]

/-- A property of every record of a changed table is one of the records before the change. -/
@[simp] theorem EachRecord.mapWith_iff {p : Nat → α → Prop} {t : Table α} {f : Nat → α → α} :
    EachRecord p (t.mapWith f) ↔ EachRecord (fun n x => p n (f n x)) t := by
  simp only [EachRecord, Table.mapWith, List.forall_mem_map]

theorem EachRecord.imp {p q : Nat → α → Prop} {t : Table α} (h : EachRecord p t)
    (k : ∀ r ∈ t, p r.1 r.2 → q r.1 r.2) : EachRecord q t := fun r hr => k r hr (h r hr)

/-- A property of a record found, and of those that stood, is one of the table with that record put. -/
theorem EachRecord.put {p : Nat → α → Prop} {t : Table α} {n : Nat} {x : α} (h : EachRecord p t) (hx : p n x) :
    EachRecord p (t.put n x) := fun r hr => by
  rcases Table.mem_put hr with rfl | hr
  · exact hx
  · exact h r hr

theorem EachRecord.of_find {p : Nat → α → Prop} {t : Table α} {n : Nat} {x : α} (h : EachRecord p t)
    (hx : t.find n = some x) : p n x := h _ (Table.mem_of_find hx)

/-- No record is found under a number that the table does not list. -/
theorem Table.find_eq_none {t : Table α} {n : Nat} : t.find n = none ↔ n ∉ t.keys := by
  induction t with
  | nil => simp [Table.keys]
  | cons p t ih =>
    obtain ⟨k, v⟩ := p
    simp only [Table.find, Table.keys, List.map_cons, List.mem_cons] at ih ⊢
    split <;> simp_all

theorem Table.mem_keys_of_find {t : Table α} {n : Nat} {x : α} (h : t.find n = some x) : n ∈ t.keys :=
  List.mem_map.2 ⟨_, Table.mem_of_find h, rfl⟩

/-- A number that the table does not list has no record to delete. -/
theorem Table.del_of_notMem {t : Table α} {n : Nat} (h : n ∉ t.keys) : t.del n = t := by
  induction t with
  | nil => rfl
  | cons p t ih =>
    obtain ⟨k, v⟩ := p
    simp only [Table.keys, List.map_cons, List.mem_cons, not_or] at h ih
    rw [Table.del, if_neg h.1, ih h.2]

/-! ### Records counted -/

/-- One record counted or not. -/
def Table.one (p : Nat × α → Bool) (n : Nat) (x : α) : Nat := if p (n, x) then 1 else 0

/-- A record deleted from a canonical table is counted no more. -/
theorem Table.countP_del {t : Table α} (h : t.wf = true) {n : Nat} {x : α} (hx : t.find n = some x)
    (p : Nat × α → Bool) : (t.del n).countP p + Table.one p n x = t.countP p := by
  induction t with
  | nil => simp at hx
  | cons q t ih =>
    obtain ⟨k, v⟩ := q
    obtain ⟨below, ht⟩ := Table.wf_cons.1 h
    simp only [Table.find] at hx
    simp only [Table.del, List.countP_cons]
    split at hx
    · next hn =>
      subst hn
      cases hx
      have gone : Table.del t n = t := Table.del_of_notMem fun hm => absurd (below n hm) (lt_irrefl n)
      simp [gone, Table.one]
    · next hn =>
      have := ih ht hx
      rw [if_neg hn, List.countP_cons]
      omega

/-- A record put under a free number is counted besides. -/
theorem Table.countP_put_new {t : Table α} {n : Nat} (h : t.find n = none) (x : α) (p : Nat × α → Bool) :
    (t.put n x).countP p = t.countP p + Table.one p n x := by
  induction t with
  | nil => simp [Table.put, Table.one]
  | cons q t ih =>
    obtain ⟨k, v⟩ := q
    simp only [Table.find] at h
    split at h
    · cases h
    · next hn =>
      simp only [Table.put, if_neg hn]
      split
      · simp [List.countP_cons, Table.one]
      · simp only [List.countP_cons, ih h]
        omega

/-- A record put in the place of another is counted instead of it. -/
theorem Table.countP_put {t : Table α} (h : t.wf = true) {n : Nat} {y : α} (hy : t.find n = some y) (x : α)
    (p : Nat × α → Bool) : (t.put n x).countP p + Table.one p n y = t.countP p + Table.one p n x := by
  induction t with
  | nil => simp at hy
  | cons q t ih =>
    obtain ⟨k, v⟩ := q
    obtain ⟨below, ht⟩ := Table.wf_cons.1 h
    simp only [Table.find] at hy
    simp only [Table.put]
    split at hy
    · next hn =>
      subst hn
      cases hy
      simp only [lt_self_iff_false, if_false, if_true, List.countP_cons, Table.one]
      omega
    · next hn =>
      have := below n (Table.mem_keys_of_find hy)
      have := ih ht hy
      rw [if_neg (by omega), if_neg hn]
      simp only [List.countP_cons]
      omega

/-! ### Tables that keep the canonical form -/

/-- A canonical table stays canonical, and a number that is new to it is one allowed. -/
def Table.Kept (ok : Nat → Prop) (t u : Table α) : Prop :=
  t.wf = true → u.wf = true ∧ ∀ k ∈ u.keys, k ∈ t.keys ∨ ok k

namespace Table.Kept

variable {ok : Nat → Prop} {t u v : Table α}

theorem refl (t : Table α) : Table.Kept ok t t := fun h => ⟨h, fun _ hk => .inl hk⟩

theorem of_eq (h : u = t) : Table.Kept ok t u := by rw [h]; exact refl t

theorem trans (h : Table.Kept ok t u) (k : Table.Kept ok u v) : Table.Kept ok t v := fun ht => by
  obtain ⟨hu, tu⟩ := h ht
  obtain ⟨hv, uv⟩ := k hu
  exact ⟨hv, fun n hn => (uv n hn).elim (tu n) .inr⟩

theorem mapWith (t : Table α) (f : Nat → α → α) : Table.Kept ok t (t.mapWith f) :=
  fun h => ⟨Table.wf_mapWith h f, fun _ hk => .inl (by simpa using hk)⟩

theorem upd (t : Table α) (n : Nat) (f : α → α) : Table.Kept ok t (t.upd n f) := mapWith t _

theorem del (t : Table α) (n : Nat) : Table.Kept ok t (t.del n) :=
  fun h => ⟨Table.wf_del h n, fun _ hk => .inl (Table.mem_keys_del hk)⟩

theorem filter (t : Table α) (p : Nat × α → Bool) : Table.Kept ok t (List.filter p t) :=
  fun h => ⟨Table.wf_filter h p, fun _ hk => .inl (by
    obtain ⟨q, hq, rfl⟩ := List.mem_map.1 hk
    exact List.mem_map.2 ⟨q, (List.mem_filter.1 hq).1, rfl⟩)⟩

theorem put_new (t : Table α) {n : Nat} (x : α) (h : ok n) : Table.Kept ok t (t.put n x) :=
  fun ht => ⟨Table.wf_put ht n x, fun _ hk => (Table.mem_keys_put hk).elim (fun e => .inr (e ▸ h)) .inl⟩

theorem put_mem {n : Nat} (h : n ∈ t.keys) (x : α) : Table.Kept ok t (t.put n x) :=
  fun ht => ⟨Table.wf_put ht n x, fun _ hk => .inl ((Table.mem_keys_put hk).elim (fun e => e ▸ h) id)⟩

theorem put_found {n : Nat} {y : α} (h : t.find n = some y) (x : α) : Table.Kept ok t (t.put n x) :=
  put_mem (Table.mem_keys_of_find h) x

/-- The numbers of a kept table stay among those allowed. -/
theorem keys (h : Table.Kept ok t u) (ht : t.wf = true) (hk : ∀ k ∈ t.keys, ok k) : ∀ k ∈ u.keys, ok k :=
  fun k hu => ((h ht).2 k hu).elim (hk k) id

end Table.Kept

end Sys2Proof.Machine
end

section
/-!
SUPPORT. What a step can do to the zones, bays, steers and the device state, said once: a change beside them (`Aside`), a
change of a bay or of the steer table (`Minor`), and the changes of zone records (`Change`). Every step is a chain of
these, and each invariant of the zone table follows from what it does under each of them.
-/
namespace Sys2Proof.Machine

/-! ### Changes beside zones, bays, steers and the device state -/

/-- The fields that no invariant of the zones, bays, steers and record tables reads. -/
def unreadFields : List Field :=
  [.pending, .partTime, .resetCause, .settleTime, .holdCount, .passageSettings, .patterns, .airSettings, .startTime,
    .nextEvaluation, .fanSettings, .faultThreshold, .fireLine, .quiet, .segments, .lostTime, .clients, .sources,
    .fetchMask, .response, .miso]

/-- The fields beside zones, bays, steers and the device state. -/
def asideFields : List Field := [.passages, .signs, .fans, .lamps, .heads] ++ unreadFields

/-- A lane address in range, of a head's key. -/
def KeyInLane (k : Nat) : Prop := laneInRange (keySegment k) (keyAddress k) = true

/-- A change that leaves zones, bays, steers and the device state, and keeps the other tables canonical. -/
structure Aside (s t : State) : Prop where
  frame : SameExcept asideFields s t
  passages : Table.Kept (· < Config.passageSlots) s.passages t.passages
  signs : Table.Kept (· < Config.signSlots) s.signs t.signs
  fans : Table.Kept (· < Config.fanSlots) s.fans t.fans
  lamps : Table.Kept (· < Config.lampSlots) s.lamps t.lamps
  heads : Table.Kept KeyInLane s.heads t.heads

namespace Aside

variable {s t u : State}

theorem zones (h : Aside s t) : t.zones = s.zones := h.frame .zones (by decide)
theorem bays (h : Aside s t) : t.bays = s.bays := h.frame .bays (by decide)
theorem steers (h : Aside s t) : t.steers = s.steers := h.frame .steers (by decide)
theorem device (h : Aside s t) : t.device = s.device := h.frame .device (by decide)
theorem zone (h : Aside s t) (n : Nat) : t.zone n = s.zone n := by rw [State.zone, h.zones, State.zone]

theorem refl (s : State) : Aside s s := ⟨.refl _ _, .refl _, .refl _, .refl _, .refl _, .refl _⟩

theorem trans (h : Aside s t) (k : Aside t u) : Aside s u :=
  ⟨h.frame.trans k.frame, h.passages.trans k.passages, h.signs.trans k.signs, h.fans.trans k.fans,
    h.lamps.trans k.lamps, h.heads.trans k.heads⟩

/-- A change of unread fields alone. -/
theorem of_unread (h : SameExcept unreadFields s t) : Aside s t where
  frame := h.mono (by decide)
  passages := .of_eq (h .passages (by decide))
  signs := .of_eq (h .signs (by decide))
  fans := .of_eq (h .fans (by decide))
  lamps := .of_eq (h .lamps (by decide))
  heads := .of_eq (h .heads (by decide))

/-- A change of the passage table and unread fields. -/
theorem of_passages (h : SameExcept (.passages :: unreadFields) s t)
    (k : Table.Kept (· < Config.passageSlots) s.passages t.passages) : Aside s t where
  frame := h.mono (by decide)
  passages := k
  signs := .of_eq (h .signs (by decide))
  fans := .of_eq (h .fans (by decide))
  lamps := .of_eq (h .lamps (by decide))
  heads := .of_eq (h .heads (by decide))

/-- A change of the sign table and unread fields. -/
theorem of_signs (h : SameExcept (.signs :: unreadFields) s t)
    (k : Table.Kept (· < Config.signSlots) s.signs t.signs) : Aside s t where
  frame := h.mono (by decide)
  passages := .of_eq (h .passages (by decide))
  signs := k
  fans := .of_eq (h .fans (by decide))
  lamps := .of_eq (h .lamps (by decide))
  heads := .of_eq (h .heads (by decide))

/-- A change of the fan table and unread fields. -/
theorem of_fans (h : SameExcept (.fans :: unreadFields) s t)
    (k : Table.Kept (· < Config.fanSlots) s.fans t.fans) : Aside s t where
  frame := h.mono (by decide)
  passages := .of_eq (h .passages (by decide))
  signs := .of_eq (h .signs (by decide))
  fans := k
  lamps := .of_eq (h .lamps (by decide))
  heads := .of_eq (h .heads (by decide))

/-- A change of the lamp group table and unread fields. -/
theorem of_lamps (h : SameExcept (.lamps :: unreadFields) s t)
    (k : Table.Kept (· < Config.lampSlots) s.lamps t.lamps) : Aside s t where
  frame := h.mono (by decide)
  passages := .of_eq (h .passages (by decide))
  signs := .of_eq (h .signs (by decide))
  fans := .of_eq (h .fans (by decide))
  lamps := k
  heads := .of_eq (h .heads (by decide))

/-- A change of the head table and unread fields. -/
theorem of_heads (h : SameExcept (.heads :: unreadFields) s t) (k : Table.Kept KeyInLane s.heads t.heads) :
    Aside s t where
  frame := h.mono (by decide)
  passages := .of_eq (h .passages (by decide))
  signs := .of_eq (h .signs (by decide))
  fans := .of_eq (h .fans (by decide))
  lamps := .of_eq (h .lamps (by decide))
  heads := k

/-- A fold of such changes. -/
theorem foldl {α : Type} {f : State → α → State} (h : ∀ s x, Aside s (f s x)) (l : List α) (s : State) :
    Aside s (l.foldl f s) := by
  induction l generalizing s with
  | nil => exact refl s
  | cons x l ih => exact (h s x).trans (ih _)

/-- A record put in the place of another. -/
theorem fans_put {n : Nat} (h : n ∈ s.fans.keys) (f : Fan) : Aside s (s.setFans (s.fans.put n f)) :=
  of_fans (by simp (disch := decide)) (.put_mem h f)

theorem heads_put {n : Nat} (h : n ∈ s.heads.keys) (x : Head) : Aside s (s.setHeads (s.heads.put n x)) :=
  of_heads (by simp (disch := decide)) (.put_mem h x)

end Aside

/-! ### Changes of a bay and of the steer table -/

/-- A zone record whose counts are replaced by some with the same category counts. -/
def Zone.Recounted (z z' : Zone) : Prop :=
  ∃ c : Counts, z' = { z with counts := c } ∧ ∀ k cat, (c.of k).of cat = (z.counts.of k).of cat

/-- A change of the steer table to `x` with a change `f` of the zones' in-transit counts that goes with it. The slots that
may be taken are those of `ok`; in UNCONFIGURED none is taken while no steer is live; a new target is OPEN; and where an
in-transit count is the number of its steers it is so again. -/
structure SteersMoved (ok : Nat → Prop) (s : State) (x : Table Steer) (f : Nat → Zone → Zone) : Prop where
  table : s.steers.wf = true → x.wf = true
  slots : ∀ k ∈ x.keys, k ∈ s.steers.keys ∨ ok k
  idle : s.steers = [] → s.device = .unconfigured → x = []
  targets : s.steers.wf = true → ∀ q ∈ x, (∃ p ∈ s.steers, p.2.target = q.2.target) ∨
    ∃ z, s.zone q.2.target = some z ∧ z.guidance = .opened
  counts : ∀ n (z : Zone), z.Recounted (f n z)
  transit : s.steers.wf = true → ∀ q ∈ s.zones, (∀ k, (q.2.counts.of k).inTransit = steersTo s q.1 k) →
    ∀ k, ((f q.1 q.2).counts.of k).inTransit = steersTo (s.setSteers x) q.1 k

/-- A change beside the zone records, of one bay with its zone's counts (R24), or of the steer table with the in-transit
counts (R8, R57). -/
inductive Minor (ok : Nat → Prop) (s : State) : State → Prop
  | aside {t : State} (h : Aside s t) : Minor ok s t
  | bay (g : Nat) (f : Bay → Bay) : Minor ok s (changeBay g f s)
  | steers {x : Table Steer} {f : Nat → Zone → Zone} (h : SteersMoved ok s x f) :
      Minor ok s ((s.setSteers x).setZones (s.zones.mapWith f))

/-- A chain of minor changes. -/
abbrev Minors (ok : Nat → Prop) : State → State → Prop := Relation.ReflTransGen (Minor ok)

namespace Minors

variable {ok : Nat → Prop} {s t u : State}

theorem of_aside (h : Aside s t) : Minors ok s t := .single (.aside h)

theorem aside (h : Minors ok s t) (k : Aside t u) : Minors ok s u := h.tail (.aside k)

theorem bay (g : Nat) (f : Bay → Bay) (s : State) : Minors ok s (changeBay g f s) := .single (.bay g f)

theorem foldl {α : Type} {f : State → α → State} (h : ∀ s x, Minors ok s (f s x)) (l : List α) (s : State) :
    Minors ok s (l.foldl f s) := by
  induction l generalizing s with
  | nil => exact .refl
  | cons x l ih => exact (h s x).trans (ih _)

end Minors

/-! ### Changes of zone records -/

/-- A zone record `z` of number `n` moves to `z'` as the device goes from `dev` to `dev'`, where the zones of `d` have
their demand step settled after it and those of `g` their guidance state derived: its configuration, counts, demand step and
guidance state stand; the state that R10 derives stands outside `g`, the demand step that R102 derives outside `d`, and the
steps stay in range. -/
structure ZoneMoved (dev dev' : DeviceState) (d g : List Nat) (n : Nat) (z z' : Zone) : Prop where
  config : z'.config = z.config
  counts : z'.counts = z.counts
  guidance : z'.guidance = z.guidance
  demand : z'.demand = z.demand
  guided : n ∈ g ∨ deriveGuidance dev' z' = deriveGuidance dev z
  driven : n ∈ d ∨ (demandStep z' = demandStep z ∧ (z'.fire = .active ↔ z.fire = .active))
  steps : StepsInRange z → StepsInRange z'

/-- The range of a zone's configuration lies within the bay numbers and apart from the ranges of the other zones (R2,
R14). -/
def RangeFits (n : Nat) (c : ZoneConfig) (s : State) : Prop :=
  c.bayBase + c.bayCount ≤ Config.bayNumbers ∧ ∀ p ∈ s.zones, p.1 ≠ n → p.2.config.overlaps c = false

/-- The steps of a zone's configuration lie in 0 to 4. -/
def ZoneConfig.StepsFit (c : ZoneConfig) : Prop := c.baseStep ≤ 4 ∧ c.quietBase ≤ 4 ∧ c.blindStep ≤ 4

/-- The zone records with `z` removed from slot `n`, and its bay records with it (R16). -/
def dropZone (n : Nat) (z : Zone) (s : State) : State :=
  (s.setBays (s.bays.filter fun p => !z.config.covers p.1)).setZones (s.zones.del n)

/-- A change that a step can make. `ok` names the steer slots that
may be taken, and `conf` says whether the step may leave a demand step in fire unsettled, as a CONFIGURE
does (R15). -/
inductive Change (ok : Nat → Prop) (conf : Prop) (s : State) : State → Prop
  | minor {t : State} (h : Minor ok s t) : Change ok conf s t
  | zones {dev : DeviceState} {d g : List Nat} {f : Nat → Zone → Zone} {v : State}
      (hdev : dev = .unconfigured → s.device = .unconfigured)
      (h : ∀ q ∈ s.zones, ZoneMoved s.device dev d g q.1 q.2 (f q.1 q.2))
      (hv : Aside (storeDemand d ((s.setDevice dev).setZones (s.zones.mapWith f))) v) :
      Change ok conf s (deriveAndRedirect g v)
  | add {n : Nat} {c : ZoneConfig} (hdev : s.device = .unconfigured) (hn : n < Config.zoneSlots) (hz : s.zone n = none)
      (fits : RangeFits n c s) (steps : c.StepsFit) : Change ok conf s (addZone n c s)
  | replace {n : Nat} {z : Zone} {c : ZoneConfig} {d : List Nat} (hz : s.zone n = some z)
      (fits : (z.config.bayBase = c.bayBase ∧ z.config.bayCount = c.bayCount) ∨ RangeFits n c s)
      (steps : z.config.StepsFit → c.StepsFit) (role : conf ∨ c.haltRole = z.config.haltRole ∨ n ∈ d) :
      Change ok conf s (storeDemand d (replaceZone n z c s))
  | remove {n : Nat} {z : Zone} (hdev : s.device = .unconfigured) (hz : s.zone n = some z) :
      Change ok conf s (dropZone n z s)
  | restart (hdev : s.device ≠ .unconfigured) : Change ok conf s (softRestart s)
  | cold (c : ColdCause) : Change ok conf s (coldReset c s)

/-- A chain of the changes that a step can make. -/
abbrev Changes (ok : Nat → Prop) (conf : Prop) : State → State → Prop := Relation.ReflTransGen (Change ok conf)

namespace Changes

variable {ok : Nat → Prop} {conf : Prop} {s t u : State}

theorem of_minors (h : Minors ok s t) : Changes ok conf s t :=
  Relation.ReflTransGen.mono (fun _ _ k => Change.minor k) _ _ h

theorem of_aside (h : Aside s t) : Changes ok conf s t := .single (.minor (.aside h))

theorem aside (h : Changes ok conf s t) (k : Aside t u) : Changes ok conf s u := h.trans (of_aside k)

theorem minors (h : Changes ok conf s t) (k : Minors ok t u) : Changes ok conf s u := h.trans (of_minors k)

theorem foldl {α : Type} {f : State → α → State} (h : ∀ s x, Changes ok conf s (f s x)) (l : List α) (s : State) :
    Changes ok conf s (l.foldl f s) := by
  induction l generalizing s with
  | nil => exact .refl
  | cons x l ih => exact (h s x).trans (ih _)

/-- What every change keeps, a chain of changes keeps. -/
theorem keeps {P : State → Prop} (h : ∀ s t, Change ok conf s t → P s → P t) (k : Changes ok conf s t) (hs : P s) : P t := by
  induction k with
  | refl => exact hs
  | tail _ step ih => exact h _ _ step ih

end Changes

/-- What every minor change keeps, a chain of them keeps. -/
theorem Minors.keeps {ok : Nat → Prop} {P : State → Prop} {s t : State} (h : ∀ s t, Minor ok s t → P s → P t) (k : Minors ok s t) (hs : P s) :
    P t := by
  induction k with
  | refl => exact hs
  | tail _ step ih => exact h _ _ step ih

end Sys2Proof.Machine
end

section
/-!
SUPPORT. The operations of the steer table and the redirect pass as minor changes (R8, R57, R59, R63, R66, R67).
-/
namespace Sys2Proof.Machine

variable {ok : Nat → Prop} {s t : State}

/-! ### Zone records under a change of an in-transit count -/

/-- A plain steer of a kind heads for a zone (R8). -/
def headsTo (n : Nat) (k : BayKind) (q : Nat × Steer) : Bool := q.2.plain && q.2.target = n && q.2.kind = k

theorem steersTo_eq (s : State) (n : Nat) (k : BayKind) : steersTo s n k = s.steers.countP (headsTo n k) := by
  rw [steersTo, List.countP_eq_length_filter]
  rfl

theorem Zone.Recounted.refl (z : Zone) : z.Recounted z := ⟨z.counts, rfl, fun _ _ => rfl⟩

theorem Zone.Recounted.trans {x y z : Zone} (h : x.Recounted y) (k : y.Recounted z) : x.Recounted z := by
  obtain ⟨c, rfl, hc⟩ := h
  obtain ⟨d, rfl, hd⟩ := k
  exact ⟨d, rfl, fun k cat => (hd k cat).trans (hc k cat)⟩

theorem Zone.recounted_moreInTransit (z : Zone) (k : BayKind) : z.Recounted (z.moreInTransit k) :=
  ⟨_, rfl, fun j cat => by rw [Counts.of_upd]; split <;> cases cat <;> rfl⟩

theorem Zone.recounted_lessInTransit (z : Zone) (k : BayKind) : z.Recounted (z.lessInTransit k) :=
  ⟨_, rfl, fun j cat => by rw [Counts.of_upd]; split <;> cases cat <;> rfl⟩

/-- The in-transit counts after one steer more. -/
theorem Zone.inTransit_moreInTransit (z : Zone) (k j : BayKind) :
    ((z.moreInTransit k).counts.of j).inTransit = (z.counts.of j).inTransit + if j = k then 1 else 0 := by
  rw [Zone.moreInTransit, Counts.of_upd]
  split <;> rfl

/-- The in-transit counts after one steer less. -/
theorem Zone.inTransit_lessInTransit (z : Zone) (k j : BayKind) :
    ((z.lessInTransit k).counts.of j).inTransit = (z.counts.of j).inTransit - if j = k then 1 else 0 := by
  rw [Zone.lessInTransit, Counts.of_upd]
  split <;> rfl

theorem transitUp_eq (z : Nat) (k : BayKind) (s : State) :
    transitUp z k s = s.setZones (s.zones.mapWith fun n y => if n = z then y.moreInTransit k else y) := rfl

theorem transitDown_eq (z : Nat) (k : BayKind) (s : State) :
    transitDown z k s = s.setZones (s.zones.mapWith fun n y => if n = z then y.lessInTransit k else y) := rfl

/-! ### A steer retired -/

/-- What the retirement of a steer does to a zone's record (R57). -/
def Steer.left (x : Steer) (n : Nat) (y : Zone) : Zone :=
  if x.plain then (if n = x.target then y.lessInTransit x.kind else y) else y

/-- What the issue of a steer does to a zone's record (R57). -/
def Steer.entered (x : Steer) (n : Nat) (y : Zone) : Zone :=
  if x.plain then (if n = x.target then y.moreInTransit x.kind else y) else y

theorem Steer.recounted_left (x : Steer) (n : Nat) (y : Zone) : y.Recounted (x.left n y) := by
  unfold Steer.left
  split
  · split
    · exact y.recounted_lessInTransit _
    · exact .refl y
  · exact .refl y

theorem Steer.recounted_entered (x : Steer) (n : Nat) (y : Zone) : y.Recounted (x.entered n y) := by
  unfold Steer.entered
  split
  · split
    · exact y.recounted_moreInTransit _
    · exact .refl y
  · exact .refl y

/-- A zone's in-transit count falls by one exactly where the steer was counted in it. -/
theorem Steer.inTransit_left (x : Steer) (n id : Nat) (y : Zone) (k : BayKind) :
    ((x.left n y).counts.of k).inTransit = (y.counts.of k).inTransit - Table.one (headsTo n k) id x := by
  unfold Steer.left Table.one headsTo
  by_cases hp : x.plain
  · by_cases hn : n = x.target
    · simp [hp, hn, Zone.inTransit_lessInTransit, eq_comm]
    · simp [hn, Ne.symm hn]
  · simp [hp]

/-- A zone's in-transit count rises by one exactly where the steer is counted in it. -/
theorem Steer.inTransit_entered (x : Steer) (n id : Nat) (y : Zone) (k : BayKind) :
    ((x.entered n y).counts.of k).inTransit = (y.counts.of k).inTransit + Table.one (headsTo n k) id x := by
  unfold Steer.entered Table.one headsTo
  by_cases hp : x.plain
  · by_cases hn : n = x.target
    · simp [hp, hn, Zone.inTransit_moreInTransit, eq_comm]
    · simp [hn, Ne.symm hn]
  · simp [hp]

/-- The state after a live steer is retired, in one update of steers and zones and one of the passages (R57). -/
theorem retireSteer_of_find {id : Nat} {x : Steer} (h : s.steers.find id = some x) (o : SteerOutcome) :
    retireSteer id o s =
      countPassage x.origin (PassageCounters.count o)
        ((s.setSteers (s.steers.del id)).setZones (s.zones.mapWith x.left)) := by
  rw [retireSteer, h]
  simp only
  split
  · next hp =>
    have : x.left = fun n y => if n = x.target then y.lessInTransit x.kind else y := by
      funext n y; simp [Steer.left, hp]
    rw [this]
    rfl
  · next hp =>
    have : x.left = fun _ y => y := by funext n y; simp [Steer.left, hp]
    rw [this, Table.mapWith_self]
    rfl

theorem retireSteer_of_free {id : Nat} (h : s.steers.find id = none) (o : SteerOutcome) : retireSteer id o s = s := by
  rw [retireSteer, h]

theorem countPassage_aside (p : Nat) (f : PassageCounters → PassageCounters) (s : State) :
    Aside s (countPassage p f s) :=
  .of_passages (by simp (disch := decide)) (by rw [countPassage, State.setPassages_passages]; exact .upd _ _ _)

theorem SteersMoved.retire {id : Nat} {x : Steer} (h : s.steers.find id = some x) :
    SteersMoved ok s (s.steers.del id) x.left where
  table wf := Table.wf_del wf _
  slots _ hk := .inl (Table.mem_keys_del hk)
  idle e _ := by simp [e] at h
  targets _ q hq := .inl ⟨q, Table.mem_del hq, rfl⟩
  counts := x.recounted_left
  transit wf q _ hc k := by
    have := Table.countP_del wf h (headsTo q.1 k)
    rw [x.inTransit_left q.1 id, hc k, steersTo_eq, steersTo_eq]
    simp only [State.setSteers_steers]
    omega

/-- A retired steer is a minor change (R57). -/
theorem retireSteer_minors (id : Nat) (o : SteerOutcome) (s : State) : Minors ok s (retireSteer id o s) := by
  cases h : s.steers.find id with
  | none => rw [retireSteer_of_free h]
  | some x =>
    rw [retireSteer_of_find h]
    exact Minors.aside (.single (.steers (.retire h))) (countPassage_aside _ _ _)

theorem settlePlain_minors (z : Nat) (k : BayKind) (s : State) : Minors ok s (settlePlain z k s) := by
  unfold settlePlain
  split
  · exact .refl
  · exact retireSteer_minors _ _ _

theorem tellSteers_minors (h : Nat × Nat) (e : HoldEnding) (s : State) : Minors ok s (tellSteers h e s) := by
  unfold tellSteers
  split
  · exact .refl
  · exact retireSteer_minors _ _ _

/-! ### A steer issued -/

/-- The state after a steer is issued, in one update of steers and zones (R57). -/
theorem issueSteer_eq (id : Nat) (x : Steer) (s : State) :
    issueSteer id x s = (s.setSteers (s.steers.put id x)).setZones (s.zones.mapWith x.entered) := by
  rw [issueSteer]
  split
  · next hp =>
    have : x.entered = fun n y => if n = x.target then y.moreInTransit x.kind else y := by
      funext n y; simp [Steer.entered, hp]
    rw [this]
    rfl
  · next hp =>
    have : x.entered = fun _ y => y := by funext n y; simp [Steer.entered, hp]
    rw [this, Table.mapWith_self]
    rfl

/-- A steer issued into a free slot for an OPEN zone, by a device that is configured, is a minor change (R57, R58). -/
theorem issueSteer_minors {id : Nat} {x : Steer} {z : Zone} (hid : ok id)
    (hfree : s.steers.find id = none) (hdev : s.device ≠ .unconfigured) (hz : s.zone x.target = some z)
    (hopen : z.guidance = .opened) : Minors ok s (issueSteer id x s) := by
  rw [issueSteer_eq]
  refine .single (.steers ⟨fun wf => Table.wf_put wf _ _, fun _ hk => (Table.mem_keys_put hk).elim (fun e => .inr (e ▸ hid)) .inl,
    fun _ h => absurd h hdev, fun _ q hq => ?_, x.recounted_entered,
    fun wf q hq hc k => ?_⟩)
  · rcases Table.mem_put hq with rfl | hq
    · exact .inr ⟨z, hz, hopen⟩
    · exact .inl ⟨q, hq, rfl⟩
  · rw [x.inTransit_entered q.1 id, hc k, steersTo_eq, steersTo_eq, State.setSteers_steers,
      Table.countP_put_new hfree]

/-- The slots that may be taken are the table's own, and no other is live. -/
def Slots (ok : Nat → Prop) (s : State) : Prop := (∀ k < Config.steerSlots, ok k) ∧ ∀ k ∈ s.steers.keys, ok k

theorem oldestSteer_mem {p : Steer → Bool} {l : Table Steer} {n : Nat} {x : Steer} (h : oldestSteer p l = some (n, x)) :
    (n, x) ∈ l ∧ p x = true := by
  induction l with
  | nil => cases h
  | cons q l ih =>
    obtain ⟨m, y⟩ := q
    simp only [oldestSteer] at h
    repeat' split at h
    all_goals simp_all

/-- The slot that `takeSlot` finds may be taken and is free in the state it leaves (R59). -/
theorem takeSlot_free {id : Nat} (hok : Slots ok s) (h : takeSlot s = some (id, t)) :
    ok id ∧ t.steers.find id = none ∧ Minors ok s t := by
  unfold takeSlot at h
  split at h
  · next n hn =>
    cases h
    have free := List.find?_some hn
    exact ⟨hok.1 _ (List.mem_range.1 (List.mem_of_find?_eq_some hn)), by simpa [Table.has] using free, .refl⟩
  · split at h
    · next n x hx =>
      cases h
      exact ⟨hok.2 _ (List.mem_map.2 ⟨_, (oldestSteer_mem hx).1, rfl⟩), by simp [retireSteer_find],
        retireSteer_minors _ _ _⟩
    · cases h

/-! ### Steers of a redirect pass -/

/-- A held steer that becomes plain is a minor change (R67 step 1). -/
theorem steerBecomesPlain_minors {id : Nat} {x : Steer} (h : s.steers.find id = some x) (held : x.holdBay ≠ none) :
    Minors ok s (steerBecomesPlain id s) := by
  have notPlain : ∀ n k, Table.one (headsTo n k) id x = 0 := fun n k => by
    have hp : x.plain = false := by simpa [Steer.plain, Option.isSome_iff_ne_none] using held
    simp [Table.one, headsTo, hp]
  have now : ∀ n y, (if n = x.target then y.moreInTransit x.kind else y) = ({ x with holdBay := none } : Steer).entered n y :=
    fun n y => rfl
  rw [steerBecomesPlain, h]
  simp only [transitUp_eq, now]
  refine .single (.steers ⟨fun wf => Table.wf_put wf _ _,
    fun _ hk => .inl ((Table.mem_keys_put hk).elim (fun e => e ▸ Table.mem_keys_of_find h) fun h => h),
    fun e => by simp [e] at h, fun _ q hq => .inl ?_,
    Steer.recounted_entered _, fun wf q _ hc k => ?_⟩)
  · rcases Table.mem_put hq with rfl | hq
    · exact ⟨_, Table.mem_of_find h, rfl⟩
    · exact ⟨q, hq, rfl⟩
  · have count := Table.countP_put wf h { x with holdBay := none } (headsTo q.1 k)
    have moved := Steer.inTransit_entered { x with holdBay := none } q.1 id q.2 k
    rw [notPlain] at count
    rw [moved, hc k, steersTo_eq, steersTo_eq, State.setSteers_steers]
    omega

/-- A plain steer that moves to an OPEN zone is a minor change (R67 step 3). -/
theorem steerMoves_minors {id z : Nat} {x y : Steer} {r : Zone} (h : s.steers.find id = some x) (plain : x.holdBay = none)
    (hz : s.zone z = some r) (hopen : r.guidance = .opened) (hy : y.target = z ∧ y.kind = x.kind ∧ y.holdBay = none) :
    Minors ok s (transitUp z x.kind (transitDown x.target x.kind (s.setSteers (s.steers.put id y)))) := by
  obtain ⟨rfl, kind, hold⟩ := hy
  have hx : x.plain = true := by simp [Steer.plain, plain]
  have hy : y.plain = true := by simp [Steer.plain, hold]
  have up : ∀ n w, (if n = y.target then w.moreInTransit x.kind else w) = y.entered n w := fun n w => by
    simp [Steer.entered, hy, kind]
  have down : ∀ n w, (if n = x.target then w.lessInTransit x.kind else w) = x.left n w := fun n w => by
    simp [Steer.left, hx]
  have shape : transitUp y.target x.kind (transitDown x.target x.kind (s.setSteers (s.steers.put id y))) =
      (s.setSteers (s.steers.put id y)).setZones (s.zones.mapWith fun n w => y.entered n (x.left n w)) := by
    simp only [transitUp_eq, transitDown_eq, up, down, State.setZones_zones, State.setSteers_zones, Table.mapWith_mapWith]
    rfl
  rw [shape]
  refine .single (.steers ⟨fun wf => Table.wf_put wf _ _,
    fun _ hk => .inl ((Table.mem_keys_put hk).elim (fun e => e ▸ Table.mem_keys_of_find h) fun h => h),
    fun e => by simp [e] at h, fun _ q hq => ?_,
    fun n w => (x.recounted_left n w).trans (y.recounted_entered n _), fun wf q _ hc k => ?_⟩)
  · rcases Table.mem_put hq with rfl | hq
    · exact .inr ⟨r, hz, hopen⟩
    · exact .inl ⟨q, hq, rfl⟩
  · have count := Table.countP_put wf h y (headsTo q.1 k)
    have counted := Table.countP_del wf h (headsTo q.1 k)
    rw [y.inTransit_entered q.1 id, x.inTransit_left q.1 id, hc k, steersTo_eq, steersTo_eq, State.setSteers_steers]
    omega

end Sys2Proof.Machine
end

section
/-!
SUPPORT. Bays, holds and the redirect pass as minor changes (R24, R34, R40 to R43, R66, R67), with what the pass leaves of
the steer table.
-/
namespace Sys2Proof.Machine

variable {ok : Nat → Prop} {s t : State}

/-! ### Changes beside zones, bays, steers and the device state -/

theorem raise_aside (n : Nat) (zs : List Nat) (d : List Byte) (s : State) : Aside s (raise n zs d s) :=
  .of_unread (by simp (disch := decide))

theorem settleLampsWhere_aside (p : Nat → LampGroup → Bool) (s : State) : Aside s (settleLampsWhere p s) :=
  .of_lamps (by simp (disch := decide)) (by rw [settleLampsWhere, State.setLamps_lamps]; exact .mapWith _ _)

theorem settleLampsOf_aside (zs : List Nat) (s : State) : Aside s (settleLampsOf zs s) := settleLampsWhere_aside _ s

theorem settleAllLamps_aside (s : State) : Aside s (settleAllLamps s) := settleLampsWhere_aside _ s

theorem settleLamp_aside (n : Nat) (s : State) : Aside s (settleLamp n s) := settleLampsWhere_aside _ s

theorem presence_aside (z : Nat) (s : State) : Aside s (presence z s) :=
  .of_lamps (by simp (disch := decide)) (by rw [presence, State.setLamps_lamps]; exact .mapWith _ _)

theorem reportEnding_aside (h : Nat × Nat) (e : HoldEnding) (s : State) : Aside s (reportEnding h e s) :=
  .of_unread (by simp (disch := decide))

/-! ### Bays and holds -/

theorem changeBayEnding_minors (g : Nat) (e : HoldEnding) (f : Bay → Bay) (s : State) :
    Minors ok s (changeBayEnding g e f s) := by
  unfold changeBayEnding
  split
  · dsimp only
    split
    · exact ((Minors.bay _ _ _).aside (reportEnding_aside _ _ _)).trans (tellSteers_minors _ _ _)
    · exact .bay _ _ _
  · exact .refl

theorem releaseInRedirect_minors (g : Nat) (h : Nat × Nat) (s : State) : Minors ok s (releaseInRedirect g h s) := by
  unfold releaseInRedirect
  split
  · exact (Minors.bay _ _ _).aside (reportEnding_aside _ _ _)
  · exact .refl

theorem arrival_minors (g : Nat) (s : State) : Minors ok s (arrival g s) := by
  unfold arrival
  split
  · dsimp only
    refine Minors.aside ?_ (presence_aside _ _)
    split
    · exact changeBayEnding_minors _ _ _ _
    · exact (changeBayEnding_minors _ _ _ _).trans (settlePlain_minors _ _ _)
  · exact .refl

theorem makeHold_minors (g : Nat) (h : Hold) (s : State) : Minors ok s (makeHold g h s) := by
  refine Minors.aside (.bay g (fun b => { b with hold := some h }) s) (.of_unread ?_)
  simp (disch := decide) only [makeHold, State.setHoldCount_frame, SameExcept.refl]

/-! ### Zone choice (R56) -/

/-- The zone that is chosen stands in the list, is not excluded, and is configured and OPEN. -/
theorem zoneChoice_some {l excluded : List Nat} {k : BayKind} {long : Bool} {z : Nat}
    (h : zoneChoice s l k long excluded = some z) :
    z ∈ l ∧ z ∉ excluded ∧ ∃ r, s.zone z = some r ∧ r.guidance = .opened := by
  have holds := List.find?_some h
  refine ⟨List.mem_of_find?_eq_some h, ?_⟩
  simp only [Bool.and_eq_true, Bool.not_eq_true', List.contains_eq_mem, decide_eq_false_iff_not] at holds
  obtain ⟨out, there⟩ := holds
  cases hz : s.zone z with
  | none => simp [State.zoneIs, hz] at there
  | some r =>
    simp only [State.zoneIs, hz, Zone.takes, Bool.and_eq_true, decide_eq_true_eq] at there
    exact ⟨out, r, rfl, there.1.1⟩

/-! ### The redirect pass -/

theorem steerBecomesPlain_steers {id : Nat} {x : Steer} (h : s.steers.find id = some x) :
    (steerBecomesPlain id s).steers = s.steers.put id { x with holdBay := none } := by
  rw [steerBecomesPlain, h]
  rfl

theorem releaseInRedirect_steers (g : Nat) (h : Nat × Nat) (s : State) : (releaseInRedirect g h s).steers = s.steers :=
  (releaseInRedirect_frame (fs := [.bays, .zones, .holdCount, .sources]) (by decide) g h).2 (.refl _ s) .steers (by decide)

/-- A steer that gives up its hold is plain, and every other steer stands (R67 step 1). -/
theorem giveUpHold_find {id : Nat} {x : Steer} (h : s.steers.find id = some x) (m : Nat) :
    (giveUpHold id s).steers.find m = if m = id then some { x with holdBay := none } else s.steers.find m := by
  unfold giveUpHold
  rw [h]
  dsimp only
  split
  · next none_ =>
    split
    · next e => subst e; rw [h, ← none_]
    · rfl
  · split
    · rw [steerBecomesPlain_steers h, Table.find_put]
    · next z _ =>
      rw [steerBecomesPlain_steers (x := x) (by rw [releaseInRedirect_steers]; exact h), Table.find_put,
        releaseInRedirect_steers]

theorem giveUpHold_minors (id : Nat) (s : State) : Minors ok s (giveUpHold id s) := by
  unfold giveUpHold
  split
  · exact .refl
  · next x hx =>
    split
    · exact .refl
    · next h held =>
      have held' : x.holdBay ≠ none := by simp [held]
      split
      · exact steerBecomesPlain_minors hx held'
      · refine (releaseInRedirect_minors _ _ _).trans (steerBecomesPlain_minors (x := x) ?_ held')
        rw [releaseInRedirect_steers]
        exact hx

/-- A steer that is re-chosen is cancelled or moved (R67 steps 2 and 3). -/
theorem rechoose_cases (closing : List Nat) {id : Nat} {x : Steer} (h : s.steers.find id = some x) :
    rechoose closing id s = retireSteer id .cancelled s ∨
      ∃ p z, s.passages.find x.origin = some p ∧ zoneChoice s p.config.preference x.kind x.long closing = some z ∧
        rechoose closing id s = presence z (transitUp z x.kind (transitDown x.target x.kind
          (s.setSteers (s.steers.put id (x.moveTo s.partTime z (s.travelTime z)))))) := by
  unfold rechoose
  rw [h]
  dsimp only
  split
  · exact .inl rfl
  · next p hp =>
    split
    · exact .inl rfl
    · next z hz => exact .inr ⟨p, z, hp, hz, rfl⟩

theorem rechoose_minors (closing : List Nat) {id : Nat} (plain : ∀ x, s.steers.find id = some x → x.holdBay = none) :
    Minors ok s (rechoose closing id s) := by
  cases h : s.steers.find id with
  | none => rw [rechoose, h]
  | some x =>
    rcases rechoose_cases closing h with e | ⟨p, z, _, hz, e⟩ <;> rw [e]
    · exact retireSteer_minors _ _ _
    · obtain ⟨_, _, r, hr, hopen⟩ := zoneChoice_some hz
      exact Minors.aside
        (steerMoves_minors (y := x.moveTo s.partTime z (s.travelTime z)) h (plain x h) hr hopen ⟨rfl, rfl, plain x h⟩)
        (presence_aside _ _)

/-- One steer of the pass is re-chosen as a plain one. -/
theorem redirectOne_minors (closing : List Nat) (s : State) (id : Nat) : Minors ok s (redirectOne closing s id) := by
  refine (giveUpHold_minors id s).trans (rechoose_minors closing fun x hx => ?_)
  cases h : s.steers.find id with
  | none =>
    have : giveUpHold id s = s := by rw [giveUpHold, h]
    rw [this, h] at hx
    cases hx
  | some y =>
    rw [giveUpHold_find h, if_pos rfl] at hx
    cases hx
    rfl

theorem redirectPass_minors (closing : List Nat) (s : State) : Minors ok s (redirectPass closing s) :=
  Minors.foldl (redirectOne_minors closing) _ s

/-- A steer that is re-chosen heads for no closing zone afterwards, if it is still live; every other steer stands (R67). -/
theorem rechoose_find (closing : List Nat) (id m : Nat) (s : State) :
    (m ≠ id → (rechoose closing id s).steers.find m = s.steers.find m) ∧
      ∀ x, (rechoose closing id s).steers.find id = some x → x.target ∉ closing := by
  cases h : s.steers.find id with
  | none =>
    have : rechoose closing id s = s := by rw [rechoose, h]
    rw [this, h]
    exact ⟨fun _ => rfl, by simp⟩
  | some x =>
    rcases rechoose_cases closing h with e | ⟨p, z, _, hz, e⟩ <;> rw [e]
    · simp only [retireSteer_find]
      exact ⟨fun ne => if_neg ne, by simp⟩
    · have steers : (presence z (transitUp z x.kind (transitDown x.target x.kind
          (s.setSteers (s.steers.put id (x.moveTo s.partTime z (s.travelTime z))))))).steers =
          s.steers.put id (x.moveTo s.partTime z (s.travelTime z)) := rfl
      rw [steers, Table.find_put, Table.find_put, if_pos rfl]
      refine ⟨fun ne => if_neg ne, fun y hy => ?_⟩
      cases hy
      exact (zoneChoice_some hz).2.1

theorem redirectOne_find (closing : List Nat) (id m : Nat) (s : State) :
    (m ≠ id → (redirectOne closing s id).steers.find m = s.steers.find m) ∧
      ∀ x, (redirectOne closing s id).steers.find id = some x → x.target ∉ closing := by
  obtain ⟨others, own⟩ := rechoose_find closing id m (giveUpHold id s)
  refine ⟨fun ne => (others ne).trans ?_, own⟩
  cases h : s.steers.find id with
  | none => rw [giveUpHold, h]
  | some x => rw [giveUpHold_find h, if_neg ne]

/-- A steer that is live after a pass over some slots heads for no closing zone, or stands in no slot of the pass. -/
theorem redirectFold_find (closing ids : List Nat) (s : State) (m : Nat) (x : Steer)
    (h : (ids.foldl (redirectOne closing) s).steers.find m = some x) :
    x.target ∉ closing ∨ (m ∉ ids ∧ s.steers.find m = some x) := by
  induction ids generalizing s with
  | nil => exact .inr ⟨List.not_mem_nil, h⟩
  | cons id ids ih =>
    obtain ⟨others, own⟩ := redirectOne_find closing id m s
    rcases ih _ h with out | ⟨notIn, found⟩
    · exact .inl out
    · by_cases e : m = id
      · subst e
        exact .inl (own x found)
      · exact .inr ⟨by simp [e, notIn], by rw [← others e]; exact found⟩

/-- The pass is over the live steers whose target is closing. -/
theorem mem_redirected (closing : List Nat) (s : State) (m : Nat) :
    m ∈ redirected closing s ↔ ∃ x, (m, x) ∈ s.steers ∧ x.target ∈ closing := by
  simp [redirected, List.mem_insertionSort]

/-- No steer that is live after a redirect pass heads for a closing zone (R66). -/
theorem redirectPass_target {closing : List Nat} {m : Nat} {x : Steer}
    (h : (redirectPass closing s).steers.find m = some x) : x.target ∉ closing := by
  rcases redirectFold_find closing _ s m x h with out | ⟨notIn, found⟩
  · exact out
  · exact fun hx => notIn ((mem_redirected closing s m).2 ⟨x, Table.mem_of_find found, hx⟩)

/-! ### The derivation -/

@[simp] theorem refreshGuidance_nil (s : State) : refreshGuidance [] s = s := by
  simp only [refreshGuidance, List.contains_nil, Bool.false_eq_true, if_false, Table.mapWith_self]
  rfl

@[simp] theorem storeDemand_nil (s : State) : storeDemand [] s = s := by
  simp only [storeDemand, List.contains_nil, Bool.false_eq_true, if_false, Table.mapWith_self]
  rfl

/-- Nothing is derived and nothing redirected for no zone. -/
@[simp] theorem deriveAndRedirect_nil (s : State) : deriveAndRedirect [] s = s := by
  have : redirected [] s = [] := by simp [redirected]
  rw [deriveAndRedirect, refreshGuidance_nil, leavingOpen, List.filter_nil, redirectPass, this]
  rfl

end Sys2Proof.Machine
end

section
/-!
SUPPORT. Properties of each zone record, OPEN targets and in-transit counts under a change (R8, R10, R66, R102).
-/
namespace Sys2Proof.Machine

variable {ok : Nat → Prop} {conf : Prop} {s t : State}

/-! ### The zone table and the device under a minor change -/

/-- A change of a bay leaves every zone's in-transit counts. -/
theorem changeBay_zones (g : Nat) (f : Bay → Bay) (s : State) :
    ∃ c : Nat → Zone → Counts, (changeBay g f s).zones = s.zones.mapWith (fun n z => { z with counts := c n z }) ∧
      ∀ n z k, ((c n z).of k).inTransit = (z.counts.of k).inTransit := by
  have same : ∃ c : Nat → Zone → Counts, s.zones = s.zones.mapWith (fun n z => { z with counts := c n z }) ∧
      ∀ n z k, ((c n z).of k).inTransit = (z.counts.of k).inTransit :=
    ⟨fun _ z => z.counts, (Table.mapWith_self _).symm, fun _ _ _ => rfl⟩
  unfold changeBay
  split
  · exact same
  · next b _ =>
    split
    · exact same
    · next z _ =>
      unfold moveCount
      split
      · exact same
      · let c (r : Zone) : Counts :=
          (r.counts.upd b.kind fun m => m.upd b.category (· - 1)).upd (f b).kind fun m => m.upd (f b).category (· + 1)
        refine ⟨fun n r => if n = z then c r else r.counts, ?_, fun n r k => ?_⟩
        · simp only [State.updZone, State.setZones_zones, State.setBays_zones, Table.upd]
          congr 1
          funext n r
          split <;> rfl
        · dsimp only
          split
          · simp only [c, Counts.of_upd]
            split <;> (try rw [KindCounts.inTransit_upd]) <;> split <;> simp only [KindCounts.inTransit_upd]
          · rfl

/-- A minor change leaves each zone record but for its counts. -/
theorem Minor.zones (h : Minor ok s t) :
    ∃ c : Nat → Zone → Counts, t.zones = s.zones.mapWith fun n z => { z with counts := c n z } := by
  cases h with
  | aside h => exact ⟨fun _ z => z.counts, by rw [h.zones]; exact (Table.mapWith_self _).symm⟩
  | bay g f => exact (changeBay_zones g f s).imp fun _ h => h.1
  | @steers x f h =>
    refine ⟨fun n z => (f n z).counts, ?_⟩
    rw [State.setZones_zones]
    congr 1
    funext n z
    obtain ⟨c, e, _⟩ := h.counts n z
    show f n z = { z with counts := (f n z).counts }
    rw [e]

theorem Minor.device (h : Minor ok s t) : t.device = s.device := by
  cases h with
  | aside h => exact h.device
  | bay g f => exact (changeBay_frame (fs := [.bays, .zones]) (by decide) g f).2 (.refl _ s) .device (by decide)
  | steers h => rfl

theorem Minors.zones (h : Minors ok s t) :
    ∃ c : Nat → Zone → Counts, t.zones = s.zones.mapWith fun n z => { z with counts := c n z } := by
  induction h with
  | refl => exact ⟨fun _ z => z.counts, (Table.mapWith_self _).symm⟩
  | tail _ step ih =>
    obtain ⟨c, hc⟩ := ih
    obtain ⟨d, hd⟩ := step.zones
    exact ⟨fun n z => d n { z with counts := c n z }, by rw [hd, hc, Table.mapWith_mapWith]⟩

theorem Minors.device (h : Minors ok s t) : t.device = s.device :=
  h.keeps (P := fun u => u.device = s.device) (fun _ _ step e => step.device.trans e) rfl

/-- A minor change leaves a zone's record but for its counts. -/
theorem Minors.zone (h : Minors ok s t) {n : Nat} {z : Zone} (hz : s.zone n = some z) :
    ∃ c, t.zone n = some { z with counts := c } := by
  obtain ⟨c, hc⟩ := h.zones
  exact ⟨c n z, by rw [State.zone, hc, Table.find_mapWith, ← State.zone, hz]; rfl⟩

/-! ### The zone table under a change of zone records -/

/-- A zone record with its demand step settled where it is in `d` and its guidance state derived where it is in `g`. -/
def Zone.settledBy (dev : DeviceState) (d g : List Nat) (n : Nat) (z : Zone) : Zone :=
  { z with
    demand := if n ∈ d then demandStep z else z.demand
    guidance := if n ∈ g then deriveGuidance dev z else z.guidance }

/-- The zone table before the redirect pass of a change of zone records. -/
theorem settledBy_zones {dev : DeviceState} {d g : List Nat} {f : Nat → Zone → Zone} {v : State}
    (hv : Aside (storeDemand d ((s.setDevice dev).setZones (s.zones.mapWith f))) v) :
    (refreshGuidance g v).zones = s.zones.mapWith (fun n z => (f n z).settledBy dev d g n) ∧
      (refreshGuidance g v).device = dev := by
  have hd : v.device = dev := hv.device
  refine ⟨?_, hd⟩
  rw [refreshGuidance, State.setZones_zones, hv.zones, storeDemand, State.setZones_zones, State.setZones_zones,
    Table.mapWith_mapWith, Table.mapWith_mapWith, hd]
  congr 1
  funext n z
  simp only [Zone.settledBy, List.contains_eq_mem, decide_eq_true_eq]
  split <;> split <;> rfl

theorem storeDemand_zones (d : List Nat) (s : State) :
    (storeDemand d s).zones = s.zones.mapWith fun n z => z.settledBy s.device d [] n := by
  rw [storeDemand, State.setZones_zones]
  congr 1
  funext n z
  simp only [Zone.settledBy, List.contains_eq_mem, decide_eq_true_eq, List.not_mem_nil, if_false]
  split <;> rfl

/-- A zone's configuration replaced: its record takes the new one, with counts whose in-transit counts stand (R6, R15). -/
theorem replaceZone_zones (n : Nat) (z : Zone) (c : ZoneConfig) (s : State) :
    ∃ x : Counts, (replaceZone n z c s).zones = s.zones.put n { z with config := c, counts := x } ∧
      ∀ k, (x.of k).inTransit = (z.counts.of k).inTransit := by
  unfold replaceZone
  split
  · exact ⟨z.counts, rfl, fun _ => rfl⟩
  · exact ⟨_, rfl, fun k => by cases k <;> rfl⟩

theorem replaceZone_same {n : Nat} {z : Zone} {c : ZoneConfig} (f : Field) (hf : f ≠ .bays ∧ f ≠ .zones) :
    sameField f s (replaceZone n z c s) :=
  (replaceZone_frame (fs := [.bays, .zones]) (by decide) n z c).2 (.refl _ s) f (by simp [hf])

/-- What a soft restart writes besides the records of the field (R187). -/
theorem softRestart_frame (s : State) :
    SameExcept [.lamps, .segments, .device, .startTime, .nextEvaluation, .fireLine, .quiet, .sources, .fetchMask, .response]
      (restartRecords ((s.setPartTime 0).setResetCause .restart)) (softRestart s) := by
  simp (disch := decide) only [softRestart, restartUnits, settleAllLamps_frame, State.setLamps_frame, enterStarting_frame,
    State.setResponse_frame, State.setFetchMask_frame, State.setSources_frame, State.setQuiet_frame,
    State.setFireLine_frame, SameExcept.refl]

theorem softRestart_bays (s : State) : (softRestart s).bays = s.bays.mapWith fun _ b => b.restarted :=
  softRestart_frame s .bays (by decide)

theorem softRestart_zones (s : State) :
    (softRestart s).zones = s.zones.mapWith fun _ z => z.restarted (softRestart s).bays := by
  rw [softRestart_bays]
  exact softRestart_frame s .zones (by decide)

theorem softRestart_steers (s : State) : (softRestart s).steers = [] := softRestart_frame s .steers (by decide)

theorem enterStarting_device (s : State) : (enterStarting s).device = .starting := rfl

theorem softRestart_device (s : State) : (softRestart s).device = .starting := rfl

/-- What a property of zone records (read with the device state) needs so that every change keeps it: it does not read the
counts, and it holds after a move, of a fresh zone, of a zone with a new configuration, and of a restarted zone. -/
structure ZoneInvariant (conf : Prop) (p : DeviceState → Zone → Prop) : Prop where
  counts : ∀ dev z c, p dev z → p dev { z with counts := c }
  moved : ∀ dev dev' d g n z z', ZoneMoved dev dev' d g n z z' → p dev z → p dev' (z'.settledBy dev' d g n)
  fresh : ∀ c, c.StepsFit → p .unconfigured (Zone.fresh c)
  config : ∀ dev d n z c, (z.config.StepsFit → c.StepsFit) → (conf ∨ c.haltRole = z.config.haltRole ∨ n ∈ d) → p dev z →
    p dev (Zone.settledBy dev d [] n { z with config := c })
  restarted : ∀ dev z bays, p dev z → p .starting (z.restarted bays)

/-- The zone table is canonical and every record has the property. -/
def EachZone (p : DeviceState → Zone → Prop) (s : State) : Prop :=
  s.zones.wf = true ∧ EachRecord (fun _ z => p s.device z) s.zones

theorem ZoneMoved.refl (dev : DeviceState) (d g : List Nat) (n : Nat) (z : Zone) : ZoneMoved dev dev d g n z z :=
  ⟨rfl, rfl, rfl, rfl, .inr rfl, .inr ⟨rfl, .rfl⟩, id⟩

namespace ZoneInvariant

variable {p : DeviceState → Zone → Prop}

theorem minors (inv : ZoneInvariant conf p) (h : Minors ok s t) (hs : EachZone p s) : EachZone p t := by
  obtain ⟨c, hc⟩ := h.zones
  refine ⟨by rw [hc]; exact Table.wf_mapWith hs.1 _, ?_⟩
  rw [hc, h.device, EachRecord.mapWith_iff]
  exact hs.2.imp fun q _ hq => inv.counts _ _ _ hq

/-- Every change keeps a zone invariant. -/
theorem change (inv : ZoneInvariant conf p) (h : Change ok conf s t) (hs : EachZone p s) : EachZone p t := by
  obtain ⟨wf, each⟩ := hs
  cases h with
  | minor h => exact inv.minors (.single h) ⟨wf, each⟩
  | @zones dev d g f v _ hmoved hv =>
    obtain ⟨zones, device⟩ := settledBy_zones (g := g) hv
    refine inv.minors (ok := ok) (redirectPass_minors _ _) ⟨by rw [zones]; exact Table.wf_mapWith wf _, ?_⟩
    rw [zones, device, EachRecord.mapWith_iff]
    exact each.imp fun q hq pq => inv.moved _ _ _ _ _ _ _ (hmoved q hq) pq
  | @add n c hdev _ _ _ steps =>
    refine ⟨Table.wf_put wf _ _, EachRecord.put each ?_⟩
    show p s.device _
    rw [hdev]
    exact inv.counts _ _ _ (inv.fresh c steps)
  | @replace n z c d hz _ steps role =>
    obtain ⟨x, zones, _⟩ := replaceZone_zones n z c s
    have device : (replaceZone n z c s).device = s.device := replaceZone_same .device (by decide)
    refine ⟨by rw [storeDemand_zones, zones]; exact Table.wf_mapWith (Table.wf_put wf _ _) _, ?_⟩
    show EachRecord (fun _ z => p (replaceZone n _ c s).device z) _
    rw [storeDemand_zones, zones, EachRecord.mapWith_iff, device]
    refine EachRecord.put (each.imp fun q _ pq => inv.moved _ _ _ _ _ _ _ (.refl _ _ _ _ _) pq) ?_
    exact inv.counts _ _ x (inv.config s.device d n z c steps role (each.of_find hz))
  | remove hdev hz => exact ⟨Table.wf_del wf _, fun q hq => each q (Table.mem_del hq)⟩
  | restart =>
    refine ⟨by rw [softRestart_zones]; exact Table.wf_mapWith wf _, ?_⟩
    rw [softRestart_zones, softRestart_device, EachRecord.mapWith_iff]
    exact each.imp fun q _ pq => inv.restarted _ _ _ pq
  | cold c => exact ⟨rfl, fun q hq => by cases hq⟩

end ZoneInvariant

/-! ### Guidance states (R10, R11) -/

/-- The guidance state is the one that R10 derives. -/
def GuidedZone (dev : DeviceState) (z : Zone) : Prop := z.guidance = deriveGuidance dev z

/-- A settled guidance state is kept by every change. -/
theorem guidedZone_invariant : ZoneInvariant conf GuidedZone where
  counts _ _ _ h := h
  moved dev dev' d g n z z' h hz := by
    show (if n ∈ g then deriveGuidance dev' z' else z'.guidance) = deriveGuidance dev' z'
    split
    · rfl
    · next hg => rw [h.guidance, hz, h.guided.resolve_left hg]
  fresh _ _ := rfl
  config _ _ _ _ _ _ _ h := h
  restarted dev z bays _ := by
    cases hf : z.fire <;> simp [GuidedZone, Zone.restarted, deriveGuidance, hf, FireState.restarted, ZoneAir.start,
      effectiveGuide, guideEntry, governing]

theorem GuidanceSettled.change (h : Change ok conf s t) (hs : GuidanceSettled s) : GuidanceSettled t :=
  guidedZone_invariant.change h hs

/-! ### Demand steps (R90, R102) -/

/-- The steps stay in range under a new configuration whose steps fit. -/
theorem StepsInRange.config {z : Zone} {c : ZoneConfig} (h : StepsInRange z) (steps : z.config.StepsFit → c.StepsFit) :
    StepsInRange { z with config := c } := by
  obtain ⟨floor, auto, base, quiet, blind, vents⟩ := h
  obtain ⟨b, q, l⟩ := steps ⟨base, quiet, blind⟩
  exact ⟨floor, auto, b, q, l, vents⟩

theorem stepsInRange_fresh {c : ZoneConfig} (h : c.StepsFit) : StepsInRange (Zone.fresh c) := by
  obtain ⟨b, q, l⟩ := h
  exact ⟨Nat.zero_le _, Nat.zero_le _, b, q, l, by simp [Zone.fresh]⟩

theorem StepsInRange.restarted {z : Zone} (h : StepsInRange z) (bays : Table Bay) : StepsInRange (z.restarted bays) := by
  obtain ⟨_, _, b, q, l, _⟩ := h
  exact ⟨Nat.zero_le _, Nat.zero_le _, b, q, l, by simp [Zone.restarted]⟩

theorem demandStep_restarted (z : Zone) (bays : Table Bay) : demandStep (z.restarted bays) = 0 := by
  cases hf : z.fire <;> simp [demandStep, Zone.restarted, hf, FireState.restarted, ventLevel, ventEntry, governing,
    ventStep, ZoneAir.start]

/-- In fire state ACTIVE the demand step is that of the fire role (R102). -/
theorem demandStep_active {z : Zone} (h : z.fire = .active) : demandStep z = if z.config.haltRole then 0 else 4 := by
  simp [demandStep, h]

/-- Outside fire state ACTIVE the demand step does not read the configuration (R102). -/
theorem demandStep_config {z : Zone} (h : z.fire ≠ .active) (c : ZoneConfig) :
    demandStep { z with config := c } = demandStep z := by
  simp [demandStep, h]

theorem demandStep_role {z : Zone} {c : ZoneConfig} (h : c.haltRole = z.config.haltRole) :
    demandStep { z with config := c } = demandStep z := by
  simp [demandStep, h]

theorem demandStep_active_cases {z : Zone} (h : z.fire = .active) : demandStep z = 0 ∨ demandStep z = 4 := by
  rw [demandStep_active h]
  split <;> simp

/-- What every step keeps of a demand step is kept by every change (R15, R102). -/
theorem zoneDemandKept_invariant : ZoneInvariant conf fun _ => ZoneDemandKept where
  counts _ _ _ h := h
  moved dev dev' d g n z z' h := by
    rintro ⟨out, inFire, steps⟩
    refine ⟨fun hf => ?_, fun hf => ?_, h.steps steps⟩
    · show (if n ∈ d then demandStep z' else z'.demand) = demandStep z'
      split
      · rfl
      · next hd =>
        obtain ⟨step, fire⟩ := h.driven.resolve_left hd
        rw [h.demand, out fun e => hf (fire.2 e), step]
    · show (if n ∈ d then demandStep z' else z'.demand) = 0 ∨ (if n ∈ d then demandStep z' else z'.demand) = 4
      split
      · exact demandStep_active_cases hf
      · next hd =>
        rw [h.demand]
        exact inFire ((h.driven.resolve_left hd).2.1 hf)
  fresh c h := ⟨fun _ => rfl, fun h => by simp [Zone.fresh] at h, stepsInRange_fresh h⟩
  config dev d n z c steps _ := by
    rintro ⟨out, inFire, inRange⟩
    refine ⟨fun hf => ?_, fun hf => ?_, inRange.config steps⟩
    · show (if n ∈ d then demandStep { z with config := c } else z.demand) = demandStep { z with config := c }
      split
      · rfl
      · rw [demandStep_config (z := z) hf]
        exact out hf
    · show (if n ∈ d then demandStep { z with config := c } else z.demand) = 0 ∨
        (if n ∈ d then demandStep { z with config := c } else z.demand) = 4
      split
      · exact demandStep_active_cases (z := { z with config := c }) hf
      · exact inFire hf
  restarted _ z bays := by
    rintro ⟨_, _, steps⟩
    refine ⟨fun _ => (demandStep_restarted z bays).symm, fun hf => ?_, steps.restarted bays⟩
    cases e : z.fire <;> simp [Zone.restarted, e, FireState.restarted] at hf

/-- A settled demand step is kept by every change but the replacement of the fire role by a CONFIGURE (R15, R102). -/
theorem zoneDemand_invariant (noConf : ¬conf) : ZoneInvariant conf fun _ => ZoneDemand where
  counts _ _ _ h := h
  moved dev dev' d g n z z' h := by
    rintro ⟨settled, steps⟩
    refine ⟨?_, h.steps steps⟩
    show (if n ∈ d then demandStep z' else z'.demand) = demandStep z'
    split
    · rfl
    · next hd => rw [h.demand, settled, (h.driven.resolve_left hd).1]
  fresh c h := ⟨rfl, stepsInRange_fresh h⟩
  config dev d n z c steps role := by
    rintro ⟨settled, inRange⟩
    refine ⟨?_, inRange.config steps⟩
    show (if n ∈ d then demandStep { z with config := c } else z.demand) = demandStep { z with config := c }
    split
    · rfl
    · next hd => rw [demandStep_role ((role.resolve_left noConf).resolve_right hd), settled]
  restarted _ z bays := by
    rintro ⟨_, steps⟩
    exact ⟨(demandStep_restarted z bays).symm, steps.restarted bays⟩

theorem DemandKept.change (h : Change ok conf s t) (hs : DemandKept s) : DemandKept t :=
  zoneDemandKept_invariant.change h hs

theorem DemandSettled.change (noConf : ¬conf) (h : Change ok conf s t) (hs : DemandSettled s) : DemandSettled t :=
  (zoneDemand_invariant noConf).change h hs

/-! ### OPEN targets (R66) -/

theorem Minor.steers_wf (h : Minor ok s t) (wf : s.steers.wf = true) : t.steers.wf = true := by
  cases h with
  | aside h => rw [h.steers]; exact wf
  | bay g f =>
    have : (changeBay g f s).steers = s.steers :=
      (changeBay_frame (fs := [.bays, .zones]) (by decide) g f).2 (.refl _ s) .steers (by decide)
    rw [this]; exact wf
  | steers h => exact h.table wf

theorem Minors.steers_wf (h : Minors ok s t) (wf : s.steers.wf = true) : t.steers.wf = true :=
  h.keeps (P := fun u => u.steers.wf = true) (fun _ _ step => step.steers_wf) wf

/-- Outside configured guidance no zone is OPEN, so in UNCONFIGURED no steer is live (R10, R66). -/
theorem no_steers_of_unconfigured (guided : GuidanceSettled s) (targets : TargetsOpen s) (h : s.device = .unconfigured) :
    s.steers = [] := by
  refine List.eq_nil_iff_forall_not_mem.2 fun q hq => ?_
  obtain ⟨z, hz, hopen⟩ := targets q hq
  have derived := guided.2 _ (Table.mem_of_find hz)
  simp only [hopen, h, deriveGuidance] at derived
  repeat' split at derived
  all_goals simp_all

theorem Minor.targetsOpen (h : Minor ok s t) (wf : s.steers.wf = true) (targets : TargetsOpen s) : TargetsOpen t := by
  have kept : ∀ {n z}, s.zone n = some z → z.guidance = .opened → ∃ z, t.zone n = some z ∧ z.guidance = .opened :=
    fun hz hopen => by
      obtain ⟨c, hc⟩ := (Minors.zone (.single h) hz)
      exact ⟨_, hc, hopen⟩
  intro q hq
  cases h with
  | aside h =>
    rw [h.steers] at hq
    obtain ⟨z, hz, hopen⟩ := targets q hq
    exact kept hz hopen
  | bay g f =>
    have : (changeBay g f s).steers = s.steers :=
      (changeBay_frame (fs := [.bays, .zones]) (by decide) g f).2 (.refl _ s) .steers (by decide)
    rw [this] at hq
    obtain ⟨z, hz, hopen⟩ := targets q hq
    exact kept hz hopen
  | steers h =>
    rcases h.targets wf q hq with ⟨p, hp, e⟩ | ⟨z, hz, hopen⟩
    · obtain ⟨z, hz, hopen⟩ := targets p hp
      exact kept (e ▸ hz) hopen
    · exact kept hz hopen

/-- The steers whose targets a pass does not close keep them OPEN through it; the pass leaves no other (R66). -/
theorem redirectPass_targetsOpen {closing : List Nat} (wf : s.steers.wf = true)
    (h : ∀ q ∈ s.steers, q.2.target ∈ closing ∨ ∃ z, s.zone q.2.target = some z ∧ z.guidance = .opened) :
    TargetsOpen (redirectPass closing s) := by
  have minors := redirectPass_minors (ok := fun _ => True) closing s
  have kept : ∀ u, Minors (fun _ => True) s u → u.steers.wf = true ∧
      ∀ q ∈ u.steers, q.2.target ∈ closing ∨ ∃ z, u.zone q.2.target = some z ∧ z.guidance = .opened := by
    intro u hu
    induction hu with
    | refl => exact ⟨wf, h⟩
    | @tail u v _ step ih =>
      obtain ⟨wfu, hu⟩ := ih
      have zone : ∀ {n z}, u.zone n = some z → z.guidance = .opened → ∃ z, v.zone n = some z ∧ z.guidance = .opened :=
        fun hz hopen => by
          obtain ⟨c, hc⟩ := (Minors.zone (.single step) hz)
          exact ⟨_, hc, hopen⟩
      have old : ∀ q ∈ u.steers, q.2.target ∈ closing ∨ ∃ z, v.zone q.2.target = some z ∧ z.guidance = .opened :=
        fun q hq => (hu q hq).imp_right fun ⟨z, hz, hopen⟩ => zone hz hopen
      refine ⟨step.steers_wf wfu, fun q hq => ?_⟩
      cases step with
      | aside h => exact old q (h.steers ▸ hq)
      | bay g f =>
        have : (changeBay g f u).steers = u.steers :=
          (changeBay_frame (fs := [.bays, .zones]) (by decide) g f).2 (.refl _ u) .steers (by decide)
        exact old q (this ▸ hq)
      | steers h =>
        rcases h.targets wfu q hq with ⟨p, hp, e⟩ | ⟨z, hz, hopen⟩
        · exact e ▸ old p hp
        · exact .inr (zone hz hopen)
  obtain ⟨wft, ht⟩ := kept _ minors
  intro q hq
  exact (ht q hq).resolve_left (redirectPass_target (Table.find_of_mem wft hq))

/-- Every change keeps every live steer's target OPEN (R12, R66). -/
theorem SteersGuided.change (h : Change ok conf s t) (hs : SteersGuided s) : SteersGuided t := by
  obtain ⟨wf, guided, targets⟩ := hs
  have guidedt := guided.change h
  have empty (e : t.steers = []) : SteersGuided t :=
    ⟨by rw [e]; rfl, guidedt, fun q hq => by rw [e] at hq; cases hq⟩
  cases h with
  | minor h => exact ⟨h.steers_wf wf, guidedt, h.targetsOpen wf targets⟩
  | @zones dev d g f v hdev hmoved hv =>
    obtain ⟨zones, device⟩ := settledBy_zones (g := g) hv
    have steers : (refreshGuidance g v).steers = s.steers := hv.steers
    have wfr : (refreshGuidance g v).steers.wf = true := steers ▸ wf
    refine ⟨(redirectPass_minors (ok := ok) _ _).steers_wf wfr, guidedt, redirectPass_targetsOpen wfr fun q hq => ?_⟩
    rw [steers] at hq
    obtain ⟨z, hz, hopen⟩ := targets q hq
    have moved := hmoved _ (Table.mem_of_find hz)
    have stored : (f q.2.target z).guidance = .opened := moved.guidance.trans hopen
    have before : v.zone q.2.target = some ((f q.2.target z).settledBy dev d [] q.2.target) := by
      have := storeDemand_zones d ((s.setDevice dev).setZones (s.zones.mapWith f))
      rw [State.zone, hv.zones, this, Table.find_mapWith, State.setZones_zones, Table.find_mapWith]
      rw [State.zone] at hz
      rw [hz]
      rfl
    have after : (refreshGuidance g v).zone q.2.target = some ((f q.2.target z).settledBy dev d g q.2.target) := by
      rw [State.zone, zones, Table.find_mapWith]
      rw [State.zone] at hz
      rw [hz]
      rfl
    by_cases open' : ((f q.2.target z).settledBy dev d g q.2.target).guidance = .opened
    · exact .inr ⟨_, after, open'⟩
    · refine .inl (List.mem_filter.2 ?_)
      have hg : q.2.target ∈ g := by
        by_contra hg
        exact open' (by simpa [Zone.settledBy, hg] using stored)
      have device' : v.device = dev := device
      refine ⟨hg, ?_⟩
      simp only [State.zoneIs, before, Bool.and_eq_true, decide_eq_true_eq, device']
      exact ⟨stored, by simpa [Zone.settledBy, hg, deriveGuidance] using open'⟩
  | add hdev => exact empty (show s.steers = [] from no_steers_of_unconfigured guided targets hdev)
  | @replace n z c d hz =>
    obtain ⟨x, zones, _⟩ := replaceZone_zones n z c s
    have steers : (storeDemand d (replaceZone n z c s)).steers = s.steers := replaceZone_same .steers (by decide)
    refine ⟨steers ▸ wf, guidedt, fun q hq => ?_⟩
    rw [steers] at hq
    obtain ⟨y, hy, hopen⟩ := targets q hq
    rw [State.zone, storeDemand_zones, zones, Table.find_mapWith, Table.find_put]
    rw [State.zone] at hy hz
    split
    · next e =>
      rw [e, hz] at hy
      cases hy
      exact ⟨_, rfl, hopen⟩
    · rw [hy]
      exact ⟨_, rfl, hopen⟩
  | remove hdev => exact empty (show s.steers = [] from no_steers_of_unconfigured guided targets hdev)
  | restart => exact empty (softRestart_steers s)
  | cold c => exact empty rfl

end Sys2Proof.Machine
end

section
/-!
SUPPORT. In-transit counts, category counts and the canonical form of the tables under a change (R1, R2, R8, R24, R57).
-/
namespace Sys2Proof.Machine

variable {ok : Nat → Prop} {conf : Prop} {s t : State}

/-! ### The zone and steer tables -/

theorem Change.zones_wf (h : Change ok conf s t) (wf : s.zones.wf = true) : t.zones.wf = true :=
  (ZoneInvariant.change (p := fun _ _ => True) ⟨fun _ _ _ h => h, fun _ _ _ _ _ _ _ _ h => h, fun _ _ => trivial,
    fun _ _ _ _ _ _ _ h => h, fun _ _ _ h => h⟩ h ⟨wf, fun _ _ => trivial⟩).1

/-- The steer table after a change that is not minor: as the redirect pass leaves it, as it was, or empty. -/
theorem Change.steers_wf (h : Change ok conf s t) (wf : s.steers.wf = true) : t.steers.wf = true := by
  cases h with
  | minor h => exact h.steers_wf wf
  | @zones dev d g f v _ _ hv =>
    exact (redirectPass_minors (ok := ok) _ _).steers_wf (show v.steers.wf = true by rw [hv.steers]; exact wf)
  | add => exact wf
  | replace =>
    rw [show (storeDemand _ (replaceZone _ _ _ s)).steers = s.steers from replaceZone_same .steers (by decide)]
    exact wf
  | remove => exact wf
  | restart => rw [softRestart_steers]; rfl
  | cold c => rfl

/-! ### In-transit counts (R8, R57) -/

theorem steersTo_nil (h : s.steers = []) (n : Nat) (k : BayKind) : steersTo s n k = 0 := by simp [steersTo, h]

theorem steersTo_congr (h : t.steers = s.steers) (n : Nat) (k : BayKind) : steersTo t n k = steersTo s n k := by
  simp [steersTo, h]

theorem changeBay_steers (g : Nat) (f : Bay → Bay) (s : State) : (changeBay g f s).steers = s.steers :=
  (changeBay_frame (fs := [.bays, .zones]) (by decide) g f).2 (.refl _ s) .steers (by decide)

/-- A minor change keeps every in-transit count at the number of its steers. -/
theorem TransitMatches.minor (h : Minor ok s t) (hs : TransitMatches s) : TransitMatches t := by
  obtain ⟨wf, swf, idle, each⟩ := hs
  have device := h.device
  obtain ⟨_, hc⟩ := h.zones
  refine ⟨by rw [hc]; exact Table.wf_mapWith wf _, h.steers_wf swf, ?_, ?_⟩
  · rw [device]
    intro un
    cases h with
    | aside h => rw [h.steers]; exact idle un
    | bay g f => rw [changeBay_steers]; exact idle un
    | steers h => exact h.idle (idle un) un
  · cases h with
    | aside h =>
      rw [h.zones]
      exact each.imp fun q _ hq k => (hq k).trans (steersTo_congr h.steers _ _).symm
    | bay g f =>
      obtain ⟨c, zones, same⟩ := changeBay_zones g f s
      rw [zones, EachRecord.mapWith_iff]
      exact each.imp fun q _ hq k =>
        (same _ _ k).trans ((hq k).trans (steersTo_congr (changeBay_steers g f s) _ _).symm)
    | steers h =>
      rw [State.setZones_zones, EachRecord.mapWith_iff]
      exact each.imp fun q hmem hq k => h.transit swf q hmem hq k

theorem TransitMatches.minors (h : Minors ok s t) (hs : TransitMatches s) : TransitMatches t :=
  h.keeps (fun _ _ => TransitMatches.minor) hs

/-- No counts are in transit in a record made from zero counts. -/
theorem inTransit_recount_zero (bays : List Bay) (k : BayKind) : ((Counts.zero.recount bays).of k).inTransit = 0 := by
  cases k <;> rfl

/-- Every change keeps every in-transit count at the number of its steers (R8, R57). -/
theorem TransitMatches.change (h : Change ok conf s t) (hs : TransitMatches s) : TransitMatches t := by
  have zones_wf := h.zones_wf hs.1
  have steers_wf := h.steers_wf hs.2.1
  obtain ⟨wf, swf, idle, each⟩ := hs
  cases h with
  | minor h => exact TransitMatches.minor h ⟨wf, swf, idle, each⟩
  | @zones dev d g f v hdev hmoved hv =>
    obtain ⟨zones, device⟩ := settledBy_zones (g := g) hv
    have steers : (refreshGuidance g v).steers = s.steers := hv.steers
    refine TransitMatches.minors (ok := ok) (redirectPass_minors _ _)
      ⟨by rw [zones]; exact Table.wf_mapWith wf _, steers ▸ swf, fun un => ?_, ?_⟩
    · rw [steers]
      exact idle (hdev (device ▸ un))
    · rw [zones, EachRecord.mapWith_iff]
      refine each.imp fun q hq match_ k => ?_
      show ((f q.1 q.2).counts.of k).inTransit = _
      rw [(hmoved q hq).counts, steersTo_congr steers]
      exact match_ k
  | @add n c hdev =>
    refine ⟨zones_wf, steers_wf, fun _ => idle hdev, EachRecord.put each fun k => ?_⟩
    exact (inTransit_recount_zero _ k).trans (steersTo_nil (idle hdev) n k).symm
  | @replace n z c d hz =>
    obtain ⟨x, zones, same⟩ := replaceZone_zones n z c s
    have steers : (storeDemand d (replaceZone n z c s)).steers = s.steers := replaceZone_same .steers (by decide)
    have device : (storeDemand d (replaceZone n z c s)).device = s.device := replaceZone_same .device (by decide)
    refine ⟨zones_wf, steers_wf, by rw [steers, device]; exact idle, ?_⟩
    rw [storeDemand_zones, zones, EachRecord.mapWith_iff]
    refine EachRecord.put (each.imp fun q _ hq k => ?_) fun k => ?_
    · exact (hq k).trans (steersTo_congr steers _ _).symm
    · exact (same k).trans ((each.of_find hz k).trans (steersTo_congr steers _ _).symm)
  | remove hdev => exact ⟨zones_wf, steers_wf, idle, fun q hq => each q (Table.mem_del hq)⟩
  | restart =>
    refine ⟨zones_wf, steers_wf, fun _ => softRestart_steers s, ?_⟩
    rw [softRestart_zones, EachRecord.mapWith_iff]
    exact each.imp fun q _ _ k => (inTransit_recount_zero _ k).trans (steersTo_nil (softRestart_steers s) _ k).symm
  | cold c => exact ⟨rfl, rfl, fun _ => rfl, fun q hq => by cases hq⟩

/-! ### Category counts (R7, R24) -/

/-- A bay record of a range, of a kind and category. -/
def counted (c : ZoneConfig) (k : BayKind) (cat : Category) (q : Nat × Bay) : Bool :=
  c.covers q.1 && (decide (q.2.kind = k) && decide (q.2.category = cat))

theorem countBays_baysIn (c : ZoneConfig) (bays : Table Bay) (k : BayKind) (cat : Category) :
    countBays (baysIn c bays) k cat = bays.countP (counted c k cat) := by
  rw [countBays, baysIn, ← List.countP_eq_length_filter, List.countP_map, List.countP_filter]
  congr 1
  funext q
  simp [counted, Bool.and_comm]

/-- The handle of a number is that of a zone whose range holds it (R2, R5). -/
theorem handleOf_some {zones : Table Zone} {g z i : Nat} (h : handleOf zones g = some (z, i)) :
    ∃ r, (z, r) ∈ zones ∧ r.config.covers g = true ∧ i = g - r.config.bayBase := by
  induction zones with
  | nil => cases h
  | cons q zones ih =>
    obtain ⟨n, y⟩ := q
    simp only [handleOf] at h
    split at h
    · next covers =>
      cases h
      exact ⟨y, List.mem_cons_self, covers, rfl⟩
    · obtain ⟨r, hr, rest⟩ := ih h
      exact ⟨r, List.mem_cons_of_mem _ hr, rest⟩

/-- A number without a handle lies in no zone's range. -/
theorem handleOf_none {zones : Table Zone} {g : Nat} (h : handleOf zones g = none) :
    ∀ q ∈ zones, q.2.config.covers g = false := by
  induction zones with
  | nil => simp
  | cons q zones ih =>
    obtain ⟨n, y⟩ := q
    simp only [handleOf] at h
    split at h
    · cases h
    · next out =>
      rintro r hr
      rcases List.mem_cons.1 hr with rfl | hr
      · simpa using out
      · exact ih h r hr

theorem ZoneConfig.covers_iff {c : ZoneConfig} {g : Nat} :
    c.covers g = true ↔ c.bayBase ≤ g ∧ g < c.bayBase + c.bayCount := by simp [ZoneConfig.covers]

/-- Two ranges that hold a number overlap (R2). -/
theorem ZoneConfig.not_covers_of_apart {a b : ZoneConfig} {g : Nat} (h : a.overlaps b = false) (ha : a.covers g = true) :
    b.covers g = false := by
  by_contra hb
  rw [Bool.not_eq_false, ZoneConfig.covers_iff] at hb
  rw [ZoneConfig.covers_iff] at ha
  simp only [ZoneConfig.overlaps, decide_eq_false_iff_not] at h
  omega

theorem ZoneConfig.overlaps_comm (a b : ZoneConfig) : a.overlaps b = b.overlaps a := by
  simp only [ZoneConfig.overlaps, max_comm, min_comm]

theorem ZoneConfig.overlaps_congr {a a' : ZoneConfig} (h : a.bayBase = a'.bayBase ∧ a.bayCount = a'.bayCount)
    (b : ZoneConfig) : a.overlaps b = a'.overlaps b := by
  simp only [ZoneConfig.overlaps, h]

theorem ZoneConfig.covers_congr {a a' : ZoneConfig} (h : a.bayBase = a'.bayBase ∧ a.bayCount = a'.bayCount) (g : Nat) :
    a.covers g = a'.covers g := by
  simp only [ZoneConfig.covers, h]

theorem counted_congr {a a' : ZoneConfig} (h : a.bayBase = a'.bayBase ∧ a.bayCount = a'.bayCount) :
    counted a = counted a' := by
  funext k cat q
  rw [counted, counted, ZoneConfig.covers_congr h]

/-- The counts of a zone with one unit moved between two of them (R24). -/
theorem of_moved (c : Counts) (k k' j : BayKind) (a a' cat : Category) :
    (((c.upd k fun m => m.upd a (· - 1)).upd k' fun m => m.upd a' (· + 1)).of j).of cat =
      ((c.of j).of cat - if j = k ∧ cat = a then 1 else 0) + if j = k' ∧ cat = a' then 1 else 0 := by
  have first (n : KindCounts) : (n.upd a (· - 1)).of cat = n.of cat - if cat = a then 1 else 0 := by
    rw [KindCounts.of_upd]
    split <;> simp_all
  have second (n : KindCounts) : (n.upd a' (· + 1)).of cat = n.of cat + if cat = a' then 1 else 0 := by
    rw [KindCounts.of_upd]
    split <;> simp_all
  have taken : ((c.upd k fun m => m.upd a (· - 1)).of j).of cat =
      (c.of j).of cat - if j = k ∧ cat = a then 1 else 0 := by
    rw [Counts.of_upd]
    split
    · next e => simp [first, e]
    · next e => simp [e]
  rw [Counts.of_upd, ← taken]
  split
  · next e => simp [second, e]
  · next e => simp [e]

/-- A change of a bay moves one unit of its zone's counts (R24). -/
theorem changeBay_zone {g z : Nat} {i : Nat} {b : Bay} (f : Bay → Bay) (hb : s.bays.find g = some b)
    (hz : handleOf s.zones g = some (z, i)) :
    changeBay g f s = moveCount z b.kind b.category (f b).kind (f b).category (s.setBays (s.bays.put g (f b))) := by
  rw [changeBay, hb]
  simp only [State.bayZone, hz, Option.map_some]

/-- A change of a bay keeps every category count at the number of its bays (R24). -/
theorem CountsMatch.bay (g : Nat) (f : Bay → Bay) (hs : CountsMatch s) : CountsMatch (changeBay g f s) := by
  obtain ⟨wf, bwf, apart, each⟩ := hs
  obtain ⟨c, zones, _⟩ := changeBay_zones g f s
  have apart' : RangesApart (changeBay g f s) := by
    intro p hp q hq ne
    rw [zones] at hp hq
    obtain ⟨p', hp', rfl⟩ := List.mem_map.1 hp
    obtain ⟨q', hq', rfl⟩ := List.mem_map.1 hq
    exact apart p' hp' q' hq' ne
  refine ⟨by rw [zones]; exact Table.wf_mapWith wf _, ?_, apart', ?_⟩
  · rw [changeBay_bays]
    split
    · exact bwf
    · exact Table.wf_put bwf _ _
  · cases hb : s.bays.find g with
    | none =>
      have : changeBay g f s = s := by rw [changeBay, hb]
      rw [this]
      exact each
    | some b =>
      have bays : (changeBay g f s).bays = s.bays.put g (f b) := by rw [changeBay_bays, hb]
      have count (z : ZoneConfig) (k cat) := Table.countP_put bwf hb (f b) (counted z k cat)
      rw [bays]
      cases hh : handleOf s.zones g with
      | none =>
        have same : (changeBay g f s).zones = s.zones := by
          rw [changeBay, hb]
          simp only [State.bayZone, hh, Option.map_none, State.setBays_zones]
        rw [same]
        refine each.imp fun q hq h k cat => ?_
        have out := handleOf_none hh q hq
        have := count q.2.config k cat
        rw [h k cat, countBays_baysIn, countBays_baysIn]
        simp only [Table.one, counted, out, Bool.false_and, Bool.false_eq_true, if_false] at this
        exact this.symm
      | some p =>
        obtain ⟨z, i⟩ := p
        obtain ⟨r, hr, covers, _⟩ := handleOf_some hh
        rw [changeBay_zone f hb hh, moveCount]
        have own : ∀ q ∈ s.zones, q.1 = z → q.2.config.covers g = true := fun q hq e => by
          have := (Table.find_of_mem wf (show (z, q.2) ∈ s.zones from e ▸ hq)).symm.trans (Table.find_of_mem wf hr)
          rw [Option.some.inj this]
          exact covers
        have others : ∀ q ∈ s.zones, q.1 ≠ z → q.2.config.covers g = false := fun q hq ne =>
          ZoneConfig.not_covers_of_apart (apart _ hr _ hq (Ne.symm ne)) covers
        split
        · next same =>
          refine each.imp fun q _ h k cat => ?_
          have := count q.2.config k cat
          rw [h k cat, countBays_baysIn, countBays_baysIn]
          simp only [Table.one, counted, same.1, same.2] at this
          exact (Nat.add_right_cancel this).symm
        · next moved =>
          simp only [State.updZone, State.setZones_zones, State.setBays_zones, Table.upd, EachRecord.mapWith_iff]
          refine each.imp fun q hq h k cat => ?_
          have := count q.2.config k cat
          by_cases e : q.1 = z
          · simp only [if_pos e]
            show (((q.2.counts.upd b.kind fun n => n.upd b.category (· - 1)).upd (f b).kind
              fun n => n.upd (f b).category (· + 1)).of k).of cat = countBays (baysIn q.2.config (s.bays.put g (f b))) k cat
            have before := List.countP_le_length (p := counted q.2.config k cat) (l := s.bays)
            have there := Table.countP_del bwf hb (counted q.2.config k cat)
            rw [of_moved, h k cat, countBays_baysIn, countBays_baysIn]
            simp only [Table.one, counted, own q hq e, Bool.true_and, Bool.and_eq_true, decide_eq_true_eq] at this there
            simp only [eq_comm (a := k), eq_comm (a := cat)]
            omega
          · simp only [if_neg e]
            rw [h k cat, countBays_baysIn, countBays_baysIn]
            simp only [Table.one, counted, others q hq e, Bool.false_and, Bool.false_eq_true, if_false] at this
            exact this.symm

/-- Records that keep their ranges and category counts keep them at the numbers of the bays, which stand. -/
theorem CountsMatch.of_recounted {f : Nat → Zone → Zone} (hs : CountsMatch s)
    (h : ∀ q ∈ s.zones, (f q.1 q.2).config = q.2.config ∧
      ∀ k cat, ((f q.1 q.2).counts.of k).of cat = (q.2.counts.of k).of cat)
    (zones : t.zones = s.zones.mapWith f) (bays : t.bays = s.bays) : CountsMatch t := by
  obtain ⟨wf, bwf, apart, each⟩ := hs
  refine ⟨by rw [zones]; exact Table.wf_mapWith wf _, bays ▸ bwf, fun p hp q hq ne => ?_, ?_⟩
  · rw [zones] at hp hq
    obtain ⟨p', hp', rfl⟩ := List.mem_map.1 hp
    obtain ⟨q', hq', rfl⟩ := List.mem_map.1 hq
    dsimp only at ne ⊢
    rw [(h p' hp').1, (h q' hq').1]
    exact apart p' hp' q' hq' ne
  · rw [zones, bays, EachRecord.mapWith_iff]
    refine each.imp fun q hq m k cat => ?_
    rw [(h q hq).1, (h q hq).2 k cat]
    exact m k cat

theorem CountsMatch.minor (h : Minor ok s t) (hs : CountsMatch s) : CountsMatch t := by
  cases h with
  | aside h =>
    exact hs.of_recounted (f := fun _ z => z) (fun _ _ => ⟨rfl, fun _ _ => rfl⟩)
      (by rw [h.zones, Table.mapWith_self]) h.bays
  | bay g f => exact hs.bay g f
  | @steers x f h =>
    refine hs.of_recounted (fun q _ => ?_) rfl rfl
    obtain ⟨c, e, same⟩ := h.counts q.1 q.2
    rw [e]
    exact ⟨rfl, same⟩

theorem CountsMatch.minors (h : Minors ok s t) (hs : CountsMatch s) : CountsMatch t :=
  h.keeps (fun _ _ => CountsMatch.minor) hs

/-! ### Ranges (R2, R6) -/

theorem ZoneConfig.mem_range {c : ZoneConfig} {g : Nat} : g ∈ c.range ↔ c.covers g = true := by
  rw [ZoneConfig.covers_iff, ZoneConfig.range, List.mem_range'_1]

/-- Some numbers given a newly ranged bay where they have none, as a new range is filled (R6, R22). -/
def fillNumbers (now : Nat) (l : List Nat) (bays : Table Bay) : Table Bay :=
  l.foldl (fun t g => if Table.has t g then t else Table.put t g (Bay.ranged now)) bays

theorem fillRange_eq (now : Nat) (c : ZoneConfig) (bays : Table Bay) : fillRange now c bays = fillNumbers now c.range bays :=
  rfl

theorem fillNumbers_kept (now : Nat) (l : List Nat) (bays : Table Bay) :
    Table.Kept (· ∈ l) bays (fillNumbers now l bays) := by
  induction l generalizing bays with
  | nil => exact .refl _
  | cons g l ih =>
    have step : Table.Kept (· ∈ g :: l) bays (if Table.has bays g then bays else Table.put bays g (Bay.ranged now)) := by
      split
      · exact .refl _
      · exact .put_new _ _ List.mem_cons_self
    exact step.trans fun h => ⟨((ih _) h).1, fun k hk => (((ih _) h).2 k hk).imp_right (List.mem_cons_of_mem _)⟩

/-- Records outside the numbers filled are counted as before. -/
theorem fillNumbers_countP (now : Nat) {l : List Nat} {p : Nat × Bay → Bool} (out : ∀ g ∈ l, ∀ b, p (g, b) = false)
    (bays : Table Bay) : (fillNumbers now l bays).countP p = bays.countP p := by
  induction l generalizing bays with
  | nil => rfl
  | cons g l ih =>
    rw [fillNumbers, List.foldl_cons, ← fillNumbers, ih fun g' hg => out g' (List.mem_cons_of_mem _ hg)]
    split
    · rfl
    · next free =>
      have : bays.find g = none := by simpa [Table.has] using free
      rw [Table.countP_put_new this, Table.one, out g List.mem_cons_self]
      rfl

theorem fillRange_wf (now : Nat) (c : ZoneConfig) {bays : Table Bay} (h : bays.wf = true) :
    (fillRange now c bays).wf = true := (fillNumbers_kept now c.range bays h).1

theorem fillRange_countP (now : Nat) {a c : ZoneConfig} (apart : a.overlaps c = false) (k : BayKind) (cat : Category)
    (bays : Table Bay) : (fillRange now c bays).countP (counted a k cat) = bays.countP (counted a k cat) := by
  refine fillNumbers_countP now (fun g hg b => ?_) bays
  rw [counted, ZoneConfig.not_covers_of_apart (a.overlaps_comm c ▸ apart) (ZoneConfig.mem_range.1 hg), Bool.false_and]

/-- Records dropped from ranges apart from a zone's are none of its own. -/
theorem filter_countP {a : ZoneConfig} {keep : Nat × Bay → Bool} (h : ∀ q, a.covers q.1 = true → keep q = true)
    (k : BayKind) (cat : Category) (bays : Table Bay) :
    (bays.filter keep).countP (counted a k cat) = bays.countP (counted a k cat) := by
  rw [List.countP_filter]
  congr 1
  funext q
  cases hq : a.covers q.1 <;> simp [counted, hq, h]

/-- The counts set from the records of a range are their numbers (R6). -/
theorem of_recount (bs : List Bay) (c : Counts) (k : BayKind) (cat : Category) :
    ((c.recount bs).of k).of cat = countBays bs k cat := by
  cases k <;> cases cat <;> rfl

/-- A zone made or replaced with its range apart from the others keeps the ranges apart and, with its counts set from the new
bay records, the counts at their numbers, where the bays of the other ranges stand (R2, R6). -/
theorem CountsMatch.put {n : Nat} {z : Zone} (hs : CountsMatch s) (bwf : t.bays.wf = true)
    (zones : t.zones = s.zones.put n z) (apart : ∀ p ∈ s.zones, p.1 ≠ n → p.2.config.overlaps z.config = false)
    (own : ∀ k cat, (z.counts.of k).of cat = countBays (baysIn z.config t.bays) k cat)
    (others : ∀ p ∈ s.zones, p.1 ≠ n → ∀ k cat,
      t.bays.countP (counted p.2.config k cat) = s.bays.countP (counted p.2.config k cat)) : CountsMatch t := by
  obtain ⟨wf, _, ranges, each⟩ := hs
  have wft : t.zones.wf = true := zones ▸ Table.wf_put wf n z
  have cases_ : ∀ q ∈ t.zones, q = (n, z) ∨ (q ∈ s.zones ∧ q.1 ≠ n) := by
    intro q hq
    by_cases e : q.1 = n
    · have found := Table.find_of_mem wft (show (n, q.2) ∈ t.zones from e ▸ hq)
      rw [zones, Table.find_put_same] at found
      exact .inl (Prod.ext e (Option.some.inj found).symm)
    · rw [zones] at hq
      exact .inr ⟨(Table.mem_put hq).resolve_left fun h => e (h ▸ rfl), e⟩
  refine ⟨wft, bwf, fun p hp q hq ne => ?_, fun q hq => ?_⟩
  · rcases cases_ p hp with rfl | ⟨hp, pn⟩ <;> rcases cases_ q hq with rfl | ⟨hq, qn⟩
    · exact absurd rfl ne
    · rw [ZoneConfig.overlaps_comm]
      exact apart q hq qn
    · exact apart p hp pn
    · exact ranges p hp q hq ne
  · rcases cases_ q hq with rfl | ⟨hq, qn⟩
    · exact own
    · intro k cat
      rw [each q hq k cat, countBays_baysIn, countBays_baysIn]
      exact (others q hq qn k cat).symm

/-- A new configuration whose range is the old one, or apart from the other zones', keeps the counts (R2, R6). -/
theorem CountsMatch.replace {n : Nat} {z : Zone} {c : ZoneConfig} (hs : CountsMatch s) (hz : s.zone n = some z)
    (fits : (z.config.bayBase = c.bayBase ∧ z.config.bayCount = c.bayCount) ∨ RangeFits n c s) :
    CountsMatch (replaceZone n z c s) := by
  have mem := Table.mem_of_find hz
  obtain ⟨wf, bwf, ranges, each⟩ := id hs
  unfold replaceZone
  split
  · next same =>
    refine hs.put bwf rfl (fun p hp pn => ?_) (fun k cat => ?_) fun _ _ _ _ _ => rfl
    · rw [ZoneConfig.overlaps_comm, ← ZoneConfig.overlaps_congr same, ZoneConfig.overlaps_comm]
      exact ranges p hp _ mem pn
    · show _ = countBays (baysIn c s.bays) k cat
      rw [countBays_baysIn, ← counted_congr same, ← countBays_baysIn]
      exact each _ mem k cat
  · next moved =>
    obtain ⟨_, apart⟩ := fits.resolve_left moved
    refine hs.put (fillRange_wf _ _ (Table.wf_filter bwf _)) rfl apart (fun k cat => of_recount _ _ k cat)
      fun p hp pn k cat => ?_
    refine (fillRange_countP _ (apart p hp pn) k cat _).trans (filter_countP (fun q hq => ?_) k cat _)
    simp [ZoneConfig.not_covers_of_apart (ranges p hp _ mem pn) hq]

/-- Every change keeps the category counts at the numbers of the bays (R2, R7, R24). -/
theorem CountsMatch.change (h : Change ok conf s t) (hs : CountsMatch s) : CountsMatch t := by
  cases h with
  | minor h => exact hs.minor h
  | @zones dev d g f v _ hmoved hv =>
    refine CountsMatch.minors (ok := ok) (redirectPass_minors _ _) (hs.of_recounted (fun q hq => ?_)
      (settledBy_zones hv).1 hv.bays)
    have := hmoved q hq
    exact ⟨this.config, fun k cat => by rw [show (Zone.settledBy _ _ _ _ _).counts = _ from this.counts]⟩
  | @add n c hdev hn hz fits =>
    refine hs.put (fillRange_wf _ _ hs.2.1) rfl fits.2 (fun k cat => of_recount _ _ k cat) fun p hp pn k cat => ?_
    exact fillRange_countP _ (fits.2 p hp pn) k cat _
  | @replace n z c d hz fits =>
    refine (hs.replace hz fits).of_recounted (fun q _ => ?_) (storeDemand_zones d _) rfl
    exact ⟨rfl, fun _ _ => rfl⟩
  | @remove n z _ hz =>
    obtain ⟨wf, bwf, apart, each⟩ := hs
    have mem := Table.mem_of_find hz
    refine ⟨Table.wf_del wf _, Table.wf_filter bwf _,
      fun p hp q hq => apart p (Table.mem_del hp) q (Table.mem_del hq), fun q hq k cat => ?_⟩
    have ne : q.1 ≠ n := fun e => by
      have := Table.find_of_mem (Table.wf_del wf n) hq
      simp [Table.find_del, e] at this
    rw [each q (Table.mem_del hq) k cat, countBays_baysIn, countBays_baysIn]
    refine (filter_countP (fun p hp => ?_) k cat s.bays).symm
    simp [ZoneConfig.not_covers_of_apart (apart q (Table.mem_del hq) _ mem ne) hp]
  | restart =>
    obtain ⟨wf, bwf, apart, each⟩ := hs
    refine ⟨by rw [softRestart_zones]; exact Table.wf_mapWith wf _, by rw [softRestart_bays]; exact Table.wf_mapWith bwf _,
      fun p hp q hq ne => ?_, ?_⟩
    · rw [softRestart_zones] at hp hq
      obtain ⟨p', hp', rfl⟩ := List.mem_map.1 hp
      obtain ⟨q', hq', rfl⟩ := List.mem_map.1 hq
      exact apart p' hp' q' hq' ne
    · rw [softRestart_zones, EachRecord.mapWith_iff]
      exact fun q _ k cat => of_recount _ _ k cat
  | cold c => exact ⟨rfl, rfl, fun p hp => absurd hp List.not_mem_nil, fun q hq => absurd hq List.not_mem_nil⟩

end Sys2Proof.Machine
end

section
/-!
SUPPORT. The canonical form of the tables under a change (R1, R2, R22, R57).
-/
namespace Sys2Proof.Machine

variable {ok : Nat → Prop} {conf : Prop} {s t u : State}

theorem Table.Kept.nil {α : Type} {ok : Nat → Prop} (t : Table α) : Table.Kept ok t [] :=
  fun _ => ⟨rfl, fun _ hk => absurd hk List.not_mem_nil⟩

/-- Every table stays canonical, and the numbers new to it are within its slots. -/
structure TablesKept (s t : State) : Prop where
  zones : Table.Kept (· < Config.zoneSlots) s.zones t.zones
  steers : Table.Kept (· < Config.steerSlots) s.steers t.steers
  passages : Table.Kept (· < Config.passageSlots) s.passages t.passages
  signs : Table.Kept (· < Config.signSlots) s.signs t.signs
  fans : Table.Kept (· < Config.fanSlots) s.fans t.fans
  lamps : Table.Kept (· < Config.lampSlots) s.lamps t.lamps
  bays : Table.Kept (· < Config.bayNumbers) s.bays t.bays
  heads : Table.Kept KeyInLane s.heads t.heads

namespace TablesKept

theorem refl (s : State) : TablesKept s s := ⟨.refl _, .refl _, .refl _, .refl _, .refl _, .refl _, .refl _, .refl _⟩

theorem trans (h : TablesKept s t) (k : TablesKept t u) : TablesKept s u :=
  ⟨h.zones.trans k.zones, h.steers.trans k.steers, h.passages.trans k.passages, h.signs.trans k.signs,
    h.fans.trans k.fans, h.lamps.trans k.lamps, h.bays.trans k.bays, h.heads.trans k.heads⟩

theorem of_aside (h : Aside s t) : TablesKept s t :=
  ⟨.of_eq h.zones, .of_eq h.steers, h.passages, h.signs, h.fans, h.lamps, .of_eq h.bays, h.heads⟩

/-- A change of zones and bays alone. -/
theorem of_zones_bays (h : SameExcept [.zones, .bays, .device] s t)
    (zones : Table.Kept (· < Config.zoneSlots) s.zones t.zones)
    (bays : Table.Kept (· < Config.bayNumbers) s.bays t.bays) : TablesKept s t :=
  ⟨zones, .of_eq (h .steers (by decide)), .of_eq (h .passages (by decide)), .of_eq (h .signs (by decide)),
    .of_eq (h .fans (by decide)), .of_eq (h .lamps (by decide)), bays, .of_eq (h .heads (by decide))⟩

/-- What the tables stay, they stay canonical (R1, R2, R22, R49, R57). -/
theorem canonical (h : TablesKept s t) (hs : TablesCanonical s) : TablesCanonical t := by
  obtain ⟨⟨zw, zk⟩, ⟨sw, sk⟩, ⟨pw, pk⟩, ⟨gw, gk⟩, ⟨fw, fk⟩, ⟨lw, lk⟩, ⟨bw, bk⟩, hw, hk⟩ := hs
  exact ⟨⟨(h.zones zw).1, h.zones.keys zw zk⟩, ⟨(h.steers sw).1, h.steers.keys sw sk⟩,
    ⟨(h.passages pw).1, h.passages.keys pw pk⟩, ⟨(h.signs gw).1, h.signs.keys gw gk⟩,
    ⟨(h.fans fw).1, h.fans.keys fw fk⟩, ⟨(h.lamps lw).1, h.lamps.keys lw lk⟩,
    ⟨(h.bays bw).1, h.bays.keys bw bk⟩, (h.heads hw).1, h.heads.keys hw hk⟩

theorem changeBay (g : Nat) (f : Bay → Bay) (s : State) : TablesKept s (changeBay g f s) := by
  refine of_zones_bays ((changeBay_frame (by decide) g f).2 (.refl _ s)) ?_ ?_
  · obtain ⟨c, zones, _⟩ := changeBay_zones g f s
    rw [zones]
    exact .mapWith _ _
  · rw [changeBay_bays]
    split
    · exact .refl _
    · next hb => exact .put_found hb _

theorem minor (h : Minor (· < Config.steerSlots) s t) : TablesKept s t := by
  cases h with
  | aside h => exact of_aside h
  | bay g f => exact changeBay g f s
  | steers h => exact { TablesKept.refl s with zones := .mapWith _ _, steers := fun hw => ⟨h.table hw, h.slots⟩ }

theorem minors (h : Minors (· < Config.steerSlots) s t) : TablesKept s t :=
  h.keeps (fun _ _ step k => k.trans (minor step)) (refl s)

/-- A range within the bay numbers, filled with new bay records. -/
theorem fillRange_kept (now : Nat) {c : ZoneConfig} (h : c.bayBase + c.bayCount ≤ Config.bayNumbers) (bays : Table Bay) :
    Table.Kept (· < Config.bayNumbers) bays (fillRange now c bays) := fun hw => by
  obtain ⟨wf, new⟩ := fillNumbers_kept now c.range bays hw
  refine ⟨wf, fun k hk => (new k hk).imp_right fun h => ?_⟩
  have := ZoneConfig.covers_iff.1 (ZoneConfig.mem_range.1 h)
  omega

theorem replaceZone {n : Nat} {z : Zone} {c : ZoneConfig} (hz : s.zone n = some z)
    (fits : (z.config.bayBase = c.bayBase ∧ z.config.bayCount = c.bayCount) ∨ RangeFits n c s) :
    TablesKept s (replaceZone n z c s) := by
  refine of_zones_bays ((replaceZone_frame (by decide) n z c).2 (.refl _ s)) ?_ ?_
  · obtain ⟨x, zones, _⟩ := replaceZone_zones n z c s
    rw [zones]
    exact .put_found hz _
  · unfold Machine.replaceZone
    split
    · exact .refl _
    · next moved => exact (Table.Kept.filter _ _).trans (fillRange_kept _ (fits.resolve_left moved).1 _)

/-- The records of the field as a soft restart leaves them before the lamps are settled (R187). -/
theorem restartRecords_kept (s : State) : TablesKept s (restartRecords s) := by
  have zones : (restartRecords s).zones = s.zones.mapWith fun _ z => z.restarted (s.bays.mapWith fun _ b => b.restarted) := rfl
  have steers : (restartRecords s).steers = [] := rfl
  have passages : (restartRecords s).passages = s.passages.mapWith fun _ p => Passage.fresh p.config := rfl
  have signs : (restartRecords s).signs = s.signs.mapWith fun _ r => Sign.fresh r.config := rfl
  have fans : (restartRecords s).fans = s.fans.mapWith fun _ f => f.restarted := rfl
  have lamps : (restartRecords s).lamps = s.lamps := by simp only [restartRecords, State.setHeads_lamps, State.setFans_lamps,
    State.setSigns_lamps, State.setPassages_lamps, State.setSteers_lamps, State.setHoldCount_lamps, State.setZones_lamps,
    State.setBays_lamps]
  have bays : (restartRecords s).bays = s.bays.mapWith fun _ b => b.restarted := rfl
  have heads : (restartRecords s).heads = s.heads.mapWith fun _ h => Head.listed h.kind h.wake := rfl
  constructor
  · rw [zones]
    exact .mapWith _ _
  · rw [steers]
    exact .nil _
  · rw [passages]
    exact .mapWith _ _
  · rw [signs]
    exact .mapWith _ _
  · rw [fans]
    exact .mapWith _ _
  · rw [lamps]
    exact .refl _
  · rw [bays]
    exact .mapWith _ _
  · rw [heads]
    exact .mapWith _ _

/-- The units and the start leave the lamp groups. -/
theorem restartUnits_lamps (r : State) : (enterStarting (restartUnits r)).lamps = r.lamps :=
  have units : SameExcept [.segments, .device, .startTime, .nextEvaluation, .fireLine, .quiet, .sources, .fetchMask,
      .response] r (enterStarting (restartUnits r)) := by
    simp (disch := decide) only [restartUnits, enterStarting_frame, State.setResponse_frame,
      State.setFetchMask_frame, State.setSources_frame, State.setQuiet_frame, State.setFireLine_frame, SameExcept.refl]
  units .lamps (by decide)

theorem settledLamps_kept (v : State) (f : LampGroup → LampGroup) :
    Table.Kept (· < Config.lampSlots) v.lamps (settleAllLamps (v.setLamps (v.lamps.mapWith fun _ g => f g))).lamps := by
  refine Table.Kept.trans ?_ (settleAllLamps_aside _).lamps
  rw [State.setLamps_lamps]
  exact .mapWith _ _

/-- The lamp groups as a soft restart leaves them (R187). -/
theorem softRestart_lamps (s : State) : Table.Kept (· < Config.lampSlots) s.lamps (softRestart s).lamps := by
  rw [Machine.softRestart]
  refine Table.Kept.trans (.of_eq ?_) (settledLamps_kept _ LampGroup.restarted)
  rw [restartUnits_lamps]
  simp [restartRecords]

theorem softRestart (s : State) : TablesKept s (softRestart s) := by
  have begun : TablesKept s ((s.setPartTime 0).setResetCause .restart) :=
    of_aside (.of_unread (by simp (disch := decide)))
  have records := begun.trans (restartRecords_kept _)
  have h := softRestart_frame s
  exact {
    zones := records.zones.trans (.of_eq (h .zones (by decide)))
    steers := records.steers.trans (.of_eq (h .steers (by decide)))
    passages := records.passages.trans (.of_eq (h .passages (by decide)))
    signs := records.signs.trans (.of_eq (h .signs (by decide)))
    fans := records.fans.trans (.of_eq (h .fans (by decide)))
    lamps := softRestart_lamps s
    bays := records.bays.trans (.of_eq (h .bays (by decide)))
    heads := records.heads.trans (.of_eq (h .heads (by decide))) }

/-- A change of the zone table alone that keeps its numbers. -/
theorem zones_mapWith (f : Nat → Zone → Zone) (s : State) : TablesKept s (s.setZones (s.zones.mapWith f)) :=
  of_zones_bays (by simp (disch := decide)) (by rw [State.setZones_zones]; exact .mapWith _ _) (.refl _)

theorem storeDemand (d : List Nat) (s : State) : TablesKept s (storeDemand d s) := by
  rw [Machine.storeDemand]
  exact zones_mapWith _ s

/-- Every change keeps the tables. -/
theorem change (h : Change (· < Config.steerSlots) conf s t) : TablesKept s t := by
  cases h with
  | minor h => exact minor h
  | @zones dev d g f v _ _ hv =>
    have moved : TablesKept s ((s.setDevice dev).setZones (s.zones.mapWith f)) :=
      of_zones_bays (by simp (disch := decide)) (by rw [State.setZones_zones]; exact .mapWith _ _) (.refl _)
    have guided : TablesKept v (refreshGuidance g v) := by
      rw [refreshGuidance]
      exact zones_mapWith _ v
    exact (((moved.trans (storeDemand d _)).trans (of_aside hv)).trans guided).trans (minors (redirectPass_minors _ _))
  | add _ hn hz fits =>
    exact of_zones_bays ((addZone_frame (by decide) _ _).2 (.refl _ s)) (.put_new _ _ hn) (fillRange_kept _ fits.1 _)
  | replace hz fits =>
    exact (replaceZone hz fits).trans (storeDemand _ _)
  | @remove n z =>
    exact of_zones_bays (by simp (disch := decide) [dropZone]) (.del _ _) (.filter _ _)
  | restart => exact softRestart s
  | cold c => exact ⟨.nil _, .nil _, .nil _, .nil _, .nil _, .nil _, .nil _, .nil _⟩

end TablesKept

theorem TablesCanonical.change (h : Change (· < Config.steerSlots) conf s t) (hs : TablesCanonical s) : TablesCanonical t :=
  (TablesKept.change h).canonical hs

end Sys2Proof.Machine
end

section
/-!
SUPPORT. The operations beside the zone records, each a change beside them or a chain of minor changes: fans, lamps, signs,
segments, quiet control, heads, passages and steers.
-/
namespace Sys2Proof.Machine

variable {ok : Nat → Prop} {conf : Prop} {s t : State}

/-! ### Fans (R103 to R114) -/

/-- A change of the fan records under their own numbers. -/
theorem fans_mapWith_aside (f : Nat → Fan → Fan) (s : State) : Aside s (s.setFans (s.fans.mapWith f)) :=
  .of_fans (by simp (disch := decide)) (by rw [State.setFans_fans]; exact .mapWith _ _)

theorem retargetZone_aside (z : Nat) (s : State) : Aside s (retargetZone z s) := fans_mapWith_aside _ s

theorem retargetZones_aside (zs : List Nat) (s : State) : Aside s (retargetZones zs s) :=
  .foldl (fun s z => retargetZone_aside z s) zs s

theorem takeUpFire_aside (s : State) : Aside s (takeUpFire s) := fans_mapWith_aside _ s

theorem retargetFan_aside (n : Nat) (s : State) : Aside s (retargetFan n s) := fans_mapWith_aside _ s

theorem admitFans_aside (n : Nat) (s : State) : Aside s (admitFans n s) := by
  induction n generalizing s with
  | zero => exact .refl s
  | succ n ih =>
    rw [admitFans]
    split
    · split
      · exact .refl s
      · exact (fans_mapWith_aside _ s).trans (ih _)
    · exact .refl s

theorem gate_aside (s : State) : Aside s (gate s) := admitFans_aside _ s

theorem retargetShort_aside (z : Nat) (s t : State) (c : Prop) [Decidable c] (h : Aside s t) :
    Aside s (gate (if c then t else retargetZone z t)) := by
  split
  · exact h.trans (gate_aside _)
  · exact (h.trans (retargetZone_aside _ _)).trans (gate_aside _)

theorem putFan_aside {n : Nat} (h : n ∈ s.fans.keys) (f : Fan) : Aside s (putFan n f s) :=
  retargetShort_aside _ _ _ _ (.fans_put h f)

theorem fanDown_aside {n : Nat} (h : n ∈ s.fans.keys) (f : Fan) : Aside s (fanDown n f s) :=
  retargetShort_aside _ _ _ _ ((Aside.fans_put h f).trans (gate_aside _))

theorem fanTrip_aside {n : Nat} (h : n ∈ s.fans.keys) (f : Fan) : Aside s (fanTrip n f s) :=
  (fanDown_aside h _).trans (raise_aside _ _ _ _)

/-- The flags of a report change a fan as a trip, as local control or as a return to the cycle, or not at all. -/
theorem applyFanFlags_aside {n : Nat} (h : n ∈ s.fans.keys) (f : Fan) : Aside s (applyFanFlags n f s) := by
  have ite_aside (c : Bool) {u v : State} (hu : Aside s u) (hv : Aside s v) : Aside s (if c then u else v) := by
    split <;> assumption
  have trip := fanTrip_aside h f
  have taken := fanDown_aside h (f.toUnhealthy .localControl)
  have back := putFan_aside h (f.toRundown s.partTime s.fanSettings.minOffTime)
  have same := Aside.refl s
  unfold applyFanFlags
  cases f.state
  case lockedOut => exact same
  case tripped => exact ite_aside _ same (ite_aside _ taken back)
  case unreached => exact ite_aside _ trip (ite_aside _ taken back)
  case localControl => exact ite_aside _ trip (ite_aside _ same back)
  all_goals exact ite_aside _ trip (ite_aside _ taken same)

theorem fanOf_mem {segment address n : Nat} {f : Fan} (h : fanOf segment address s = some (n, f)) : n ∈ s.fans.keys :=
  List.mem_map.2 ⟨_, List.mem_of_find?_eq_some h, rfl⟩

theorem fanReport_aside (segment address : Nat) (payload : List Byte) (s : State) :
    Aside s (fanReport segment address payload s) := by
  unfold fanReport
  split
  · exact .refl s
  · next n f hf =>
    refine (Aside.fans_put (fanOf_mem hf) _).trans (applyFanFlags_aside ?_ _)
    exact Table.mem_keys_of_find (Table.find_put_same _ _ _)

theorem fanUnreached_aside (segment address : Nat) (s : State) : Aside s (fanUnreached segment address s) := by
  unfold fanUnreached
  split
  · exact .refl s
  · next n f hf =>
    split
    · exact .refl s
    · exact fanDown_aside (fanOf_mem hf) _

/-- Demand steps settled are stored, and the fans' targets follow (R102). -/
theorem settleDemand_aside (zs : List Nat) (s : State) : Aside (storeDemand zs s) (settleDemand zs s) :=
  retargetZones_aside _ _

theorem settleZone_aside (n : Nat) (s : State) : Aside s (settleZone n s) :=
  ((retargetZones_aside _ s).trans (gate_aside _)).trans (settleLampsOf_aside _ _)

theorem changeFans_aside {f : State → State} (zs : List Nat) (h : Aside s (f s)) : Aside s (changeFans zs f s) :=
  (h.trans (retargetZones_aside _ _)).trans (gate_aside _)

/-! ### Signs and lamps -/

theorem signs_upd_aside (n : Nat) (f : Sign → Sign) (s : State) : Aside s (s.setSigns (s.signs.upd n f)) :=
  .of_signs (by simp (disch := decide)) (by rw [State.setSigns_signs]; exact .upd _ _ _)

theorem showDirection_aside (sign : Option Nat) (z : Nat) (s : State) : Aside s (showDirection sign z s) := by
  unfold showDirection
  repeat' split
  · exact .refl s
  · exact .refl s
  · exact signs_upd_aside _ _ s

theorem showFull_aside (sign : Option Nat) (s : State) : Aside s (showFull sign s) := by
  unfold showFull
  split
  · exact .refl s
  · exact signs_upd_aside _ _ s

theorem signReport_aside (segment address : Nat) (payload : List Byte) (s : State) :
    Aside s (signReport segment address payload s) := by
  unfold signReport
  split
  · exact signs_upd_aside _ _ s
  · exact .refl s

theorem lamps_put_aside {n : Nat} (h : n ∈ s.lamps.keys ∨ n < Config.lampSlots) (g : LampGroup) :
    Aside s (s.setLamps (s.lamps.put n g)) :=
  .of_lamps (by simp (disch := decide)) (h.elim (fun h => .put_mem h g) fun h => .put_new _ g h)

theorem putGroup_aside {n : Nat} (h : n ∈ s.lamps.keys ∨ n < Config.lampSlots) (g : LampGroup) :
    Aside s (putGroup n g s) := (lamps_put_aside h g).trans (settleLamp_aside _ _)

theorem groupReport_aside (n : Nat) (g : LampGroup) (level failed flags : Byte) (s : State) :
    Aside s (groupReport n g level failed flags s) := by
  have observed : Aside s (s.setLamps (s.lamps.upd n (LampGroup.observe s.partTime level failed flags))) :=
    .of_lamps (by simp (disch := decide)) (by rw [State.setLamps_lamps]; exact .upd _ _ _)
  have motion (c : Bool) (u : State) : Aside u (if c then presence g.zone u else u) := by
    split
    exacts [presence_aside _ _, .refl u]
  have fault (c : Prop) [Decidable c] (x : Nat) (u : State) : Aside u (if c then raiseLampFault n g.zone x u else u) := by
    split
    exacts [raise_aside _ _ _ _, .refl u]
  exact (observed.trans (motion _ _)).trans (fault _ _ _)

theorem thresholdFaults_aside (old new : Nat) (s : State) : Aside s (thresholdFaults old new s) :=
  .foldl (fun s p => by split; exacts [raise_aside _ _ _ _, .refl s]) _ s

/-! ### Passages and their entry signs -/

theorem passages_upd_aside (n : Nat) (f : Passage → Passage) (s : State) :
    Aside s (s.setPassages (s.passages.upd n f)) :=
  .of_passages (by simp (disch := decide)) (by rw [State.setPassages_passages]; exact .upd _ _ _)

theorem entryFull_aside (p : Nat) (r : Passage) (s : State) : Aside s (entryFull p r s) :=
  ((countPassage_aside _ _ s).trans (showFull_aside _ _)).trans (raise_aside _ _ _ _)

theorem steerFull_aside (p : Nat) (r : Passage) (s : State) : Aside s (steerFull p r s).2 :=
  (countPassage_aside _ _ s).trans (raise_aside _ _ _ _)

theorem afterSteer_aside (p z : Nat) (s : State) : Aside s (afterSteer p z s) :=
  ((countPassage_aside _ _ s).trans (presence_aside _ _)).trans (passages_upd_aside _ _ _)

theorem reversePassage_aside (p : Nat) (r : Passage) (c : VehicleClass) (s : State) : Aside s (reversePassage p r c s) := by
  unfold reversePassage
  split
  exacts [.refl s, raise_aside _ _ _ _]

/-! ### Attention, segments, quiet control and heads -/

theorem raiseAll_aside (rs : List Raise) (s : State) : Aside s (raiseAll rs s) :=
  .foldl (fun s _ => raise_aside _ _ _ s) rs s

theorem raiseFire_aside (cause : FireCause) (s : State) (z : Nat) : Aside s (raiseFire cause s z) := by
  unfold raiseFire
  split
  exacts [.refl s, raise_aside _ _ _ _]

theorem putSegment_aside (i : Nat) (g : Segment) (s : State) : Aside s (s.putSegment i g) :=
  .of_unread (by simp (disch := decide))

theorem forSegments_aside (f : State → Nat → Segment → Segment) (s : State) : Aside s (forSegments f s) :=
  .foldl (fun s _ => putSegment_aside _ _ s) _ s

theorem walkSegment_aside (i : Nat) (s : State) : Aside s (walkSegment i s) := putSegment_aside _ _ s

theorem setQuiet_aside (q : Quiet) (s : State) : Aside s (s.setQuiet q) := .of_unread (by simp (disch := decide))

theorem leaveWarmSet_aside (key : Nat) (s : State) : Aside s (leaveWarmSet key s) := setQuiet_aside _ s

theorem joinWarmSet_aside (key : Nat) (s : State) : Aside s (joinWarmSet key s) := setQuiet_aside _ s

theorem flipToggle_aside (segment address : Nat) (s : State) : Aside s (flipToggle segment address s) :=
  .of_heads (by simp (disch := decide)) (by rw [flipToggle, State.setHeads_heads]; exact .upd _ _ _)

theorem headBack_aside (segment address : Nat) (h : Head) (s : State) : Aside s (headBack segment address h s) := by
  unfold headBack
  split
  exacts [raise_aside _ _ _ _, .refl s]

theorem head_mem {segment address : Nat} {h : Head} (hh : s.head segment address = some h) :
    headKey segment address ∈ s.heads.keys := Table.mem_keys_of_find hh

theorem pollSign_aside (segment address : Nat) (h : Head) (s : State) : Aside s (pollSign segment address h s) := by
  unfold pollSign
  split
  · split
    · exact .refl s
    · next n r hn =>
      have mem : n ∈ s.signs.keys := List.mem_map.2 ⟨_, List.mem_of_find?_eq_some hn, rfl⟩
      exact .of_signs (by simp (disch := decide)) (.put_mem mem _)
  · exact .refl s

theorem sendPoll_aside {segment address : Nat} {h : Head} (hh : s.head segment address = some h) (todo : List Nat)
    (g : Segment) : Aside s (sendPoll segment address todo g h s) := by
  have heads : (pollSign segment address h s).heads = s.heads :=
    (pollSign_frame (by decide) segment address h (t := s)).2 (.refl [.signs] s) .heads (by decide)
  exact ((pollSign_aside segment address h s).trans (.heads_put (heads ▸ head_mem hh) _)).trans (putSegment_aside _ _ _)

theorem pollNext_aside (segment : Nat) (s : State) : Aside s (pollNext segment s) := by
  unfold pollNext
  dsimp only
  split
  · split
    · exact walkSegment_aside segment s
    · next h hh => exact (walkSegment_aside segment s).trans (sendPoll_aside hh _ _)
  · exact walkSegment_aside segment s

end Sys2Proof.Machine
end

section
/-!
SUPPORT. Chains of changes: of the zone records and the device state, of bays and heads, of passages and reports.
-/
namespace Sys2Proof.Machine

variable {ok : Nat → Prop} {conf : Prop} {s t u : State}

/-! ### The steer slots under a change -/

theorem Slots.minor (h : Minor ok s t) (hs : Slots ok s) : Slots ok t := by
  obtain ⟨all, keys⟩ := hs
  refine ⟨all, fun k hk => ?_⟩
  cases h with
  | aside h => exact keys k (h.steers ▸ hk)
  | bay g f => exact keys k (changeBay_steers g f s ▸ hk)
  | steers h => exact (h.slots k hk).elim (keys k) id

theorem Slots.minors (h : Minors ok s t) (hs : Slots ok s) : Slots ok t := h.keeps (fun _ _ => Slots.minor) hs

theorem Slots.change (h : Change ok conf s t) (hs : Slots ok s) : Slots ok t := by
  have of_eq {u : State} (e : u.steers = s.steers) : Slots ok u := ⟨hs.1, fun k hk => hs.2 k (e ▸ hk)⟩
  have of_nil {u : State} (e : u.steers = []) : Slots ok u :=
    ⟨hs.1, fun k hk => by rw [e] at hk; exact absurd hk List.not_mem_nil⟩
  cases h with
  | minor h => exact hs.minor h
  | @zones dev d g f v _ _ hv => exact (of_eq (u := refreshGuidance g v) hv.steers).minors (redirectPass_minors _ _)
  | add => exact of_eq rfl
  | replace => exact of_eq (replaceZone_same .steers (by decide))
  | remove => exact of_eq rfl
  | restart => exact of_nil (softRestart_steers s)
  | cold => exact of_nil rfl

theorem Slots.changes (h : Changes ok conf s t) (hs : Slots ok s) : Slots ok t := h.keeps (fun _ _ => Slots.change) hs

/-- A fold of changes that rest on the steer slots. -/
theorem Changes.foldl_slots {α : Type} {f : State → α → State} (h : ∀ s x, Slots ok s → Changes ok conf s (f s x))
    (l : List α) (s : State) (hs : Slots ok s) : Changes ok conf s (l.foldl f s) := by
  induction l generalizing s with
  | nil => exact .refl
  | cons x l ih => exact (h s x hs).trans (ih _ (hs.changes (h s x hs)))

/-! ### Zone records alone, and the device state -/

/-- Zone records that keep what their guidance and demand derive from. -/
theorem Changes.zoneRecords {f : Nat → Zone → Zone}
    (h : ∀ q ∈ s.zones, ZoneMoved s.device s.device [] [] q.1 q.2 (f q.1 q.2)) :
    Changes ok conf s (s.setZones (s.zones.mapWith f)) := by
  have step := Change.zones (ok := ok) (conf := conf) (s := s) (dev := s.device) (d := []) (g := []) (f := f)
    (v := s.setZones (s.zones.mapWith f)) id h (by rw [storeDemand_nil]; exact .refl _)
  rw [deriveAndRedirect_nil] at step
  exact .single step

/-- The device state, with the guidance states of a list derived again. -/
theorem Changes.device {dev : DeviceState} {g : List Nat} (hdev : dev = .unconfigured → s.device = .unconfigured)
    (guided : ∀ q ∈ s.zones, q.1 ∈ g ∨ deriveGuidance dev q.2 = deriveGuidance s.device q.2)
    (hv : Aside (s.setDevice dev) t) : Changes ok conf s (deriveAndRedirect g t) := by
  refine .single (.zones (d := []) (f := fun _ z => z) hdev (fun q hq => ?_) ?_)
  · exact ⟨rfl, rfl, rfl, rfl, guided q hq, .inr ⟨rfl, .rfl⟩, id⟩
  · rw [storeDemand_nil, Table.mapWith_self]
    exact hv

/-- The device state, with every guidance state derived again. -/
theorem Changes.deviceAll {dev : DeviceState} (hdev : dev = .unconfigured → s.device = .unconfigured)
    (hv : Aside (s.setDevice dev) t) : Changes ok conf s (deriveAndRedirect t.zones.keys t) := by
  refine Changes.device hdev (fun q hq => .inl ?_) hv
  rw [hv.zones]
  exact List.mem_map.2 ⟨q, hq, rfl⟩

/-- All the device states that guide derive the same guidance states (R10). -/
theorem deriveGuidance_guides {dev dev' : DeviceState} (h : dev.guides = true) (h' : dev'.guides = true) (z : Zone) :
    deriveGuidance dev z = deriveGuidance dev' z := by
  cases dev <;> cases dev' <;> simp_all [DeviceState.guides, deriveGuidance]

theorem Changes.guiding {dev : DeviceState} (h : s.device.guides = true) (h' : dev.guides = true)
    (hv : Aside (s.setDevice dev) t) : Changes ok conf s t := by
  have step := Changes.device (ok := ok) (conf := conf) (g := []) (fun e => by simp [e, DeviceState.guides] at h')
    (fun q _ => .inr (deriveGuidance_guides h' h q.2)) hv
  rwa [deriveAndRedirect_nil] at step

/-- An update of one zone's record. -/
theorem Changes.updZone {z : Nat} {f : Zone → Zone}
    (h : ∀ r, s.zone z = some r → ZoneMoved s.device s.device [] [] z r (f r)) (wf : s.zones.wf = true) :
    Changes ok conf s (s.updZone z f) := by
  refine Changes.zoneRecords fun q hq => ?_
  split
  · next e =>
    subst e
    exact h _ (Table.find_of_mem wf hq)
  · exact .refl _ _ _ _ _

theorem creditAir_changes (z amount : Nat) (s : State) : Changes ok conf s (creditAir z amount s) := by
  refine Changes.zoneRecords fun q _ => ?_
  dsimp only
  split
  · exact ⟨rfl, rfl, rfl, rfl, .inr rfl, .inr ⟨rfl, .rfl⟩, id⟩
  · exact .refl _ _ _ _ _

/-! ### Quiet hours and the end of STARTING (R154, R157, R174) -/

theorem raiseQuietChange_aside (zones : List Nat) (detail : List Byte) (s : State) :
    Aside s (raiseQuietChange zones detail s) := raise_aside _ _ _ s

/-- A guiding device state entered with a change of quiet control, its lamps settled and QUIET_CHANGE raised. -/
theorem Changes.quietChange {dev : DeviceState} {q : Quiet} {zones : List Nat} {detail : List Byte}
    (h : s.device.guides = true) (h' : dev.guides = true) (hv : Aside ((s.setQuiet q).setDevice dev) t) :
    Changes ok conf s (raiseQuietChange zones detail (settleAllLamps t)) :=
  (Changes.of_aside (setQuiet_aside q s)).trans <| Changes.guiding (dev := dev) h h' <|
    (hv.trans (settleAllLamps_aside t)).trans (raiseQuietChange_aside zones detail _)

theorem enterWarming_changes (cause : WakeCause) (zones : List Nat) (h : s.device.guides = true) :
    Changes ok conf s (enterWarming cause zones s) :=
  Changes.quietChange h rfl (forSegments_aside _ _)

theorem wakeEvent_changes (cause : WakeCause) (zones : List Nat) (s : State) :
    Changes ok conf s (wakeEvent cause zones s) := by
  unfold wakeEvent
  split
  · next h => exact enterWarming_changes _ _ (by rw [h]; rfl)
  · exact .refl

theorem endWarming_changes (s : State) : Changes ok conf s (endWarming s) := by
  unfold endWarming
  split
  · next h =>
    have warming : s.device = .warming := by simp_all
    have aside := (setQuiet_aside { s.quiet with warmUntil := none } (s.setDevice .running)).trans
      ((settleAllLamps_aside _).trans (raiseQuietChange_aside [] (u8 quietWarmDone) _))
    exact Changes.guiding (dev := .running) (by rw [warming]; rfl) rfl aside
  · exact .refl

theorem enterQuiet_changes (mode : QuietMode) (h : s.device.guides = true) : Changes ok conf s (enterQuiet mode s) :=
  Changes.quietChange h rfl (.refl _)

theorem takeQuiet_changes (mode : QuietMode) (h : s.device.guides = true) : Changes ok conf s (takeQuiet mode s) := by
  unfold takeQuiet
  split
  · exact enterWarming_changes _ _ h
  · exact enterQuiet_changes _ h

theorem endStarting_changes (s : State) : Changes ok conf s (endStarting s) := by
  unfold endStarting
  split
  · exact Changes.aside (Changes.deviceAll (dev := .running) nofun (.refl _)) (settleAllLamps_aside _)
  · exact .refl

/-- GO starts the part (R185). -/
theorem start_changes (s : State) : Changes ok conf s (start s) := by
  let u := forSegments (fun _ _ _ => Segment.restarted)
    ((s.setStartTime s.partTime).setNextEvaluation (some (s.partTime + evaluationInterval)))
  have begun : Aside s u := Aside.trans (.of_unread (by simp (disch := decide))) (forSegments_aside _ _)
  have started : Aside (u.setDevice .starting) (takeUpFire (enterStarting s)) := takeUpFire_aside _
  have device : Changes ok conf u (deriveAndRedirect _ (takeUpFire (enterStarting s))) :=
    Changes.deviceAll (dev := .starting) nofun started
  rw [start]
  exact Changes.aside ((Changes.of_aside begun).trans device) (settleAllLamps_aside _)

end Sys2Proof.Machine
end

section
/-!
SUPPORT. Chains of changes: passages and entry guidance (R52 to R58), bays following their sensors (R27 to R35), heads and
the end of an exchange (R160 to R175).
-/
namespace Sys2Proof.Machine

variable {ok : Nat → Prop} {conf : Prop} {s t u : State}

/-! ### Passages (R52 to R58) -/

theorem guides_ne_unconfigured {dev : DeviceState} (h : dev.guides = true) : dev ≠ .unconfigured := by
  rintro rfl
  simp [DeviceState.guides] at h

/-- A steer issued into a slot that was taken for it, to a zone of the choice (R56, R57, R59). -/
theorem issueTaken_minors {id z : Nat} {x : Steer} {l : List Nat} {k : BayKind} {long : Bool} (hok : Slots ok s)
    (hdev : s.device.guides = true) (hz : zoneChoice s l k long [] = some z) (hslot : takeSlot s = some (id, t))
    (hu : Minors ok t u) (steers : u.steers = t.steers) (target : x.target = z) : Minors ok s (issueSteer id x u) := by
  obtain ⟨_, _, r, hr, hopen⟩ := zoneChoice_some hz
  obtain ⟨hid, free, ht⟩ := takeSlot_free hok hslot
  have hsu : Minors ok s u := ht.trans hu
  obtain ⟨c, hc⟩ := hsu.zone hr
  refine hsu.trans (issueSteer_minors (z := { r with counts := c }) hid (by rw [steers]; exact free) ?_
    (by rw [target]; exact hc) hopen)
  rw [hsu.device]
  exact guides_ne_unconfigured hdev

theorem entryGuidance_minors (p : Nat) (r : Passage) (c : VehicleClass) (hok : Slots ok s) :
    Minors ok s (entryGuidance p r c s) := by
  unfold entryGuidance
  split
  · exact .refl
  · next hdev =>
    split
    · exact Minors.of_aside (passages_upd_aside _ _ s)
    · split
      · exact Minors.of_aside (entryFull_aside _ _ s)
      · next z hz =>
        split
        · exact Minors.of_aside (entryFull_aside _ _ s)
        · next id u hslot =>
          have issued : Minors ok s (issueSteer id (entrySteer u p z c) u) :=
            issueTaken_minors hok (by simpa using hdev) hz hslot .refl rfl rfl
          exact Minors.aside issued
            (((countPassage_aside _ _ _).trans (showDirection_aside _ _ _)).trans (presence_aside _ _))

theorem creditPassage_changes (z : Option Nat) (c : VehicleClass) (s : State) :
    Changes ok conf s (creditPassage z c s) := by
  unfold creditPassage
  split
  · exact .refl
  · exact Changes.aside (creditAir_changes _ _ s) (presence_aside _ _)

theorem forwardPassage_changes (p : Nat) (r : Passage) (c : VehicleClass) (hok : Slots ok s) :
    Changes ok conf s (forwardPassage p r c s) := by
  have guided : Changes ok conf s (if r.config.kind = .entry then entryGuidance p r c s else s) := by
    split
    · exact Changes.of_minors (entryGuidance_minors p r c hok)
    · exact .refl
  have woken (b : Bool) (zs : List Nat) (u : State) : Changes ok conf u (if b then wakeEvent .passage zs u else u) := by
    split
    · exact wakeEvent_changes _ _ u
    · exact .refl
  exact guided.trans (woken _ _ _)

theorem takePassage_changes (p : Nat) (gap : Int) (occupancy : Nat) (hok : Slots ok s) :
    Changes ok conf s (takePassage p gap occupancy s) := by
  unfold takePassage
  split
  · exact .refl
  · next r hr =>
    dsimp only
    have taken (x : Passage) : Aside s (s.setPassages (s.passages.put p x)) :=
      .of_passages (by simp (disch := decide)) (.put_found hr x)
    have credited (x : Passage) (z : Option Nat) (c : VehicleClass) :
        Changes ok conf s (creditPassage z c (s.setPassages (s.passages.put p x))) :=
      (Changes.of_aside (taken x)).trans (creditPassage_changes z c _)
    split
    · exact (credited _ _ _).trans (forwardPassage_changes _ _ _ (hok.changes (credited _ _ _)))
    · exact Changes.aside (credited _ _ _) (reversePassage_aside _ _ _ _)

theorem loopReport_changes (segment address : Nat) (payload : List Byte) (hok : Slots ok s) :
    Changes ok conf s (loopReport segment address payload s) := by
  unfold loopReport
  split
  · next p r overflow rest _ =>
    have counted := countPassage_aside p (fun c => { c with overflow := c.overflow + overflow.zeroExtend 16 }) s
    refine (Changes.of_aside counted).trans (Changes.foldl_slots (fun u x hu => takePassage_changes p x.1 x.2 hu) _ _ ?_)
    exact hok.minors (.of_aside counted)
  · exact .refl

/-! ### Bays (R27 to R35) -/

theorem departure_changes (g : Nat) (s : State) : Changes ok conf s (departure g s) := by
  unfold departure
  split
  · exact .refl
  · exact Changes.aside ((Changes.of_minors (.bay _ _ s)).trans (creditAir_changes _ _ _)) (presence_aside _ _)

theorem applyRaw_changes (g : Nat) (raw : Raw) (s : State) : Changes ok conf s (applyRaw g raw s) := by
  have bay (f : Bay → Bay) : Changes ok conf s (changeBay g f s) := Changes.of_minors (.bay g f s)
  have ite (c : Bool) {v : State} (h : Changes ok conf s v) : Changes ok conf s (if c then v else s) := by
    split
    · exact h
    · exact .refl
  unfold applyRaw
  split
  · exact .refl
  · split
    · exact .refl
    · exact Changes.of_minors (changeBayEnding_minors _ _ _ s)
    · exact bay _
    · exact ite _ (Changes.of_minors (arrival_minors g s))
    · exact .refl
    · exact bay _
    · exact .refl
    · exact bay _
    · exact bay _
    · exact ite _ (departure_changes g s)
    · exact bay _
    · exact bay _

theorem takeRaw_changes (payload : List Byte) (s : State) (p : Nat × Bay) : Changes ok conf s (takeRaw payload s p) := by
  unfold takeRaw
  split
  · exact .refl
  · split
    · exact applyRaw_changes _ _ s
    · exact .refl

theorem bayReport_changes (segment address : Nat) (payload : List Byte) (s : State) :
    Changes ok conf s (bayReport segment address payload s) := Changes.foldl (takeRaw_changes payload) _ s

theorem baysUnsensed_minors (segment address : Nat) (s : State) : Minors ok s (baysUnsensed segment address s) :=
  Minors.foldl (fun s _ => changeBayEnding_minors _ _ _ s) _ s

theorem hostSet_changes (g : Nat) (b : Bay) (present : Bool) (s : State) : Changes ok conf s (hostSet g b present s) := by
  unfold hostSet
  repeat' split
  · exact .refl
  · exact Changes.of_minors (.bay _ _ s)
  · exact Changes.of_minors (.bay _ _ s)
  · exact Changes.of_minors (arrival_minors g s)
  · exact departure_changes g s

/-! ### Heads (R165 to R175) -/

theorem headGone_minors (segment address : Nat) (s : State) : Minors ok s (headGone segment address s) :=
  Minors.aside (baysUnsensed_minors segment address s) (fanUnreached_aside _ _ _)

theorem loseHead_minors {segment address : Nat} (h : headKey segment address ∈ s.heads.keys) (x : Head) :
    Minors ok s (loseHead segment address x s) := by
  have lost := Aside.heads_put h { x with state := .lost, lostSince := some s.partTime }
  exact (Minors.of_aside (lost.trans (raise_aside _ _ _ _))).trans (headGone_minors _ _ _)

theorem missHead_minors (segment address : Nat) (s : State) : Minors ok s (missHead segment address s) := by
  unfold missHead
  split
  · exact .refl
  · next h hh =>
    dsimp only
    split
    · exact loseHead_minors (head_mem hh) _
    · exact Minors.of_aside (.heads_put (head_mem hh) _)

theorem mismatchHead_minors {segment address : Nat} {h : Head} (hh : s.head segment address = some h) (r : Response) :
    Minors ok s (mismatchHead segment address h r s) := by
  have stored (x : Head) : Aside s (s.setHeads (s.heads.put (headKey segment address) x)) := .heads_put (head_mem hh) x
  unfold mismatchHead
  dsimp only
  split
  · exact Minors.of_aside (stored _)
  · exact (Minors.of_aside ((stored _).trans (raise_aside _ _ _ _))).trans (headGone_minors _ _ _)

theorem lampReport_changes (segment address : Nat) (wake : Bool) (payload : List Byte) (s : State) :
    Changes ok conf s (lampReport segment address wake payload s) := by
  unfold lampReport
  split
  · next level failed flags =>
    have reported (o : Option (Nat × LampGroup)) : Aside s
        (match o with | none => s | some (n, g) => groupReport n g level failed flags s) := by
      cases o with
      | none => exact .refl s
      | some p => exact groupReport_aside _ _ _ _ _ s
    have woken (c : Bool) (zs : List Nat) (u : State) : Changes ok conf u (if c then wakeEvent .motion zs u else u) := by
      split
      · exact wakeEvent_changes _ _ u
      · exact .refl
    exact (Changes.of_aside (reported _)).trans (woken _ _ _)
  · exact .refl

theorem handReport_changes (segment address : Nat) (h : Head) (payload : List Byte) (hok : Slots ok s) :
    Changes ok conf s (handReport segment address h payload s) := by
  unfold handReport
  split
  · exact bayReport_changes _ _ _ s
  · exact .refl
  · exact Changes.aside (loopReport_changes _ _ _ hok) (flipToggle_aside _ _ _)
  · exact Changes.of_aside (fanReport_aside _ _ _ s)
  · exact lampReport_changes _ _ _ _ s
  · exact Changes.of_aside (signReport_aside _ _ _ s)

theorem acceptHead_changes {segment address : Nat} {h : Head} (hh : s.head segment address = some h) (r : Response)
    (hok : Slots ok s) : Changes ok conf s (acceptHead segment address h r s) := by
  have stored := (Aside.heads_put (head_mem hh) (h.accepted s.partTime r)).trans (headBack_aside segment address h _)
  exact (Changes.of_aside stored).trans (handReport_changes _ _ _ _ (hok.minors (.of_aside stored)))

theorem answerHead_changes (segment address : Nat) (r : Response) (hok : Slots ok s) :
    Changes ok conf s (answerHead segment address r s) := by
  unfold answerHead
  split
  · exact .refl
  · next h hh =>
    split
    · exact acceptHead_changes hh r hok
    · exact Changes.of_minors (mismatchHead_minors hh r)

/-- An exchange ends (R160). -/
theorem endExchange_changes (segment : Nat) (x : Exchange) {settle : State → State} (hok : Slots ok s)
    (h : ∀ u, Slots ok u → Changes ok conf u (settle u)) : Changes ok conf s (endExchange segment x settle s) := by
  have freed := putSegment_aside segment { s.segment segment with exchange := none } s
  have polled (b : Bool) (u : State) : Aside u (warmPolled segment x b u) := by
    unfold warmPolled
    split
    exacts [leaveWarmSet_aside _ u, .refl u]
  unfold endExchange
  dsimp only
  split
  · exact Changes.of_aside freed
  · have settled := (Changes.of_aside (ok := ok) (conf := conf) freed).trans (h _ (hok.minors (.of_aside freed)))
    have walked := Changes.aside settled ((polled (s.device = .warming) _).trans (walkSegment_aside segment _))
    exact walked.trans ((endWarming_changes _).trans (endStarting_changes _))

theorem headKey_inLane {segment address : Nat} (h : laneInRange segment address = true) :
    KeyInLane (headKey segment address) := by
  simp only [laneInRange, Bool.and_eq_true, decide_eq_true_eq] at h
  have seg : keySegment (headKey segment address) = segment := by
    simp only [keySegment, headKey]
    omega
  have addr : keyAddress (headKey segment address) = address := by
    simp only [keyAddress, headKey]
    omega
  simp [KeyInLane, laneInRange, seg, addr, h]

theorem configureHead_changes {segment address : Nat} (h : laneInRange segment address = true) (kind : HeadKind)
    (wake : Bool) (s : State) : Changes ok conf s (configureHead segment address kind wake s) := by
  have stored : Aside s (s.setHeads (s.heads.put (headKey segment address) (Head.listed kind wake))) :=
    .of_heads (by simp (disch := decide)) (.put_new _ _ (headKey_inLane h))
  have warm (c : Prop) [Decidable c] (u : State) :
      Aside u (if c then joinWarmSet (headKey segment address) u else u) := by
    split
    exacts [joinWarmSet_aside _ u, .refl u]
  have gone : Minors ok s _ := (Minors.of_aside stored).trans (headGone_minors segment address _)
  exact (Changes.of_minors (Minors.aside gone ((warm _ _).trans (putSegment_aside segment _ _)))).trans
    (endStarting_changes _)

theorem removeHead_changes (segment address : Nat) (s : State) : Changes ok conf s (removeHead segment address s) := by
  have removed : Aside s (s.setHeads (s.heads.del (headKey segment address))) :=
    .of_heads (by simp (disch := decide)) (.del _ _)
  exact (Changes.of_aside ((removed.trans (leaveWarmSet_aside _ _)).trans (putSegment_aside segment _ _))).trans
    ((endWarming_changes _).trans (endStarting_changes _))

theorem loseLate_minors (s : State) (key : Nat) : Minors ok s (loseLate s key) := by
  unfold loseLate
  split
  · exact .refl
  · next h hh =>
    split
    · refine loseHead_minors ?_ h
      have : headKey (keySegment key) (keyAddress key) = key := by
        simp only [headKey, keySegment, keyAddress]
        omega
      rw [this]
      exact Table.mem_keys_of_find hh
    · exact .refl

theorem setLost_minors (v : Nat) (s : State) : Minors ok s (setLost v s) := by
  have set : Aside s (s.setLostTime v) := .of_unread (by simp (disch := decide))
  unfold setLost
  dsimp only
  split
  · exact (Minors.of_aside set).trans (Minors.foldl loseLate_minors _ _)
  · exact Minors.of_aside set

end Sys2Proof.Machine
end

section
/-!
SUPPORT. Chains of changes: fire (R139 to R146), override stacks (R133), the air evaluation (R77 to R92).
-/
namespace Sys2Proof.Machine

variable {ok : Nat → Prop} {conf : Prop} {s t u v : State}

/-! ### Zone records moved, handed on -/

/-- What lies beside the zone records does not meet the demand steps stored in them. -/
theorem Aside.storeDemand (h : Aside s t) (d : List Nat) : Aside (storeDemand d s) (storeDemand d t) where
  frame f hf := by
    by_cases e : f = .zones
    · subst e
      show (Machine.storeDemand d t).zones = (Machine.storeDemand d s).zones
      simp only [Machine.storeDemand, State.setZones_zones, h.zones]
    · have left := (storeDemand_frame (by decide) d (t := s)).2 (.refl [.zones] s) f (by simpa using e)
      have right := (storeDemand_frame (by decide) d (t := t)).2 (.refl [.zones] t) f (by simpa using e)
      exact (left.symm.trans (h.frame f hf)).trans right
  passages := h.passages
  signs := h.signs
  fans := h.fans
  lamps := h.lamps
  heads := h.heads

/-- Zone records moved, their demand steps settled where they are in `d`, then their guidance states derived where they are
in `g`, with changes beside them between. -/
theorem Changes.zonesMoved {f : Nat → Zone → Zone} {d g : List Nat}
    (h : ∀ q ∈ s.zones, ZoneMoved s.device s.device d g q.1 q.2 (f q.1 q.2))
    (hu : Aside (s.setZones (s.zones.mapWith f)) u) (hv : Aside (storeDemand d u) v) :
    Changes ok conf s (deriveAndRedirect g v) :=
  .single (.zones (dev := s.device) id h ((hu.storeDemand d).trans hv))

/-! ### Fire (R139 to R146) -/

/-- A zone record under a fire move: what derives from its fire state follows where that changes (R145). -/
theorem ZoneMoved.withFire (dev : DeviceState) (move : Nat → Zone → FireMove) (s : State) {q : Nat × Zone}
    (hq : q ∈ s.zones) :
    ZoneMoved dev dev (fireChanges move s) (fireChanges move s) q.1 q.2 (q.2.withFire (move q.1 q.2)) := by
  have changed : q.1 ∈ fireChanges move s ∨ (move q.1 q.2).fire = q.2.fire := by
    by_cases e : (move q.1 q.2).fire = q.2.fire
    · exact .inr e
    · exact .inl (List.mem_map.2 ⟨q, List.mem_filter.2 ⟨hq, by simpa using e⟩, rfl⟩)
  exact ⟨rfl, rfl, rfl, rfl, changed.imp_right fun e => by simp [deriveGuidance, Zone.withFire, e],
    changed.imp_right fun e => by simp [demandStep, Zone.withFire, e], id⟩

theorem moveFire_changes (cause : FireCause) (move : Nat → Zone → FireMove) (s : State) :
    Changes ok conf s (moveFire cause move s) := by
  have raised : Aside (storeFire move s) ((fireChanges move s).foldl (raiseFire cause) (storeFire move s)) :=
    .foldl (raiseFire_aside cause) _ _
  refine Changes.zonesMoved (fun q hq => ZoneMoved.withFire s.device move s hq) raised ?_
  exact (((settleDemand_aside _ _).trans (retargetZones_aside _ _)).trans (gate_aside _)).trans (settleLampsOf_aside _ _)

theorem activateFire_changes (s : State) : Changes ok conf s (activateFire s) := by
  have line : Aside s (s.setFireLine (s.fireLine.settle true)) := .of_unread (by simp (disch := decide))
  have moved := (Changes.of_aside line).trans (moveFire_changes (ok := ok) (conf := conf) .line activationMove _)
  unfold activateFire
  dsimp only
  split
  · exact moved
  · exact moved.trans (wakeEvent_changes _ _ _)

theorem releaseFire_changes (s : State) : Changes ok conf s (releaseFire s) :=
  (Changes.of_aside (.of_unread (by simp (disch := decide)))).trans (moveFire_changes _ _ _)

/-! ### Override stacks (R132 to R137) -/

/-- A zone record under a new stack: what derives from its settings follows where they change (R133). -/
theorem ZoneMoved.withStack (dev : DeviceState) (n : Nat) (z : Zone) {stack : List StackEntry} {d g : List Nat}
    (steps : (∀ e ∈ z.stack, e.vent.stepInRange = true) → ∀ e ∈ stack, e.vent.stepInRange = true)
    (vents : n ∈ d ∨ (effectiveVent stack = effectiveVent z.stack ∧ ventLevel stack = ventLevel z.stack))
    (guides : n ∈ g ∨ effectiveGuide stack = effectiveGuide z.stack) :
    ZoneMoved dev dev d g n z { z with stack := stack } where
  config := rfl
  counts := rfl
  guidance := rfl
  demand := rfl
  guided := guides.imp_right fun e => by simp [deriveGuidance, e]
  driven := vents.imp_right fun ⟨e, l⟩ => by simp [demandStep, e, l]
  steps := fun ⟨floor, auto, base, quiet, blind, entries⟩ => ⟨floor, auto, base, quiet, blind, steps entries⟩

/-- A stack replaced (R133). -/
theorem changeStack_changes {z : Nat} {r : Zone} {stack : List StackEntry} (wf : s.zones.wf = true)
    (hr : s.zone z = some r)
    (steps : (∀ e ∈ r.stack, e.vent.stepInRange = true) → ∀ e ∈ stack, e.vent.stepInRange = true) :
    Changes ok conf s (changeStack z r stack s) := by
  let vents := effectiveVent stack ≠ effectiveVent r.stack ∨ ventLevel stack ≠ ventLevel r.stack
  let guides := effectiveGuide stack ≠ effectiveGuide r.stack
  let f : Nat → Zone → Zone := fun n x => if n = z then { x with stack := stack } else x
  let u := s.setZones (s.zones.mapWith f)
  have moved : ∀ q ∈ s.zones, ZoneMoved s.device s.device (if vents then [z] else []) (if guides then [z] else [])
      q.1 q.2 (f q.1 q.2) := by
    intro q hq
    by_cases e : q.1 = z
    · have own : q.2 = r := Option.some.inj ((Table.find_of_mem wf (show (z, q.2) ∈ s.zones from e ▸ hq)).symm.trans hr)
      simp only [f, if_pos e]
      refine ZoneMoved.withStack _ _ _ (by rw [own]; exact steps) ?_ ?_
      · by_cases hv : vents
        · simp [hv, e]
        · exact .inr (by simpa [vents, own, not_or] using hv)
      · by_cases hg : guides
        · simp [hg, e]
        · exact .inr (by simpa [guides, own] using hg)
    · simp only [f, if_neg e]
      exact .refl _ _ _ _ _
  have driven : Aside (storeDemand (if vents then [z] else []) u) (if vents then gate (settleDemand [z] u) else u) := by
    by_cases hv : vents
    · simp only [if_pos hv]
      exact (settleDemand_aside _ _).trans (gate_aside _)
    · simp only [if_neg hv, storeDemand_nil]
      exact .refl _
  have lit (c : Prop) [Decidable c] (w : State) : Aside w (if c then settleLampsOf [z] w else w) := by
    split
    exacts [settleLampsOf_aside _ w, .refl w]
  have step := Changes.zonesMoved (ok := ok) (conf := conf) moved (.refl u)
    (driven.trans (lit (effectiveLight stack ≠ effectiveLight r.stack) _))
  unfold changeStack
  dsimp only
  split
  · next hg =>
    rw [if_pos (show guides from hg)] at step
    exact step
  · next hg =>
    rw [if_neg (show ¬guides from hg), deriveAndRedirect_nil] at step
    exact step

/-! ### The air evaluation (R77 to R92) -/

theorem airPercent_le (level watch act : Nat) : airPercent level watch act ≤ 100 := by
  unfold airPercent
  split
  · omega
  · split
    · exact le_refl _
    · exact Nat.lt_succ_iff.1 (Nat.div_lt_of_lt_mul (by omega))

theorem autoStep_le (c : AirSettings) (a : ZoneAir) : autoStep c a ≤ 4 := by
  have co := airPercent_le (effectiveCO a) (c.watchCO * 256) (c.actCO * 256)
  have no := airPercent_le a.fNO (c.watchNO * 256) (c.actNO * 256)
  unfold autoStep
  omega

/-- The automatic demand of an evaluation stands at or above the floor and is at most 4 (R89, R90). -/
theorem autoDemand_bounds (c : AirSettings) (quiet : Bool) {z : ZoneConfig} (h : z.StepsFit) (a : ZoneAir) :
    airFloor a.state ≤ autoDemand c quiet z a ∧ autoDemand c quiet z a ≤ 4 := by
  obtain ⟨base, quietBase, blind⟩ := h
  have step := autoStep_le c a
  have floor : airFloor a.state ≤ demandFloor quiet z a.state := by cases a.state <;> simp [airFloor, demandFloor]
  have top : demandFloor quiet z a.state ≤ 4 := by
    cases a.state <;> simp only [demandFloor] <;> (try split) <;> omega
  exact ⟨floor.trans (le_max_right _ _), max_le step top⟩

theorem wakeByAir_changes (s : State) : Changes ok conf s (wakeByAir s) := by
  unfold wakeByAir
  dsimp only
  split
  · exact .refl
  · exact wakeEvent_changes _ _ _

theorem airEvaluation_changes (s : State) : Changes ok conf s (airEvaluation s) := by
  let u := raiseAll (zonesRaises s) (evaluateZones s)
  let v := u.setNextEvaluation (u.nextEvaluation.map (· + evaluationInterval))
  have noted : Aside (evaluateZones s) v :=
    (raiseAll_aside _ _).trans (.of_unread ((State.setNextEvaluation_frame (by decide) _).2 (.refl _ u)))
  have keys : v.zones.keys = s.zones.keys := by
    rw [noted.zones, evaluateZones, State.setZones_zones, Table.keys_mapWith]
  have handed : Changes ok conf s (handOnAir v) := by
    refine Changes.zonesMoved (fun q hq => ?_) noted
      (((settleDemand_aside _ _).trans (gate_aside _)).trans (settleLampsOf_aside _ _))
    have mem : q.1 ∈ v.zones.keys := keys ▸ List.mem_map.2 ⟨q, hq, rfl⟩
    refine ⟨rfl, rfl, rfl, rfl, .inl mem, .inl mem, fun ⟨_, _, base, quiet, blind, entries⟩ => ?_⟩
    obtain ⟨floor, top⟩ := autoDemand_bounds s.airSettings (s.device = .quiet) ⟨base, quiet, blind⟩ _
    exact ⟨floor, top, base, quiet, blind, entries⟩
  exact handed.trans (wakeByAir_changes _)

end Sys2Proof.Machine
end

section
/-!
SUPPORT. Chains of changes: what the accepted cases of a serving rule do (R181), the configuration of zones (R14 to R20).
-/
namespace Sys2Proof.Machine

variable {ok : Nat → Prop} {conf : Prop} {s t u : State}

/-! ### The accepted cases of a check -/

/-- Where a check goes on, its value has the property. -/
def Gives {α : Type} (P : α → Prop) (c : Check α) : Prop := ∀ a, c = .ok a → P a

namespace Gives

variable {α β : Type} {P : β → Prop}

theorem bind {x : Check α} {f : α → Check β} (h : ∀ a, x = .ok a → Gives P (f a)) : Gives P (x >>= f) := fun b hb => by
  obtain ⟨a, ha, hf⟩ := Check.bind_ok hb
  exact h a ha b hf

theorem pure {b : β} (h : P b) : Gives P (Pure.pure b : Check β) := fun _ e => by
  cases e
  exact h

theorem accepted {b : β} (h : P b) : Gives P (.ok b : Check β) := pure h

theorem error (r : Reply) : Gives P (.error r : Check β) := nofun

theorem ite {c : Prop} [Decidable c] {x y : Check β} (h : c → Gives P x) (k : ¬c → Gives P y) :
    Gives P (if c then x else y) := by
  split
  · exact h ‹_›
  · exact k ‹_›

end Gives

/-- The accepted cases of a serving rule make a chain of changes. -/
abbrev Makes (ok : Nat → Prop) (conf : Prop) (s : State) : Check Served → Prop := Gives fun p => Changes ok conf s p.2

theorem served_changes {c : Check Served} (h : Makes ok conf s c) : Changes ok conf s (served s c).2 := by
  cases c with
  | error r => exact .refl
  | ok p => exact h p rfl

theorem Makes.refl {r : Reply} : Makes ok conf s (.ok (r, s)) := Gives.accepted .refl

theorem respond_aside (tag : Half) (r : Reply) (s : State) : Aside s (respond tag r s) :=
  .of_unread (by simp (disch := decide) [respond])

theorem readOut_aside (n : Nat) (r : List Byte) (s : State) : Aside s (readOut n r s) := by
  unfold readOut
  dsimp only
  split
  all_goals exact .of_unread (by simp (disch := decide))

theorem received_aside (b : List Byte) (s : State) : Aside s (received b s) :=
  .of_unread (by simp (disch := decide))

/-- A request makes the changes of its serving rule (R179, R181). -/
theorem request_changes {m : Option Nat} {rule : Rule} {c : Byte} {g : Half} {b : List Byte}
    (h : Changes ok conf (received b s) (rule c.toNat b (received b s)).2) :
    Changes ok conf s (request m rule c g b s) := by
  have received := Changes.of_aside (ok := ok) (conf := conf) (received_aside b s)
  unfold request
  split
  · exact Changes.of_aside (readOut_aside _ _ s)
  · dsimp only
    split
    · exact received
    · split
      · exact Changes.aside received (respond_aside _ _ _)
      · split
        · exact Changes.aside received (respond_aside _ _ _)
        · exact Changes.aside (received.trans h) (respond_aside _ _ _)

/-! ### The configuration of zones (R14 to R20) -/

theorem needZone_ok {n : Nat} {z : Zone} (h : needZone n s = .ok z) : n < Config.zoneSlots ∧ s.zone n = some z := by
  obtain ⟨_, hn, hz⟩ := Check.bind_ok h
  exact ⟨of_decide_eq_true (require_ok.1 hn), need_ok.1 hz⟩

theorem needRecord_ok {α : Type} {slots n : Nat} {t : Table α} {x : α} (h : needRecord slots t n = .ok x) :
    n < slots ∧ t.find n = some x := by
  obtain ⟨_, hn, hx⟩ := Check.bind_ok h
  exact ⟨of_decide_eq_true (require_ok.1 hn), need_ok.1 hx⟩

theorem needHead_ok {segment address : Nat} {x : Head} (h : needHead segment address s = .ok x) :
    laneInRange segment address = true ∧ s.head segment address = some x := by
  obtain ⟨_, hn, hx⟩ := Check.bind_ok h
  exact ⟨require_ok.1 hn, need_ok.1 hx⟩

theorem needUnconfigured_ok {x : Unit} (h : needUnconfigured s = .ok x) : s.device = .unconfigured :=
  of_decide_eq_true (require_ok.1 h)

/-- The checks of R14 keep the ranges apart (R2, R14). -/
theorem needRange_ok {n : Nat} {c : ZoneConfig} {x : Unit} (h : needRange n c s = .ok x) : RangeFits n c s := by
  obtain ⟨_, _, h⟩ := Check.bind_ok h
  obtain ⟨_, bound, apart⟩ := Check.bind_ok h
  refine ⟨of_decide_eq_true (require_ok.1 bound), fun p hp ne => ?_⟩
  have := List.all_eq_true.1 (require_ok.1 apart) p hp
  simpa [ne] using this

/-- A zone's configuration replaced, its fire role kept. -/
theorem replaceZone_changes {n : Nat} {z : Zone} {c : ZoneConfig} (hz : s.zone n = some z)
    (fits : (z.config.bayBase = c.bayBase ∧ z.config.bayCount = c.bayCount) ∨ RangeFits n c s)
    (steps : z.config.StepsFit → c.StepsFit) (role : c.haltRole = z.config.haltRole) :
    Changes ok conf s (replaceZone n z c s) := by
  have step := Change.replace (ok := ok) (conf := conf) (d := []) hz fits steps (.inr (.inl role))
  rw [storeDemand_nil] at step
  exact .single step

/-- A zone's configuration set by a CONFIGURE (R6, R15). -/
theorem setZoneConfig_changes {n : Nat} {c : ZoneConfig} (hn : n < Config.zoneSlots) (hconf : conf)
    (hdev : s.device = .unconfigured) (fits : RangeFits n c s) (steps : c.StepsFit) :
    Changes ok conf s (setZoneConfig n c s) := by
  refine Changes.aside ?_ (settleZone_aside n _)
  split
  · next hz => exact .single (.add hdev hn hz fits steps)
  · next z hz =>
    have step := Change.replace (ok := ok) (conf := conf) (d := []) hz (.inr fits) (fun _ => steps) (.inl hconf)
    rw [storeDemand_nil] at step
    exact .single step

theorem removeZone_changes {n : Nat} {z : Zone} (hdev : s.device = .unconfigured) (hz : s.zone n = some z) :
    Changes ok conf s (removeZone n z s) :=
  Changes.aside (.single (.remove hdev hz)) (settleZone_aside n _)

theorem clampTo_le {lo hi v : Nat} (h : lo ≤ hi) : clampTo lo hi v ≤ hi := by
  unfold clampTo
  repeat' split
  all_goals omega

theorem clampedOr_le {lo hi d : Nat} (h : lo ≤ hi) (hd : d ≤ hi) (v : Option Nat) :
    (clampedOr (clampTo lo hi) d v).1 ≤ hi := by
  cases v with
  | none => exact hd
  | some v => exact clampTo_le h

/-- The steps of a set form lie in 0 to 4 (R14). -/
theorem ZoneFields.stepsFit (f : ZoneFields) : f.config.1.StepsFit :=
  ⟨(clampedOr_le (by decide) (by decide) f.baseStep : _ ≤ 2).trans (by decide),
    (clampedOr_le (by decide) (by decide) f.quietBase : _ ≤ 2).trans (by decide),
    clampedOr_le (by decide) (by decide) f.blindStep⟩

theorem configureZone_makes (hconf : conf) (body : List Byte) : Makes ok conf s (configureZone body s) := by
  refine Gives.bind fun ⟨n, body⟩ _ => Gives.bind fun _ hdev => Gives.bind fun _ hn => ?_
  have unconfigured := needUnconfigured_ok hdev
  have slot : n < Config.zoneSlots := of_decide_eq_true (require_ok.1 hn)
  refine Gives.ite (fun _ => Gives.bind fun z hz => ?_) fun _ => ?_
  · exact Gives.pure (removeZone_changes unconfigured (need_ok.1 hz))
  · refine Gives.bind fun ⟨f, _⟩ _ => Gives.bind fun _ hr => Gives.bind fun _ _ => Gives.pure ?_
    exact setZoneConfig_changes slot hconf unconfigured (needRange_ok hr) f.stepsFit

end Sys2Proof.Machine
end

section
/-!
SUPPORT. Chains of changes: AMEND and CONFIGURE class by class (R183).
-/
namespace Sys2Proof.Machine

variable {ok : Nat → Prop} {conf : Prop} {s t u : State}

/-! ### AMEND: zones and bays (R18 to R20, R26, R33, R46) -/

theorem amendNumber_makes {r : Reader Nat} {enc : Nat → List Byte} {clamp : Nat → Nat} {prior : Nat} {put : Nat → State}
    (h : ∀ v, Changes ok conf s (put (clamp v))) (body : List Byte) :
    Makes ok conf s (amendNumber r enc clamp prior put body) :=
  Gives.bind fun ⟨v, _⟩ _ => Gives.pure (h v)

/-- A change of a configuration that keeps the fire role, and the steps within theirs. -/
def KeepsRole (f : ZoneConfig → ZoneConfig) : Prop :=
  ∀ c : ZoneConfig, (f c).haltRole = c.haltRole ∧ (c.StepsFit → (f c).StepsFit)

theorem amendStructure_makes {client n : Nat} {z : Zone} {r : Reader Nat} {prior : List Byte}
    {set : Nat → ZoneConfig → ZoneConfig} (hz : s.zone n = some z) (keeps : ∀ v, KeepsRole (set v)) (body : List Byte) :
    Makes ok conf s (amendStructure client n z r prior set body s) :=
  Gives.bind fun _ _ => Gives.bind fun _ _ => Gives.bind fun ⟨v, _⟩ _ => Gives.bind fun _ hr =>
    Gives.pure (replaceZone_changes hz (.inr (needRange_ok hr)) (keeps v _).2 (keeps v _).1)

theorem amendAirHeads_makes {client n : Nat} {z : Zone} (hz : s.zone n = some z) (body : List Byte) :
    Makes ok conf s (amendAirHeads client n z body s) :=
  Gives.bind fun _ _ => Gives.bind fun ⟨_, _⟩ _ => Gives.bind fun _ _ => Gives.bind fun _ _ =>
    Gives.pure (replaceZone_changes hz (.inl ⟨rfl, rfl⟩) id rfl)

theorem amendSetting_makes {client n : Nat} {z : Zone} {r : Reader Nat} {enc : Nat → List Byte} {clamp : Nat → Nat}
    {prior : Nat} {set : Nat → ZoneConfig → ZoneConfig} (hz : s.zone n = some z)
    (range : ∀ v c, c.bayBase = (set v c).bayBase ∧ c.bayCount = (set v c).bayCount)
    (keeps : ∀ v, KeepsRole (set (clamp v))) (body : List Byte) :
    Makes ok conf s (amendSetting client n z r enc clamp prior set body s) :=
  Gives.bind fun _ _ => amendNumber_makes
    (fun v => replaceZone_changes hz (.inl (range _ _)) (keeps v _).2 (keeps v _).1) body

/-- The flag set of a zone amended: where the fire role changes the demand step is settled (R18, R102). -/
theorem amendZoneFlags_makes {client n : Nat} {z : Zone} (hz : s.zone n = some z) (body : List Byte) :
    Makes ok conf s (amendZoneFlags client n z body s) := by
  refine Gives.bind fun _ _ => Gives.bind fun ⟨⟨value, mask⟩, _⟩ _ => Gives.pure ?_
  have replaced (d : List Nat) (role : (z.config.withFlags value mask).haltRole = z.config.haltRole ∨ n ∈ d) :
      Changes ok conf s (storeDemand d (replaceZone n z (z.config.withFlags value mask) s)) :=
    .single (.replace hz (.inl ⟨rfl, rfl⟩) id (.inr role))
  dsimp only
  split
  · next role => simpa using replaced [] (.inl role)
  · exact Changes.aside (replaced [n] (.inr List.mem_cons_self)) ((settleDemand_aside _ _).trans (settleZone_aside _ _))

theorem amendZone_makes (client : Nat) (body : List Byte) : Makes ok conf s (amendZone client body s) := by
  refine Gives.bind fun ⟨n, body⟩ _ => Gives.bind fun z hz => Gives.bind fun ⟨field, body⟩ _ => ?_
  obtain ⟨_, hz⟩ := needZone_ok hz
  have two {v : Nat} : clampTo 0 2 v ≤ 4 := (clampTo_le (by decide)).trans (by decide)
  have four {v : Nat} : clampTo 0 4 v ≤ 4 := clampTo_le (by decide)
  dsimp only
  split
  · refine amendStructure_makes hz ?_ _
    exact fun _ _ => ⟨rfl, id⟩
  · refine amendStructure_makes hz ?_ _
    exact fun _ _ => ⟨rfl, id⟩
  · refine amendStructure_makes hz ?_ _
    exact fun _ _ => ⟨rfl, id⟩
  · exact amendAirHeads_makes hz _
  · refine amendSetting_makes hz (fun _ _ => ?_) (fun _ _ => ?_) _
    exacts [⟨rfl, rfl⟩, ⟨rfl, id⟩]
  · refine amendSetting_makes hz (fun _ _ => ?_) (fun _ _ => ?_) _
    exacts [⟨rfl, rfl⟩, ⟨rfl, fun ⟨_, q, b⟩ => ⟨two, q, b⟩⟩]
  · refine amendSetting_makes hz (fun _ _ => ?_) (fun _ _ => ?_) _
    exacts [⟨rfl, rfl⟩, ⟨rfl, fun ⟨a, _, b⟩ => ⟨a, two, b⟩⟩]
  · refine amendSetting_makes hz (fun _ _ => ?_) (fun _ _ => ?_) _
    exacts [⟨rfl, rfl⟩, ⟨rfl, fun ⟨a, q, _⟩ => ⟨a, q, four⟩⟩]
  · exact amendZoneFlags_makes hz _
  · exact Gives.error _

/-- A bay changed. -/
theorem bay_changes (g : Nat) (f : Bay → Bay) (s : State) : Changes ok conf s (changeBay g f s) :=
  Changes.of_minors (.bay g f s)

theorem amendBay_makes (client : Nat) (body : List Byte) : Makes ok conf s (amendBay client body s) := by
  refine Gives.bind fun ⟨⟨z, i⟩, body⟩ _ => Gives.bind fun ⟨g, b⟩ _ => Gives.bind fun ⟨field, body⟩ _ => ?_
  dsimp only
  split
  · exact Gives.bind fun _ _ => Gives.bind fun ⟨_, _⟩ _ => Gives.pure (bay_changes _ _ s)
  · exact Gives.bind fun _ _ => Gives.bind fun _ _ => Gives.bind fun ⟨_, _⟩ _ => Gives.bind fun _ _ =>
      Gives.pure (bay_changes _ _ s)
  · exact Gives.bind fun _ _ => Gives.bind fun _ _ => Gives.bind fun ⟨_, _⟩ _ => Gives.bind fun _ _ =>
      Gives.pure (bay_changes _ _ s)
  · exact Gives.bind fun _ _ => Gives.bind fun ⟨_, _⟩ _ => Gives.bind fun _ _ => Gives.bind fun _ _ =>
      Gives.bind fun _ _ => Gives.pure (hostSet_changes _ _ _ s)
  · exact Gives.error _

/-! ### AMEND: the settings records -/

/-- A change of unread fields. -/
theorem Changes.unread (h : SameExcept unreadFields s t) : Changes ok conf s t := Changes.of_aside (.of_unread h)

theorem amendBaySettings_makes (client : Nat) (body : List Byte) : Makes ok conf s (amendBaySettings client body s) := by
  refine Gives.bind fun ⟨field, body⟩ _ => ?_
  dsimp only
  split
  · exact Gives.bind fun _ _ => amendNumber_makes (fun _ => .unread (by simp (disch := decide))) _
  · exact Gives.error _

theorem amendPassageSettings_makes (client : Nat) (body : List Byte) :
    Makes ok conf s (amendPassageSettings client body s) := by
  have limit {clamp : Nat → Nat} {prior : Nat} {c : Nat → PassageSettings} {body : List Byte} :
      Makes ok conf s (amendLimit client clamp prior c body s) :=
    Gives.bind fun _ _ => Gives.bind fun ⟨_, _⟩ _ => Gives.bind fun _ _ =>
      Gives.pure (.unread (by simp (disch := decide)))
  refine Gives.bind fun ⟨field, body⟩ _ => ?_
  dsimp only
  split
  · exact limit
  · exact limit
  · exact Gives.error _

theorem amendPattern_makes (client : Nat) (body : List Byte) : Makes ok conf s (amendPattern client body s) := by
  refine Gives.bind fun ⟨code, body⟩ _ => Gives.bind fun _ _ => Gives.bind fun ⟨field, body⟩ _ => ?_
  dsimp only
  split
  · exact Gives.bind fun _ _ => Gives.bind fun ⟨_, _⟩ _ => Gives.pure (.unread (by simp (disch := decide) [setPattern]))
  · exact Gives.error _

theorem amendEvaluator_makes (client : Nat) (body : List Byte) : Makes ok conf s (amendEvaluator client body s) :=
  Gives.bind fun ⟨_, _⟩ _ => Gives.bind fun _ _ => Gives.bind fun _ _ => Gives.bind fun ⟨_, _⟩ _ =>
    Gives.bind fun _ _ => Gives.pure (.unread (by simp (disch := decide)))

theorem amendFanDrive_makes (client : Nat) (body : List Byte) : Makes ok conf s (amendFanDrive client body s) := by
  refine Gives.bind fun ⟨field, body⟩ _ => ?_
  dsimp only
  split
  · exact Gives.bind fun _ _ => Gives.bind fun ⟨_, _⟩ _ => Gives.bind fun _ _ => Gives.pure
      (Changes.aside (.unread (by simp (disch := decide))) (gate_aside _))
  · exact Gives.bind fun _ _ => amendNumber_makes (fun _ => .unread (by simp (disch := decide))) _
  · exact Gives.bind fun _ _ => amendNumber_makes (fun _ => .unread (by simp (disch := decide))) _
  · exact Gives.error _

theorem amendLampControl_makes (client : Nat) (body : List Byte) : Makes ok conf s (amendLampControl client body s) := by
  refine Gives.bind fun ⟨field, body⟩ _ => ?_
  dsimp only
  split
  · exact Gives.bind fun _ _ => amendNumber_makes
      (fun _ => Changes.aside (.unread (by simp (disch := decide))) (thresholdFaults_aside _ _ _)) _
  · exact Gives.error _

theorem amendQuiet_makes (client : Nat) (body : List Byte) : Makes ok conf s (amendQuiet client body s) := by
  refine Gives.bind fun ⟨field, body⟩ _ => ?_
  dsimp only
  split
  · exact Gives.bind fun _ _ => amendNumber_makes (fun _ => .unread (by simp (disch := decide))) _
  · exact Gives.bind fun _ _ => amendNumber_makes (fun _ => .unread (by simp (disch := decide))) _
  · exact Gives.error _

theorem amendLanePoller_makes (client : Nat) (body : List Byte) : Makes ok conf s (amendLanePoller client body s) := by
  refine Gives.bind fun ⟨field, body⟩ _ => ?_
  dsimp only
  split
  · exact Gives.bind fun _ _ => amendNumber_makes (fun _ => Changes.of_minors (setLost_minors _ s)) _
  · exact Gives.error _

theorem setClientLevel_makes (slot level : Nat) (s : State) : Makes ok conf s (setClientLevel slot level s) :=
  Gives.bind fun _ _ => Gives.bind fun _ _ => Gives.pure (.unread (by simp (disch := decide)))

theorem setSource_makes (n level : Nat) (enabled : Bool) (s : State) : Makes ok conf s (setSource n level enabled s) :=
  Gives.bind fun _ _ => Gives.pure (.unread (by simp (disch := decide)))

theorem amendClient_makes (client : Nat) (body : List Byte) : Makes ok conf s (amendClient client body s) := by
  refine Gives.bind fun _ _ => Gives.bind fun ⟨slot, body⟩ _ => Gives.bind fun _ _ => Gives.bind fun ⟨field, body⟩ _ => ?_
  dsimp only
  split
  · exact Gives.bind fun ⟨_, _⟩ _ => setClientLevel_makes _ _ s
  · exact Gives.error _

theorem amendAttention_makes (client : Nat) (body : List Byte) : Makes ok conf s (amendAttention client body s) := by
  refine Gives.bind fun ⟨n, body⟩ _ => Gives.bind fun _ _ => Gives.bind fun ⟨field, body⟩ _ => ?_
  dsimp only
  split
  · exact Gives.bind fun _ _ => Gives.bind fun ⟨_, _⟩ _ => setSource_makes _ _ _ s
  · exact Gives.bind fun _ _ => Gives.bind fun ⟨_, _⟩ _ => setSource_makes _ _ _ s
  · exact Gives.error _

/-! ### AMEND: passages, signs, fans, lamp groups, heads -/

theorem amendPassage_makes (client : Nat) (body : List Byte) : Makes ok conf s (amendPassage client body s) := by
  have set (n : Nat) (c : PassageConfig) : Changes ok conf s (setPassageConfig n c s) :=
    Changes.of_aside (passages_upd_aside n _ s)
  have number {level n : Nat} {clamp : Nat → Nat} {prior : Nat} {c : Nat → PassageConfig} {body : List Byte} :
      Makes ok conf s (amendPassageNumber client level n clamp prior c body s) :=
    Gives.bind fun _ _ => amendNumber_makes (fun _ => set _ _) _
  have structure_ {α : Type} {n : Nat} {r : Reader α} {prior : List Byte} {c : α → PassageConfig} {body : List Byte} :
      Makes ok conf s (amendPassageStructure client n r prior c body s) :=
    Gives.bind fun _ _ => Gives.bind fun _ _ => Gives.bind fun ⟨_, _⟩ _ => Gives.bind fun _ _ => Gives.pure (set _ _)
  refine Gives.bind fun ⟨n, body⟩ _ => Gives.bind fun p _ => Gives.bind fun ⟨field, body⟩ _ => ?_
  dsimp only
  split
  · exact Gives.bind fun _ _ => Gives.bind fun ⟨_, _⟩ _ => Gives.bind fun _ _ => Gives.bind fun _ _ =>
      Gives.bind fun _ _ => Gives.bind fun _ _ => Gives.pure (set _ _)
  · exact Gives.bind fun _ _ => Gives.bind fun ⟨_, _⟩ _ => Gives.pure (set _ _)
  · exact number
  · exact number
  · exact number
  · exact structure_
  · exact structure_
  · exact structure_
  · exact structure_
  · exact structure_
  · exact Gives.error _

theorem amendSign_makes (client : Nat) (body : List Byte) : Makes ok conf s (amendSign client body s) := by
  have set (n : Nat) (c : SignConfig) : Changes ok conf s (setSignConfig n c s) :=
    Changes.of_aside (signs_upd_aside n _ s)
  have field_ {α : Type} {level n : Nat} {r : Reader α} {prior : List Byte} {c : α → SignConfig} {names : α → List Nat}
      {body : List Byte} : Makes ok conf s (amendSignField client level n r prior c names body s) :=
    Gives.bind fun _ _ => Gives.bind fun _ _ => Gives.bind fun ⟨_, _⟩ _ => Gives.bind fun _ _ => Gives.bind fun _ _ =>
      Gives.pure (set _ _)
  refine Gives.bind fun ⟨n, body⟩ _ => Gives.bind fun p _ => Gives.bind fun ⟨field, body⟩ _ => ?_
  dsimp only
  split
  · exact field_
  · exact field_
  · exact Gives.bind fun _ _ => amendNumber_makes (fun _ => set _ _) _
  · exact field_
  · exact field_
  · exact Gives.error _

/-- A fan's record put in the place of another. -/
theorem fans_put_found {n : Nat} {f : Fan} (hf : s.fans.find n = some f) (x : Fan) :
    Aside s (s.setFans (s.fans.put n x)) := .fans_put (Table.mem_keys_of_find hf) x

theorem fanField_changes {client n : Nat} {f : Fan} (hf : s.fans.find n = some f) (body : List Byte) :
    Gives (Changes ok conf s) (fanField client n f body s).2 := by
  unfold fanField
  split
  · exact Gives.bind fun _ _ => Gives.bind fun _ _ => Gives.bind fun ⟨_, _⟩ _ => Gives.bind fun _ _ =>
      Gives.bind fun _ _ => Gives.pure (Changes.of_aside (putFan_aside (Table.mem_keys_of_find hf) _))
  · exact Gives.bind fun _ _ => Gives.bind fun ⟨_, _⟩ _ => Gives.bind fun _ _ => Gives.bind fun _ _ =>
      Gives.bind fun _ _ =>
        Gives.pure (Changes.of_aside (((fans_put_found hf _).trans (retargetFan_aside _ _)).trans (gate_aside _)))
  · exact Gives.bind fun _ _ => Gives.bind fun _ _ => Gives.bind fun ⟨_, _⟩ _ => Gives.bind fun _ _ =>
      Gives.pure (Changes.of_aside (fans_put_found hf _))
  · exact Gives.bind fun _ _ => Gives.bind fun _ _ => Gives.bind fun ⟨_, _⟩ _ => Gives.bind fun _ _ =>
      Gives.pure (Changes.of_aside
        (((changeFans_aside _ (fans_put_found hf _)).trans (retargetFan_aside _ _)).trans (gate_aside _)))
  · exact Gives.error _

theorem withPrior_changes {prior : List Byte} {c : Check State} (h : Gives (Changes ok conf s) c) :
    Changes ok conf s (withPrior prior s c).2 := by
  cases c with
  | error r => exact .refl
  | ok t => exact h t rfl

theorem amendFan_makes (client : Nat) (body : List Byte) : Makes ok conf s (amendFan client body s) :=
  Gives.bind fun ⟨_, _⟩ _ => Gives.bind fun _ hf =>
    Gives.pure (withPrior_changes (fanField_changes (needRecord_ok hf).2 _))

theorem lampField_changes {client n : Nat} {g : LampGroup} (hn : n < Config.lampSlots) (body : List Byte) :
    Gives (fun p => Changes ok conf s p.2) (lampField client n g body s).2 := by
  have put (x : LampGroup) : Changes ok conf s (s.setLamps (s.lamps.put n x)) :=
    Changes.of_aside (lamps_put_aside (.inr hn) x)
  have settled (x : LampGroup) : Changes ok conf s (putGroup n x s) := Changes.of_aside (putGroup_aside (.inr hn) x)
  unfold lampField
  split
  · exact Gives.bind fun _ _ => Gives.bind fun ⟨_, _⟩ _ => Gives.bind fun _ _ => Gives.pure (settled _)
  · exact Gives.bind fun _ _ => Gives.bind fun ⟨_, _⟩ _ => Gives.pure (settled _)
  · exact Gives.bind fun _ _ => Gives.bind fun ⟨_, _⟩ _ => Gives.pure (put _)
  · exact Gives.bind fun _ _ => Gives.bind fun ⟨⟨_, _⟩, _⟩ _ => Gives.pure (settled _)
  · exact Gives.bind fun _ _ => Gives.bind fun _ _ => Gives.bind fun ⟨_, _⟩ _ => Gives.bind fun _ _ =>
      Gives.pure (put _)
  · exact Gives.bind fun _ _ => Gives.bind fun _ _ => Gives.bind fun ⟨_, _⟩ _ => Gives.bind fun _ _ =>
      Gives.pure (settled _)
  · exact Gives.error _

theorem amendLamp_makes (client : Nat) (body : List Byte) : Makes ok conf s (amendLamp client body s) := by
  refine Gives.bind fun ⟨n, body⟩ _ => Gives.bind fun g hg => ?_
  have changed := lampField_changes (ok := ok) (conf := conf) (s := s) (client := client) (g := g) (needRecord_ok hg).1 body
  dsimp only
  split
  · next c t hc => exact Gives.pure (changed _ hc)
  · exact Gives.pure .refl

theorem amendHead_makes (client : Nat) (body : List Byte) : Makes ok conf s (amendHead client body s) := by
  refine Gives.bind fun ⟨id, body⟩ _ => Gives.bind fun h hh => Gives.bind fun ⟨field, body⟩ _ => ?_
  obtain ⟨range, found⟩ := needHead_ok hh
  dsimp only
  split
  · exact Gives.bind fun _ _ => Gives.bind fun ⟨_, _⟩ _ => Gives.bind fun _ _ =>
      Gives.pure (Changes.of_aside (.heads_put (head_mem found) _))
  · exact Gives.bind fun _ _ => Gives.bind fun ⟨_, _⟩ _ => Gives.bind fun _ _ => Gives.bind fun _ _ =>
      Gives.pure (configureHead_changes range _ _ s)
  · exact Gives.error _

theorem serveAmend_changes (client : Nat) (body : List Byte) (s : State) :
    Changes ok conf s (serveAmend client body s).2 := by
  refine served_changes (Gives.bind fun ⟨cls, body⟩ _ => ?_)
  dsimp only
  unfold amendClass
  split
  · exact amendZone_makes _ _
  · exact amendBay_makes _ _
  · exact amendBaySettings_makes _ _
  · exact Gives.bind fun ⟨_, _⟩ _ => Gives.bind fun _ _ => Gives.error _
  · exact Gives.error _
  · exact amendPassage_makes _ _
  · exact amendPassageSettings_makes _ _
  · exact amendSign_makes _ _
  · exact amendPattern_makes _ _
  · exact amendEvaluator_makes _ _
  · exact amendFan_makes _ _
  · exact amendFanDrive_makes _ _
  · exact amendLamp_makes _ _
  · exact amendLampControl_makes _ _
  · exact Gives.bind fun ⟨_, _⟩ _ => Gives.bind fun _ _ => Gives.error _
  · exact Gives.error _
  · exact amendQuiet_makes _ _
  · exact amendHead_makes _ _
  · exact amendLanePoller_makes _ _
  · exact amendClient_makes _ _
  · exact amendAttention_makes _ _
  · exact Gives.error _

end Sys2Proof.Machine
end

section
/-!
SUPPORT. Chains of changes: CONFIGURE class by class (R183), every other request, every event, and the step.
-/
namespace Sys2Proof.Machine

variable {ok : Nat → Prop} {conf : Prop} {s t u : State}

/-! ### CONFIGURE -/

theorem configureBay_makes (body : List Byte) : Makes ok conf s (configureBay body s) :=
  Gives.bind fun ⟨⟨_, _⟩, _⟩ _ => Gives.bind fun _ _ => Gives.bind fun ⟨_, _⟩ _ => Gives.bind fun ⟨_, _⟩ _ =>
    Gives.bind fun _ _ => Gives.bind fun _ _ => Gives.bind fun _ _ => Gives.pure (bay_changes _ _ s)

theorem configureBaySettings_makes (body : List Byte) : Makes ok conf s (configureBaySettings body s) :=
  Gives.bind fun _ _ => Gives.bind fun ⟨_, _⟩ _ => Gives.pure (.unread (by simp (disch := decide)))

theorem configurePassage_makes (body : List Byte) : Makes ok conf s (configurePassage body s) := by
  refine Gives.bind fun ⟨n, body⟩ _ => Gives.bind fun _ _ => Gives.bind fun _ hn => ?_
  have slot : n < Config.passageSlots := of_decide_eq_true (require_ok.1 hn)
  refine Gives.ite (fun _ => Gives.bind fun _ _ => ?_) fun _ => ?_
  · exact Gives.pure (Changes.of_aside (.of_passages (by simp (disch := decide)) (.del _ _)))
  · exact Gives.bind fun ⟨_, _⟩ _ => Gives.bind fun _ _ => Gives.bind fun _ _ =>
      Gives.pure (Changes.of_aside (.of_passages (by simp (disch := decide)) (.put_new _ _ slot)))

theorem configurePassageSettings_makes (body : List Byte) : Makes ok conf s (configurePassageSettings body s) :=
  Gives.bind fun _ _ => Gives.bind fun ⟨_, _⟩ _ => Gives.bind fun ⟨_, _⟩ _ => Gives.bind fun _ _ =>
    Gives.pure (.unread (by simp (disch := decide)))

theorem configureSign_makes (body : List Byte) : Makes ok conf s (configureSign body s) := by
  refine Gives.bind fun ⟨n, body⟩ _ => Gives.bind fun _ _ => Gives.bind fun _ hn => ?_
  have slot : n < Config.signSlots := of_decide_eq_true (require_ok.1 hn)
  refine Gives.ite (fun _ => Gives.bind fun _ _ => ?_) fun _ => ?_
  · exact Gives.pure (Changes.of_aside (.of_signs (by simp (disch := decide)) (.del _ _)))
  · exact Gives.bind fun ⟨_, _⟩ _ => Gives.bind fun _ _ =>
      Gives.pure (Changes.of_aside (.of_signs (by simp (disch := decide)) (.put_new _ _ slot)))

theorem configurePatterns_makes (body : List Byte) : Makes ok conf s (configurePatterns body s) :=
  Gives.bind fun _ _ => Gives.bind fun ⟨_, _⟩ _ => Gives.bind fun _ _ => Gives.bind fun _ _ =>
    Gives.pure (Changes.of_aside (.foldl (fun _ _ => .of_unread (by simp (disch := decide) [setPattern])) _ s))

theorem configureEvaluator_makes (body : List Byte) : Makes ok conf s (configureEvaluator body s) :=
  Gives.bind fun _ _ => Gives.bind fun ⟨_, _⟩ _ => Gives.bind fun _ _ => Gives.pure (.unread (by simp (disch := decide)))

theorem configureFan_makes (body : List Byte) : Makes ok conf s (configureFan body s) := by
  refine Gives.bind fun ⟨n, body⟩ _ => Gives.bind fun _ _ => Gives.bind fun _ hn => ?_
  have slot : n < Config.fanSlots := of_decide_eq_true (require_ok.1 hn)
  refine Gives.ite (fun _ => Gives.bind fun f _ => ?_) fun _ => ?_
  · have dropped : Aside s (s.setFans (s.fans.del n)) := .of_fans (by simp (disch := decide)) (.del _ _)
    have changed := changeFans_aside (f := fun s => s.setFans (s.fans.del n)) [f.zone] dropped
    exact Gives.pure (Changes.of_aside changed)
  · refine Gives.bind fun ⟨⟨head, zone, assist⟩, _⟩ _ => Gives.bind fun _ _ => ?_
    have added (f : Fan) : Aside s (s.setFans (s.fans.put n f)) :=
      .of_fans (by simp (disch := decide)) (.put_new _ f slot)
    have changed := changeFans_aside
      (f := fun s => takeUpFire (s.setFans (s.fans.put n (Fan.fresh head zone assist .unreached))))
      (zone :: fanZone n s) ((added _).trans (takeUpFire_aside _))
    exact Gives.pure (Changes.of_aside changed)

theorem configureFanDrive_makes (body : List Byte) : Makes ok conf s (configureFanDrive body s) :=
  Gives.bind fun _ _ => Gives.bind fun ⟨_, _⟩ _ => Gives.bind fun ⟨_, _⟩ _ => Gives.bind fun ⟨_, _⟩ _ =>
    Gives.pure (.unread (by simp (disch := decide)))

theorem configureLamp_makes (body : List Byte) : Makes ok conf s (configureLamp body s) := by
  refine Gives.bind fun ⟨n, body⟩ _ => Gives.bind fun _ _ => Gives.bind fun _ hn => ?_
  have slot : n < Config.lampSlots := of_decide_eq_true (require_ok.1 hn)
  refine Gives.ite (fun _ => Gives.bind fun _ _ => ?_) fun _ => ?_
  · exact Gives.pure (Changes.of_aside (.of_lamps (by simp (disch := decide)) (.del _ _)))
  · exact Gives.bind fun ⟨_, _⟩ _ => Gives.bind fun _ _ =>
      Gives.pure (Changes.of_aside (putGroup_aside (.inr slot) _))

theorem configureLampControl_makes (body : List Byte) : Makes ok conf s (configureLampControl body s) :=
  Gives.bind fun _ _ => Gives.bind fun ⟨_, _⟩ _ => Gives.pure (.unread (by simp (disch := decide)))

theorem configureQuiet_makes (body : List Byte) : Makes ok conf s (configureQuiet body s) :=
  Gives.bind fun _ _ => Gives.bind fun ⟨_, _⟩ _ => Gives.bind fun ⟨_, _⟩ _ =>
    Gives.pure (.unread (by simp (disch := decide)))

theorem configureHeadRecord_makes (body : List Byte) : Makes ok conf s (configureHeadRecord body s) := by
  refine Gives.bind fun ⟨id, body⟩ _ => Gives.bind fun _ hr => ?_
  refine Gives.ite (fun _ => ?_) fun _ => ?_
  · exact Gives.bind fun _ _ => Gives.bind fun _ _ => Gives.bind fun _ _ => Gives.pure (removeHead_changes _ _ s)
  · exact Gives.bind fun ⟨⟨_, _⟩, _⟩ _ => Gives.bind fun _ _ => Gives.bind fun _ _ =>
      Gives.pure (configureHead_changes (require_ok.1 hr) _ _ s)

theorem configureLanePoller_makes (body : List Byte) : Makes ok conf s (configureLanePoller body s) :=
  Gives.bind fun _ _ => Gives.bind fun ⟨_, _⟩ _ => Gives.pure (.unread (by simp (disch := decide)))

theorem configureClient_makes (client : Nat) (body : List Byte) : Makes ok conf s (configureClient client body s) :=
  Gives.bind fun _ _ => Gives.bind fun ⟨_, _⟩ _ => Gives.bind fun _ _ => Gives.bind fun ⟨_, _⟩ _ =>
    setClientLevel_makes _ _ s

theorem configureAttention_makes (body : List Byte) : Makes ok conf s (configureAttention body s) :=
  Gives.bind fun ⟨_, _⟩ _ => Gives.bind fun _ _ => Gives.bind fun ⟨_, _⟩ _ => Gives.bind fun ⟨_, _⟩ _ =>
    setSource_makes _ _ _ s

/-- A CONFIGURE may leave a demand step in fire unsettled where it is taken in UNCONFIGURED (R15). -/
theorem serveConfigure_changes (hconf : s.device = .unconfigured → conf) (client : Nat) (body : List Byte) :
    Changes ok conf s (serveConfigure client body s).2 := by
  refine served_changes (Gives.bind fun ⟨cls, body⟩ _ => ?_)
  dsimp only
  unfold configureClass
  split
  · by_cases hdev : s.device = .unconfigured
    · exact configureZone_makes (hconf hdev) _
    · exact Gives.bind fun _ _ => Gives.bind fun _ hu => absurd (needUnconfigured_ok hu) hdev
  · exact configureBay_makes _
  · exact configureBaySettings_makes _
  · exact configurePassage_makes _
  · exact configurePassageSettings_makes _
  · exact configureSign_makes _
  · exact configurePatterns_makes _
  · exact configureEvaluator_makes _
  · exact configureFan_makes _
  · exact configureFanDrive_makes _
  · exact configureLamp_makes _
  · exact configureLampControl_makes _
  · exact configureQuiet_makes _
  · exact configureHeadRecord_makes _
  · exact configureLanePoller_makes _
  · exact configureClient_makes _ _
  · exact configureAttention_makes _
  · exact Gives.error _

/-! ### Holds, service and steers -/

theorem renewSteer_minors (h : Nat × Nat) (expiry : Nat) (s : State) : Minors ok s (renewSteer h expiry s) := by
  unfold renewSteer
  split
  · exact .refl
  · next id _ =>
    have moved : SteersMoved ok s (s.steers.upd id fun t => { t with deadline := expiry }) (fun _ z => z) := by
      refine ⟨fun wf => Table.wf_mapWith wf _, fun k hk => .inl (by simpa [Table.upd] using hk),
        fun e _ => by rw [e]; rfl, fun _ q hq => .inl ?_, fun _ z => .refl z, fun _ q _ hc k => ?_⟩
      · obtain ⟨p, hp, rfl⟩ := List.mem_map.1 hq
        exact ⟨p, hp, by dsimp only; split <;> rfl⟩
      · rw [hc k, steersTo_eq, steersTo_eq, State.setSteers_steers, Table.upd, Table.mapWith, List.countP_map]
        congr 1
        funext p
        simp only [Function.comp, headsTo]
        split <;> rfl
    have step := Minor.steers moved
    rw [Table.mapWith_self] at step
    exact .single step

theorem claimBay_minors (z i g : Nat) (b : Bay) (x : Hold) (s : State) :
    Gives (fun p => Minors ok s p.2) (claimBay z i g b x s) := by
  have renewed : Minors ok s (renewHold g (z, i) x s) :=
    (Minors.bay g (fun b => { b with hold := some x }) s).trans (renewSteer_minors _ _ _)
  unfold claimBay
  dsimp only
  repeat' split
  · exact Gives.accepted (makeHold_minors _ _ s)
  · exact Gives.error _
  · exact Gives.accepted .refl
  · exact Gives.accepted renewed
  · exact Gives.accepted .refl
  · exact Gives.accepted .refl
  · exact Gives.accepted .refl
  · exact Gives.accepted .refl

theorem claimAny_minors (r : Zone) (k : BayKind) (level : Nat) (x : Hold) (s : State) :
    Gives (fun p => Minors ok s p.2) (claimAny r k level x s) := by
  unfold claimAny
  split
  · exact Gives.ite (fun _ => Gives.accepted (makeHold_minors _ _ s)) fun _ => Gives.error _
  · exact Gives.accepted .refl

theorem serveClaim_changes (client : Nat) (body : List Byte) (s : State) :
    Changes ok conf s (serveClaim client body s).2 := by
  refine served_changes (Gives.bind fun _ _ => Gives.bind fun ⟨_, _⟩ _ => Gives.bind fun ⟨_, _⟩ _ => Gives.bind fun _ _ =>
    Gives.bind fun ⟨_, _⟩ _ => Gives.bind fun a _ => Gives.bind fun ⟨⟨_, _⟩, _⟩ _ => Gives.bind fun _ _ =>
      Gives.bind fun ⟨c, t⟩ hc => Gives.pure (Changes.of_minors ?_))
  cases a with
  | bay i g b => exact claimBay_minors _ _ _ _ _ s _ hc
  | anyOf k => exact claimAny_minors _ _ _ _ s _ hc

theorem serveRelease_changes (client : Nat) (body : List Byte) (s : State) :
    Changes ok conf s (serveRelease client body s).2 := by
  refine served_changes (Gives.bind fun ⟨⟨_, _⟩, _⟩ _ => Gives.bind fun ⟨_, _⟩ _ => Gives.bind fun ⟨_, _⟩ _ =>
    Gives.bind fun _ _ => ?_)
  have released (g : Nat) : Changes ok conf s (changeBayEnding g .released id s) :=
    Changes.of_minors (changeBayEnding_minors _ _ _ s)
  exact Gives.ite (fun _ => Gives.bind fun _ _ => Gives.pure (released _)) fun _ => Gives.bind fun _ _ =>
    Gives.pure (released _)

theorem serveRetire_changes (client : Nat) (body : List Byte) (s : State) :
    Changes ok conf s (serveRetire client body s).2 := by
  refine served_changes (Gives.bind fun ⟨⟨_, _⟩, _⟩ _ => Gives.bind fun ⟨_, _⟩ _ => Gives.bind fun _ _ => ?_)
  exact Gives.ite (fun _ => Gives.pure .refl) fun _ =>
    Gives.pure (Changes.of_minors (changeBayEnding_minors _ _ _ s))

theorem serveCommission_changes (client : Nat) (body : List Byte) (s : State) :
    Changes ok conf s (serveCommission client body s).2 := by
  refine served_changes (Gives.bind fun ⟨⟨_, _⟩, _⟩ _ => Gives.bind fun ⟨_, _⟩ _ => Gives.bind fun _ _ => ?_)
  exact Gives.ite (fun _ => Gives.pure .refl) fun _ => Gives.pure (bay_changes _ _ s)

/-- The hold that a STEER wishes, where one is taken (R39, R61). -/
theorem steerHold_some {client z i e : Nat} {f : SteerFields} (h : steerHold client f z s = some (i, e, t)) :
    ∃ r, s.zone z = some r ∧ f.holdWish = true ∧ claimIndex r f.kind (s.clientLevel client) s = some i ∧
      s.holdCount < Config.holdLimit ∧ e = s.partTime + max r.config.travelTime steerHoldTime ∧
        t = makeHold (r.config.bayBase + i) { client := client, tag := f.tag, expiry := e } s := by
  unfold steerHold at h
  split at h
  · cases h
  · next r hr =>
    split at h
    · next wish =>
      simp only [claimAny] at h
      cases hi : claimIndex r f.kind (s.clientLevel client) s with
      | none => simp [hi] at h
      | some j =>
        simp only [hi] at h
        by_cases room : s.holdCount < Config.holdLimit
        · simp only [room, if_true, Option.map_some, Option.some.injEq, Prod.mk.injEq] at h
          obtain ⟨rfl, rfl, rfl⟩ := h
          exact ⟨r, hr, wish, hi, room, rfl, rfl⟩
        · simp [room] at h
    · cases h

theorem makeHold_steers (g : Nat) (x : Hold) (s : State) : (makeHold g x s).steers = s.steers :=
  (makeHold_frame (fs := [.bays, .zones, .holdCount]) (by decide) g x).2 (.refl _ s) .steers (by decide)

/-- A kiosk steer issued into a slot taken for it (R61). -/
theorem issueKiosk_minors {client p z id : Nat} {f : SteerFields} {l : List Nat} (hok : Slots ok s)
    (hdev : s.device.guides = true) (hz : zoneChoice s l f.kind f.long [] = some z) (hslot : takeSlot s = some (id, t)) :
    Minors ok s (issueKiosk client p f z id t).2 := by
  unfold issueKiosk
  dsimp only
  split
  · next i e u hu =>
    obtain ⟨r, _, _, _, _, _, rfl⟩ := steerHold_some hu
    refine Minors.aside ?_ (afterSteer_aside _ _ _)
    exact issueTaken_minors hok hdev hz hslot (makeHold_minors _ _ t) (makeHold_steers _ _ t) rfl
  · exact Minors.aside (issueTaken_minors hok hdev hz hslot .refl rfl rfl) (afterSteer_aside _ _ _)

theorem serveSteer_changes (client : Nat) (body : List Byte) (hok : Slots ok s) :
    Changes ok conf s (serveSteer client body s).2 := by
  refine served_changes (Gives.bind fun _ hg => Gives.bind fun ⟨p, _⟩ _ => Gives.bind fun r _ =>
    Gives.bind fun _ _ => Gives.bind fun ⟨f, _⟩ _ => ?_)
  have guides := require_ok.1 hg
  dsimp only
  split
  · exact Gives.pure (Changes.of_aside (steerFull_aside _ _ s))
  · next z hz =>
    split
    · exact Gives.pure (Changes.of_aside (steerFull_aside _ _ s))
    · next id t hslot => exact Gives.pure (Changes.of_minors (issueKiosk_minors hok guides hz hslot))

theorem cancelSteer_minors (id : Nat) (x : Steer) (s : State) : Minors ok s (cancelSteer id x s) := by
  unfold cancelSteer
  split
  · exact retireSteer_minors _ _ s
  · split
    · exact retireSteer_minors _ _ s
    · exact changeBayEnding_minors _ _ _ s

/-! ### The other requests -/

theorem needLast_stack {stack : List StackEntry} {e : StackEntry}
    (new : e.vent.stepInRange = true) (h : ∀ x ∈ stack, x.vent.stepInRange = true) :
    ∀ x ∈ stack ++ [e], x.vent.stepInRange = true := fun x hx => by
  rcases List.mem_append.1 hx with hx | hx
  · exact h x hx
  · rw [List.mem_singleton.1 hx]
    exact new

theorem servePush_changes (client : Nat) (body : List Byte) (wf : s.zones.wf = true) :
    Changes ok conf s (servePush client body s).2 := by
  refine served_changes (Gives.bind fun _ _ => Gives.bind fun ⟨z, _⟩ _ => Gives.bind fun r hr =>
    Gives.bind fun ⟨f, _⟩ _ => Gives.bind fun _ _ => Gives.bind fun _ _ => Gives.bind fun _ _ => Gives.bind fun _ hv =>
      Gives.bind fun _ _ => Gives.bind fun _ _ => Gives.bind fun _ _ => Gives.pure ?_)
  exact changeStack_changes wf (needZone_ok hr).2 (needLast_stack (require_ok.1 hv))

theorem servePop_changes (client : Nat) (body : List Byte) (wf : s.zones.wf = true) :
    Changes ok conf s (servePop client body s).2 := by
  refine served_changes (Gives.bind fun ⟨z, _⟩ _ => Gives.bind fun r hr => Gives.bind fun _ _ =>
    Gives.bind fun _ _ => Gives.pure ?_)
  exact changeStack_changes wf (needZone_ok hr).2 fun h e he => h e (List.mem_of_mem_dropLast he)

theorem serveDeclareFire_changes (client : Nat) (body : List Byte) (s : State) :
    Changes ok conf s (serveDeclareFire client body s).2 :=
  served_changes (Gives.bind fun _ _ => Gives.pure ((moveFire_changes _ _ s).trans (wakeEvent_changes _ _ _)))

theorem serveClearFire_changes (client : Nat) (body : List Byte) (s : State) :
    Changes ok conf s (serveClearFire client body s).2 :=
  served_changes (Gives.bind fun _ _ => Gives.pure (moveFire_changes _ _ s))

theorem requireQuiet_ok {c : Bool} {code : Nat} {names : List Byte} {x : Unit}
    (h : requireQuiet c code names = .ok x) : c = true := by
  cases c
  · cases h
  · rfl

theorem serveQuiet_changes (client : Nat) (body : List Byte) (s : State) :
    Changes ok conf s (serveQuiet client body s).2 := by
  refine served_changes (Gives.bind fun ⟨_, _⟩ _ => Gives.bind fun _ _ => Gives.bind fun _ hr => Gives.bind fun _ _ =>
    Gives.bind fun _ _ => Gives.bind fun _ _ => Gives.pure (takeQuiet_changes _ ?_))
  rw [of_decide_eq_true (requireQuiet_ok hr)]
  rfl

theorem serveWake_changes (client : Nat) (body : List Byte) (s : State) :
    Changes ok conf s (serveWake client body s).2 := by
  unfold serveWake
  split
  · exact wakeEvent_changes _ _ s
  · exact .refl
  · exact .refl

theorem serveFetch_changes (client : Nat) (body : List Byte) (s : State) :
    Changes ok conf s (serveFetch client body s).2 := by
  unfold serveFetch
  split
  · exact .refl
  · exact .unread (by simp (disch := decide))

theorem serveGo_changes (client : Nat) (body : List Byte) (s : State) : Changes ok conf s (serveGo client body s).2 := by
  unfold serveGo
  split
  · exact .refl
  · split
    · exact .refl
    · exact start_changes s

theorem serveRestart_changes (client : Nat) (body : List Byte) (s : State) :
    Changes ok conf s (serveRestart client body s).2 := by
  unfold serveRestart
  split
  · exact .refl
  · next h => exact .single (.restart h)

/-! ### The events -/

theorem quietInChange_changes (asserted : Bool) (s : State) :
    Changes ok conf s (if asserted = s.quiet.line then s else if asserted then quietInRises s else quietInFalls s) := by
  split
  · exact .refl
  · split
    · unfold quietInRises
      dsimp only
      split
      · exact Changes.of_aside ((setQuiet_aside _ s).trans (raiseQuietChange_aside _ _ _))
      · exact Changes.of_aside (setQuiet_aside _ s)
    · unfold quietInFalls
      dsimp only
      split
      · exact (Changes.of_aside (setQuiet_aside _ s)).trans (wakeEvent_changes _ _ _)
      · exact Changes.of_aside (setQuiet_aside _ s)

theorem ite_changes (c : Prop) [Decidable c] (h : c → Changes ok conf s t) : Changes ok conf s (if c then t else s) := by
  split
  · exact h ‹_›
  · exact .refl

theorem stackEntryExpiry_changes (zone position : Nat) (wf : s.zones.wf = true) :
    exec (.stackEntryExpiry zone position) s = .next t → Changes ok conf s t := by
  rintro ⟨⟩
  split
  · exact .refl
  · next r hr =>
    split
    · exact .refl
    · split
      · exact .refl
      · refine ite_changes _ fun _ => Changes.aside (changeStack_changes wf hr fun h e he => ?_) (raise_aside _ _ _ _)
        exact h e (List.mem_of_mem_eraseIdx he)

end Sys2Proof.Machine
end

section
/-!
SUPPORT. Every step is a chain of the changes of zone records and of changes beside them.
-/
namespace Sys2Proof.Machine

variable {ok : Nat → Prop} {conf : Prop} {s t u : State}

/-- The command may leave a demand step in fire unsettled: a CONFIGURE taken in UNCONFIGURED (R15). -/
def ConfiguresZone (c : Instr) (s : State) : Prop :=
  s.device = .unconfigured ∧ ∃ client tag body, c = .configure client tag body

/-- Every command makes a chain of changes. -/
theorem exec_changes {c : Instr} (hok : Slots ok s) (wf : s.zones.wf = true) (hconf : ConfiguresZone c s → conf)
    (h : exec c s = .next t) : Changes ok conf s t := by
  have received_ok (b : List Byte) : Slots ok (received b s) := hok.minors (.of_aside (received_aside b s))
  have received_wf (b : List Byte) : (received b s).zones.wf = true := by rw [(received_aside b s).zones]; exact wf
  cases c with
  | stackEntryExpiry zone position => exact stackEntryExpiry_changes zone position wf h
  | identify client tag body => cases h; exact request_changes .refl
  | look client tag body => cases h; exact request_changes .refl
  | amend client tag body => cases h; exact request_changes (serveAmend_changes _ _ _)
  | claim client tag body => cases h; exact request_changes (serveClaim_changes _ _ _)
  | release client tag body => cases h; exact request_changes (serveRelease_changes _ _ _)
  | retire client tag body => cases h; exact request_changes (serveRetire_changes _ _ _)
  | commission client tag body => cases h; exact request_changes (serveCommission_changes _ _ _)
  | steer client tag body => cases h; exact request_changes (serveSteer_changes _ _ (received_ok body))
  | cancelSteer client tag body =>
    cases h
    exact request_changes (served_changes (Gives.bind fun ⟨_, _⟩ _ => Gives.bind fun _ _ =>
      Gives.pure (Changes.of_minors (cancelSteer_minors _ _ _))))
  | push client tag body => cases h; exact request_changes (servePush_changes _ _ (received_wf body))
  | pop client tag body => cases h; exact request_changes (servePop_changes _ _ (received_wf body))
  | declareFire client tag body => cases h; exact request_changes (serveDeclareFire_changes _ _ _)
  | clearFire client tag body => cases h; exact request_changes (serveClearFire_changes _ _ _)
  | quiet client tag body => cases h; exact request_changes (serveQuiet_changes _ _ _)
  | wake client tag body => cases h; exact request_changes (serveWake_changes _ _ _)
  | fetch client tag body => cases h; exact request_changes (serveFetch_changes _ _ _)
  | fetchDone client tag body =>
    cases h
    exact request_changes (.unread (by simp (disch := decide) [serveFetchDone]))
  | configure client tag body =>
    cases h
    refine request_changes (serveConfigure_changes (fun hdev => hconf ⟨?_, _, _, _, rfl⟩) _ _)
    rw [← (received_aside body s).device, hdev]
  | go client tag body => cases h; exact request_changes (serveGo_changes _ _ _)
  | restart client tag body => cases h; exact request_changes (serveRestart_changes _ _ _)
  | requestKindUnknown client kind tag body => cases h; exact request_changes .refl
  | discardedFrame mosi =>
    cases h
    split
    · exact Changes.of_aside (readOut_aside _ _ s)
    · exact .unread (by simp (disch := decide))
  | readTransfer clocks =>
    cases h
    split
    · exact Changes.of_aside (readOut_aside _ _ s)
    · exact .unread (by simp (disch := decide))
  | coldReset cause => cases h; exact .single (.cold cause)
  | partTimeTick => cases h; exact .unread (by simp (disch := decide))
  | fireLineChange asserted => cases h; exact .unread (by simp (disch := decide))
  | fireLineActivation => cases h; exact ite_changes _ fun _ => activateFire_changes s
  | fireLineRelease => cases h; exact ite_changes _ fun _ => releaseFire_changes s
  | quietInChange asserted => cases h; exact quietInChange_changes asserted s
  | airEvaluation => cases h; exact ite_changes _ fun _ => airEvaluation_changes s
  | holdExpiry bay =>
    cases h
    split
    · exact .refl
    · exact ite_changes _ fun _ => Changes.of_minors (changeBayEnding_minors _ _ _ s)
  | steerExpiry steer =>
    cases h
    split
    · exact .refl
    · exact ite_changes _ fun _ => Changes.of_minors (Minors.aside (retireSteer_minors _ _ s) (raise_aside _ _ _ _))
  | kioskWaitExpiry passage => cases h; exact Changes.of_aside (passages_upd_aside _ _ s)
  | showUntil sign => cases h; exact Changes.of_aside (signs_upd_aside _ _ s)
  | startEnds fan =>
    cases h
    split
    · exact .refl
    · next hf => exact ite_changes _ fun _ => Changes.of_aside (putFan_aside (Table.mem_keys_of_find hf) _)
  | rundownEnds fan =>
    cases h
    split
    · exact .refl
    · next hf => exact ite_changes _ fun _ => Changes.of_aside (putFan_aside (Table.mem_keys_of_find hf) _)
  | brightUntil group =>
    cases h
    split
    · exact .refl
    · next hg =>
      exact ite_changes _ fun _ => Changes.of_aside (putGroup_aside (.inl (Table.mem_keys_of_find hg)) _)
  | warmUntil => cases h; exact endWarming_changes s
  | lostTimeReached segment address =>
    cases h
    split
    · exact .refl
    · next hh => exact ite_changes _ fun _ => Changes.of_minors (loseHead_minors (head_mem hh) _)
  | pollBuild segment =>
    cases h
    split
    · exact .refl
    · exact Changes.of_aside (pollNext_aside segment s)
  | responseAccepted segment bytes =>
    cases h
    split
    · exact .refl
    · split
      · exact Changes.of_aside (putSegment_aside _ _ s)
      · exact endExchange_changes _ _ hok fun u hu => answerHead_changes _ _ _ hu
  | miss segment =>
    cases h
    split
    · exact .refl
    · exact endExchange_changes _ _ hok fun u _ => Changes.of_minors (missHead_minors _ _ u)
  | sweepResume segment => cases h; exact ite_changes _ fun _ => Changes.of_aside (putSegment_aside _ _ s)
  | startupSweepBegin segment => cases h; exact ite_changes _ fun _ => Changes.of_aside (putSegment_aside _ _ s)

/-- The command at the front of the queue, where there is one. -/
theorem step_next (h : step s = .next t) :
    (s.pending = [] ∧ t = s) ∨ ∃ c rest, s.pending = c :: rest ∧ exec c (s.setPending rest) = .next t := by
  unfold step at h
  split at h
  · next e => exact .inl ⟨e, (Host.Outcome.next.inj h).symm⟩
  · next c rest e => exact .inr ⟨c, rest, e, h⟩

/-- Every step is a chain of changes. -/
theorem step_changes (hok : Slots ok s) (wf : s.zones.wf = true)
    (hconf : ∀ c rest, s.pending = c :: rest → ConfiguresZone c s → conf) (h : step s = .next t) : Changes ok conf s t := by
  rcases step_next h with ⟨_, rfl⟩ | ⟨c, rest, e, h⟩
  · exact .refl
  · have taken : Aside s (s.setPending rest) := .of_unread (by simp (disch := decide))
    refine (Changes.of_aside taken).trans (exec_changes (hok.minors (.of_aside taken)) ?_ ?_ h)
    · rw [taken.zones]
      exact wf
    · rintro ⟨hdev, configures⟩
      exact hconf c rest e ⟨taken.device ▸ hdev, configures⟩

/-- Every step keeps what every change keeps, where that rests on a canonical zone table. -/
theorem step_keeps {P : State → Prop} (wf : ∀ s, P s → s.zones.wf = true)
    (change : ∀ s t, Change (fun _ => True) True s t → P s → P t) (s t : State) (hs : P s) (h : step s = .next t) : P t :=
  (step_changes (ok := fun _ => True) (conf := True) ⟨fun _ _ => trivial, fun _ _ => trivial⟩ (wf s hs)
    (fun _ _ _ _ => trivial) h).keeps change hs

end Sys2Proof.Machine

open Sys2Proof Sys2Proof.Machine

/-- Settles O19: no change leaves a guidance state other than the one that R10 derives. -/
theorem guidanceStaysSettled : Obligations.GuidanceStaysSettled :=
  step_keeps (fun _ h => h.1) fun _ _ => GuidanceSettled.change

/-- Settles O20: every change of a bay moves its zone's counts, and every change of a range counts its records anew. -/
theorem countsStayMatched : Obligations.CountsStayMatched :=
  step_keeps (fun _ h => h.1) fun _ _ => CountsMatch.change

/-- Settles O35: the redirect pass over the zones that leave OPEN leaves no steer that heads for them. -/
theorem noSteerHeadsForAClosedZone : Obligations.NoSteerHeadsForAClosedZone :=
  step_keeps (fun _ h => h.2.1.1) fun _ _ => SteersGuided.change

/-- Settles O36: every change of the steer table moves the in-transit counts with it. -/
theorem inTransitCountsStayMatched : Obligations.InTransitCountsStayMatched :=
  step_keeps (fun _ h => h.1) fun _ _ => TransitMatches.change

/-- Settles O43: every change settles the demand steps whose inputs it moves, but for a CONFIGURE of a zone. -/
theorem demandStaysSettled : Obligations.DemandStaysSettled := by
  refine ⟨step_keeps (fun _ h => h.1) fun _ _ => DemandKept.change, fun s t hs noConf h => ?_⟩
  have changes : Changes (fun _ => True) False s t := by
    refine step_changes ⟨fun _ _ => trivial, fun _ _ => trivial⟩ hs.1 ?_ h
    rintro c rest pending ⟨hdev, client, tag, body, rfl⟩
    exact noConf.elim (fun k => k hdev) fun k => k client tag body rest pending
  exact changes.keeps (fun _ _ => DemandSettled.change id) hs

/-- Settles O59: a number is new to a table only where its slot was checked. -/
theorem tablesStayCanonical : Obligations.TablesStayCanonical := by
  intro s t hs h
  obtain ⟨⟨zonesWf, _⟩, ⟨_, steerKeys⟩, _⟩ := id hs
  have changes : Changes (· < Config.steerSlots) True s t :=
    step_changes ⟨fun _ h => h, steerKeys⟩ zonesWf (fun _ _ _ _ => trivial) h
  exact changes.keeps (fun _ _ => TablesCanonical.change) hs

end

section
open Sys2Proof Sys2Proof.Machine

/-- Settles O12: the reset state with what is kept of the queue and the two lines. -/
theorem coldResetClearsEveryRecord : Obligations.ColdResetClearsEveryRecord := by
  intro c s
  refine ⟨_, rfl, ?_, rfl, ?_, ?_, rfl⟩
  · simp (disch := decide) [coldReset]
  · cases c <;> rfl
  · rfl

end

section
/-!
SUPPORT. The fields of a request body read back from their bytes (R178, R181), and what a request that reaches its serving
rule answers (R179).
-/
namespace Sys2Proof.Machine

variable {s t v : State}

/-! ### Fields -/

/-- A reader takes the bytes that stand first and leaves the rest. -/
def Reads {α : Type} (r : Reader α) (bytes : List Byte) (x : α) : Prop := ∀ rest, r (bytes ++ rest) = some (x, rest)

theorem Reads.fields {α : Type} {r : Reader α} {bytes : List Byte} {x : α} (h : Reads r bytes x) (rest : List Byte) :
    fields r (bytes ++ rest) = .ok (x, rest) := by rw [Machine.fields, h rest, need_some]

theorem Reads.fields_last {α : Type} {r : Reader α} {bytes : List Byte} {x : α} (h : Reads r bytes x) :
    Machine.fields r bytes = .ok (x, []) := by simpa using h.fields []

theorem reads_number_one {n : Nat} (h : n < 256) : Reads readU8 (number 1 n) n := fun rest => by
  rw [number_one h]
  simp [readU8, Nat.mod_eq_of_lt h]

theorem number_two {n : Nat} (h : n < 65536) : number 2 n = [BitVec.ofNat 8 (n / 256), BitVec.ofNat 8 n] := by
  simp [number, h, bigEndian]

theorem reads_number_two {n : Nat} (h : n < 65536) : Reads readU16 (number 2 n) n := fun rest => by
  rw [number_two h]
  simp only [List.cons_append, List.nil_append, readU16, BitVec.toNat_ofNat, Option.some.injEq, Prod.mk.injEq, and_true]
  omega

/-- A word is its two halves. -/
theorem extract_append {w i j : Nat} (h : BitVec w) :
    (h.extractLsb' (i + j) 8 ++ h.extractLsb' j i : BitVec (8 + i)) = h.extractLsb' j (8 + i) := by
  refine BitVec.eq_of_getLsbD_eq fun n hn => ?_
  simp only [BitVec.getLsbD_append, BitVec.getLsbD_extractLsb']
  split
  · next low => simp [low, hn]
  · next high =>
    have : n - i < 8 := by omega
    have : i + j + (n - i) = j + n := by omega
    simp [*]

theorem reads_halfBytes (h : Half) : Reads readHalf (halfBytes h) h := fun rest => by
  simp only [halfBytes, List.cons_append, List.nil_append, readHalf, Option.some.injEq, Prod.mk.injEq, and_true]
  rw [extract_append (i := 8) (j := 0) h]
  exact BitVec.extractLsb'_eq_self

theorem reads_maskBytes (m : ZoneMask) : Reads readMask (maskBytes m) m := fun rest => by
  simp only [maskBytes, List.cons_append, List.nil_append, readMask, Option.some.injEq, Prod.mk.injEq, and_true]
  refine BitVec.eq_of_getLsbD_eq fun n hn => ?_
  simp only [BitVec.getLsbD_append, BitVec.getLsbD_extractLsb']
  split
  · simp [*]
  · split
    · have : 8 + (n - 8) = n := by omega
      simp [*]
    · split
      · have : 16 + (n - 8 - 8) = n := by omega
        simp [*]
      · have : 24 + (n - 8 - 8 - 8) = n := by omega
        have : n - 8 - 8 - 8 < 8 := by omega
        simp [*]

theorem reads_flagByte (b : Bool) : Reads readFlag (flagByte b) b := fun rest => by
  cases b <;> simp [flagByte, readFlag]

/-- A field that may be absent. -/
theorem reads_optBytes {α : Type} {r : Reader α} {enc : α → List Byte} {o : Option α}
    (h : ∀ x, o = some x → Reads r (enc x) x) : Reads (readOpt r) (optBytes enc o) o := fun rest => by
  cases o with
  | none => simp [optBytes, readOpt]
  | some x => simp [optBytes, readOpt, h x rfl rest]

/-! ### Requests (R179, R181) -/

/-- A request that reaches its serving rule is answered as the rule says. -/
theorem request_of_rule {m : Nat} {rule : Rule} {c : Byte} {g : Half} {b : List Byte} {p : Served}
    (h : Reaches m c b s) (hp : rule c.toNat b (received b s) = p) :
    request (some m) rule c g b s = respond g p.1 p.2 := by rw [request_served h, hp]

/-- The same of a kind whose serving rule checks the level. -/
theorem request_of_unlevelled {m : Nat} {rule : Rule} {c : Byte} {g : Half} {b : List Byte} {p : Served}
    (h : Reaches m c b s) (hp : rule c.toNat b (received b s) = p) :
    request none rule c g b s = respond g p.1 p.2 := by
  obtain ⟨hr, hb, hc, _⟩ := h
  rw [request_unlevelled hr hb hc, hp]

/-- A response placed in the buffer of a state that differs in some fields. -/
theorem respond_except {fs : List Field} {b : List Byte} (g : Half) (r : Reply)
    (h : SameExcept fs (received b s) v) : SameExcept (portFields ++ fs) s (respond g r v) := by
  have received : SameExcept (portFields ++ fs) s (received b s) :=
    (received_frame fun f hf => by simp_all [portFields]).2 (.refl _ _)
  rw [respond_frame fun f hf => by simp_all [portFields]]
  exact received.trans (h.mono (List.subset_append_right _ _))

/-- A refusal changes no record. -/
theorem respond_refused (g : Half) (r : Reply) (b : List Byte) (s : State) :
    SameExcept portFields s (respond g r (received b s)) := by simp (disch := decide)

/-- A request whose serving rule changes no record answers, and changes no record. -/
theorem answered_unchanged {m : Nat} {rule : Rule} {c : Byte} {g : Half} {b : List Byte} {result : Result}
    {detail : Nat} {body : List Byte} (h : Reaches m c b s)
    (hp : rule c.toNat b (received b s) = ({ result := result, detail := detail, body := body }, received b s)) :
    ∃ t, (.next (request (some m) rule c g b s) : Host.Outcome State Fault Refusal) = .next t ∧
      SameExcept portFields s t ∧ Answers g result detail body t :=
  ⟨_, congrArg _ (request_of_rule h hp), respond_refused g _ b s, rfl⟩

/-- The same of a kind whose serving rule checks the level. -/
theorem answered_unchanged_unlevelled {m : Nat} {rule : Rule} {c : Byte} {g : Half} {b : List Byte} {result : Result}
    {detail : Nat} {body : List Byte} (h : Reaches m c b s)
    (hp : rule c.toNat b (received b s) = ({ result := result, detail := detail, body := body }, received b s)) :
    ∃ t, (.next (request none rule c g b s) : Host.Outcome State Fault Refusal) = .next t ∧
      SameExcept portFields s t ∧ Answers g result detail body t :=
  ⟨_, congrArg _ (request_of_unlevelled h hp), respond_refused g _ b s, rfl⟩

end Sys2Proof.Machine
end

section
/-!
The reset state (O13), what fire and bad air bind (O44), and LOOK of a zone's counts (O18).
-/
namespace Sys2Proof.Machine

variable {s : State}

/-! ### The reset state (R1, R182, R188) -/

theorem reset_clientLevel (n : Nat) (h : 1 ≤ n) (h8 : n < 8) : State.reset.clientLevel n = 3 := by
  have : ∀ m : Fin 8, 1 ≤ m.val → State.reset.clientLevel m = 3 := by decide
  exact this ⟨n, h8⟩ h

theorem reset_source (n : Nat) (h : n < 16) :
    (State.reset.source n).isSet = false ∧ (State.reset.source n).enabled = true := by
  have : ∀ m : Fin 16, (State.reset.source m).isSet = false ∧ (State.reset.source m).enabled = true := by decide
  exact this ⟨n, h⟩

theorem reset_noExchange (i : Nat) : (State.reset.segment i).exchange = none := by
  simp only [State.segment, fixedAt, State.reset]
  cases h : (Vector.replicate 4 Segment.off)[i]? with
  | none => rfl
  | some g =>
    obtain ⟨_, rfl⟩ := Vector.getElem?_eq_some_iff.1 h
    simp [Segment.off]

theorem reset_ordered : SettingsOrdered State.reset := by
  unfold SettingsOrdered
  decide

/-! ### Demand steps within 0 to 4 (R102) -/

/-- The effective ventilation setting is AUTO or that of an entry of the stack (R133). -/
theorem effectiveVent_cases (stack : List StackEntry) :
    effectiveVent stack = .auto ∨ ∃ e ∈ stack, effectiveVent stack = e.vent := by
  cases h : ventEntry stack with
  | none => exact .inl (by simp [effectiveVent, h])
  | some e =>
    have mem : e ∈ stack := List.mem_reverse.1 (List.mem_of_find?_eq_some h)
    exact .inr ⟨e, mem, by simp [effectiveVent, h]⟩

theorem effectiveVent_inRange {stack : List StackEntry} (h : ∀ e ∈ stack, e.vent.stepInRange = true) :
    (effectiveVent stack).stepInRange = true := by
  rcases effectiveVent_cases stack with e | ⟨e, mem, same⟩
  · rw [e]
    rfl
  · rw [same]
    exact h e mem

theorem ventStep_le {auto : Nat} {v : Vent} (ha : auto ≤ 4) (hv : v.stepInRange = true) : ventStep auto v ≤ 4 := by
  cases v <;> simp_all [ventStep, Vent.stepInRange]

theorem airFloor_le (a : AirState) : airFloor a ≤ 4 := by cases a <;> simp [airFloor]

theorem demandStep_le {z : Zone} (h : StepsInRange z) : demandStep z ≤ 4 := by
  obtain ⟨_, auto, _, _, _, entries⟩ := h
  have vent := ventStep_le auto (effectiveVent_inRange entries)
  unfold demandStep
  split
  · split <;> simp
  · split
    · exact auto
    · exact vent
    · exact max_le vent (airFloor_le _)

/-- Outside fire ACTIVE the demand step stands at or above the air floor unless level 0 governs (R102 case 3). -/
theorem airFloor_le_demandStep {z : Zone} (h : StepsInRange z) (fire : z.fire ≠ .active) (level : ventLevel z.stack ≠ some 0) :
    airFloor z.air.state ≤ demandStep z := by
  obtain ⟨floor, _⟩ := h
  unfold demandStep
  rw [if_neg fire]
  split
  · exact floor
  · contradiction
  · exact le_max_right _ _

/-! ### Levels of a settled lamp group (R124) -/

theorem lampLevel_bounds (dev : DeviceState) (zone : Option Zone) {g : LampGroup} (guard : g.guardLevel ≤ 100)
    (low : g.guardLevel ≤ g.lowLevel) (high : g.lowLevel ≤ 100) :
    g.guardLevel ≤ (lampLevel dev zone g).1 ∧ (lampLevel dev zone g).1 ≤ 100 := by
  unfold lampLevel
  dsimp only
  repeat' split
  all_goals exact ⟨by first | assumption | exact le_refl _, by first | assumption | exact le_refl _⟩

/-- In fire, at ACT and at BAR a zone's groups are commanded 100 (R124). -/
theorem lampLevel_forced (dev : DeviceState) {z : Zone} (g : LampGroup)
    (h : z.fire ≠ .noFire ∨ z.air.state = .act ∨ z.air.state = .bar) : (lampLevel dev (some z) g).1 = 100 := by
  unfold lampLevel
  dsimp only
  split
  · rfl
  · next calm =>
    have air : z.air.state = .act ∨ z.air.state = .bar := h.resolve_left (by simpa using calm)
    rw [if_pos (by simpa using air)]

theorem GroupSettled.commanded {g : LampGroup} (h : GroupSettled s g) :
    g.commanded = (lampLevel s.device (s.zone g.zone) g).1 := congrArg LampGroup.commanded h.1

/-! ### LOOK (R9, R17) -/

/-- The check of a record's zone number that is out of range, or of an unconfigured zone (R1). -/
theorem needZone_range {n : Nat} (h : 32 ≤ n) (s : State) : needZone n s = .error (Reply.refuse .range) := by
  have : ¬n < Config.zoneSlots := by simpa [Config.zoneSlots] using h
  simp [needZone, this]

theorem needZone_noRecord {n : Nat} (h : n < 32) (hz : s.zone n = none) :
    needZone n s = .error (Reply.refuse .noRecord) := by
  have : n < Config.zoneSlots := h
  simp [needZone, this, hz]

theorem needZone_some {n : Nat} {z : Zone} (h : n < 32) (hz : s.zone n = some z) : needZone n s = .ok z := by
  have : n < Config.zoneSlots := h
  simp [needZone, this, hz]

/-- The COUNTS view, kind by kind (R9, R17). -/
theorem zoneCountsBytes_eq (z : Zone) : zoneCountsBytes z =
    ([BayKind.standard, .wide, .charge].flatMap fun k =>
        number 1 (z.counts.of k).free ++ number 1 (z.counts.of k).occupied ++ number 1 (z.counts.of k).held ++
          number 1 (z.counts.of k).unavailable) ++
      ([BayKind.standard, .wide, .charge].flatMap fun k => number 1 (z.counts.of k).inTransit) ++
      ([BayKind.standard, .wide, .charge].flatMap fun k =>
        number 1 ((z.counts.of k).free - (z.counts.of k).inTransit)) ++
      number 1 z.guidance.code ++ number 1 z.fire.code ++ number 1 z.air.state.code ++ number 1 z.demand := by
  simp [zoneCountsBytes, KindCounts.bytes, Counts.of, Counts.offered, u8]

/-- What LOOK of a zone in its COUNTS view answers (R17). -/
theorem serveLook_counts (client : Nat) {n : Nat} (h : n < 256) (s : State) :
    serveLook client (number 1 1 ++ number 1 n ++ number 1 1) s =
      (lookReply (needZone n s >>= fun z => .ok (zoneCountsBytes z)), s) := by
  have view : fields readU8 (number 1 1) = .ok (1, []) := (reads_number_one (by decide)).fields_last
  rw [serveLook, List.append_assoc, (reads_number_one (by decide)).fields]
  simp only [Check.ok_bind, lookBody, lookZone, (reads_number_one h).fields, view]
  rfl

end Sys2Proof.Machine

open Sys2Proof Sys2Proof.Machine

/-- Settles O13: the values of the definition, and every invariant over empty tables. -/
theorem resetLeavesTheStatedValues : Obligations.ResetLeavesTheStatedValues := by
  have empty {α : Type} (p : Nat → α → Prop) : EachRecord p [] := fun _ h => absurd h List.not_mem_nil
  have keyless (n : Nat) {α : Type} : KeysBelow n ([] : Table α) := fun _ h => absurd h List.not_mem_nil
  have canonical : TablesCanonical State.reset :=
    ⟨⟨rfl, keyless _⟩, ⟨rfl, keyless _⟩, ⟨rfl, keyless _⟩, ⟨rfl, keyless _⟩, ⟨rfl, keyless _⟩, ⟨rfl, keyless _⟩,
      ⟨rfl, keyless _⟩, rfl, fun _ h => absurd h List.not_mem_nil⟩
  have guidance : GuidanceSettled State.reset := ⟨rfl, empty _⟩
  have counts : CountsMatch State.reset := ⟨rfl, rfl, fun _ h => absurd h List.not_mem_nil, empty _⟩
  have transit : TransitMatches State.reset := ⟨rfl, rfl, fun _ => rfl, empty _⟩
  have guided : SteersGuided State.reset := ⟨rfl, guidance, fun _ h => absurd h List.not_mem_nil⟩
  have gated : StartGateHolds State.reset := ⟨rfl, Nat.zero_le _, fun _ => ⟨empty _, reset_noExchange⟩⟩
  have limits : HoldsWithinLimit State.reset := Nat.zero_le _
  exact ⟨rfl, rfl, rfl, rfl, rfl, rfl, rfl, rfl, rfl, rfl, rfl, rfl, rfl, rfl, rfl, rfl, rfl, rfl, rfl, rfl, rfl,
    reset_clientLevel, reset_source, rfl, rfl, canonical, guidance, counts, transit, guided, empty _, ⟨rfl, empty _⟩, gated,
    ⟨rfl, empty _⟩, empty _, limits, reset_ordered, ⟨rfl, empty _⟩, ⟨rfl, rfl, fun _ => empty _⟩, ⟨rfl, empty _⟩,
    ⟨rfl, empty _⟩, rfl, rfl, empty _⟩

/-- Settles O44: what derives from fire and air in the settled states. -/
theorem fireAndAirBindAZone : Obligations.FireAndAirBindAZone := by
  refine ⟨fun s n z guided driven hz => ?_, fun s m g lamps hg => ?_⟩
  · have guidance : z.guidance = deriveGuidance s.device z := guided.2.of_find hz
    obtain ⟨demand, steps⟩ := driven.2.of_find hz
    have floor := airFloor_le_demandStep steps
    have top := demandStep_le steps
    refine ⟨fun h => ?_, demand ▸ top, fun fire role => ?_, fun fire role => ?_, fun fire level => ⟨fun act => ?_, fun bar => ?_⟩⟩
    · rw [guidance]
      unfold deriveGuidance
      repeat' split
      all_goals simp_all
    · rw [demand, demandStep_active fire, if_pos role]
    · rw [demand, demandStep_active fire, if_neg (by simp [role])]
    · have := floor fire level
      rw [act] at this
      rw [demand]
      exact this
    · have := floor fire level
      rw [bar] at this
      rw [demand]
      exact le_antisymm top this
  · have settled := lamps.2.of_find hg
    obtain ⟨_, _, guard, low, high⟩ := id settled
    obtain ⟨above, below⟩ := lampLevel_bounds s.device (s.zone g.zone) (guard.trans (by decide)) low high
    rw [settled.commanded]
    refine ⟨above, below, fun z hz h => ?_⟩
    rw [hz]
    exact lampLevel_forced _ g h

/-- Settles O18: the checks of R1, then the COUNTS view. -/
theorem lookReportsTheCounts : Obligations.LookReportsTheCounts := by
  intro client tag n s hr hn
  have look := serveLook_counts client.toNat hn (received (number 1 1 ++ number 1 n ++ number 1 1) s)
  refine ⟨fun high => ?_, fun low free => ?_, fun z low hz => ?_⟩
  · rw [needZone_range high] at look
    exact answered_unchanged hr look
  · rw [needZone_noRecord (s := received _ s) low free] at look
    exact answered_unchanged hr look
  · rw [needZone_some (s := received _ s) low hz, Check.ok_bind, zoneCountsBytes_eq] at look
    exact answered_unchanged hr look

end

section
/-!
SUPPORT. What retirement, a change of a bay and the end of a hold leave of each record (R24, R43, R57, R63), and
CANCEL_STEER (O31).
-/
namespace Sys2Proof.Machine

variable {s t u : State}

/-! ### Retirement (R57) -/

theorem countPassage_find (p n : Nat) (f : PassageCounters → PassageCounters) (s : State) :
    (countPassage p f s).passages.find n = (s.passages.find n).map fun r =>
      if n = p then { r with counters := f r.counters } else r := by
  rw [countPassage, State.setPassages_passages, Table.find_upd]
  split
  · next e => simp
  · simp

/-- What is left of a steer that is retired (R57). -/
theorem retireSteer_retired {id : Nat} {x : Steer} (h : s.steers.find id = some x) (o : SteerOutcome) :
    Retired id x (PassageCounters.count o) s (retireSteer id o s) := by
  refine ⟨by simp [retireSteer_find], fun m hm => by simp [retireSteer_find, hm], fun n => ?_⟩
  rw [retireSteer_of_find h, countPassage_find]
  rfl

theorem retireSteer_zone {id : Nat} {x : Steer} (h : s.steers.find id = some x) (o : SteerOutcome) (n : Nat) :
    (retireSteer id o s).zone n = (s.zone n).map (x.left n) := by
  rw [retireSteer_of_find h]
  exact Table.find_mapWith _ _ _

/-- A plain steer that is retired leaves its target's in-transit count one lower (R8). -/
theorem retireSteer_plain {id : Nat} {x : Steer} (h : s.steers.find id = some x) (plain : x.holdBay = none)
    (o : SteerOutcome) :
    ZonesChanged (fun n y => if n = x.target then y.lessInTransit x.kind else y) s (retireSteer id o s) := fun n => by
  rw [retireSteer_zone h]
  have : x.left n = fun y => if n = x.target then y.lessInTransit x.kind else y := by
    funext y
    simp [Steer.left, Steer.plain, plain]
  rw [this]

/-- A held steer that is retired leaves every zone as it was. -/
theorem retireSteer_held {id : Nat} {x : Steer} (h : s.steers.find id = some x) {b : Nat × Nat} (held : x.holdBay = some b)
    (o : SteerOutcome) : (retireSteer id o s).zones = s.zones := by
  rw [retireSteer_of_find h]
  have : x.left = fun _ y => y := by
    funext n y
    simp [Steer.left, Steer.plain, held]
  rw [this, Table.mapWith_self]
  rfl

/-! ### The steer of a hold (R63) -/

theorem heldSteerOf_none {h : Nat × Nat} {l : Table Steer} :
    heldSteerOf h l = none ↔ ∀ q ∈ l, q.2.holdBay ≠ some h := by
  simp [heldSteerOf, List.find?_eq_none]

/-- The only steer of a hold is the one found for it. -/
theorem heldSteerOf_unique {h : Nat × Nat} {l : Table Steer} {id : Nat} {x : Steer} (mem : (id, x) ∈ l)
    (held : x.holdBay = some h) (only : ∀ q ∈ l, q.2.holdBay = some h → q.1 = id) : heldSteerOf h l = some id := by
  cases found : heldSteerOf h l with
  | none => exact absurd held (heldSteerOf_none.1 found _ mem)
  | some m =>
    obtain ⟨q, hq, rfl⟩ := Option.map_eq_some_iff.1 found
    have holds := List.find?_some hq
    exact congrArg some (only q (List.mem_of_find?_eq_some hq) (by simpa using holds))

theorem heldSteerOf_some {h : Nat × Nat} {l : Table Steer} {id : Nat} (found : heldSteerOf h l = some id) :
    ∃ x, (id, x) ∈ l ∧ x.holdBay = some h := by
  obtain ⟨q, hq, rfl⟩ := Option.map_eq_some_iff.1 found
  have holds := List.find?_some hq
  exact ⟨q.2, List.mem_of_find?_eq_some hq, by simpa using holds⟩

/-- A steer told of the end of its hold leaves every zone as it was: it is not in transit to a free bay (R8, R63). -/
theorem tellSteers_zones (wf : s.steers.wf = true) (h : Nat × Nat) (e : HoldEnding) : (tellSteers h e s).zones = s.zones := by
  unfold tellSteers
  split
  · rfl
  · next id found =>
    obtain ⟨x, mem, held⟩ := heldSteerOf_some found
    exact retireSteer_held (Table.find_of_mem wf mem) held _

/-! ### Changes of a bay (R24) -/

theorem Counts.upd_upd (c : Counts) (k : BayKind) (f g : KindCounts → KindCounts) :
    (c.upd k f).upd k g = c.upd k fun n => g (f n) := by cases k <;> rfl

/-- A zone record with one bay of a kind moved from one category to another (R24). -/
def Zone.recategorized (k : BayKind) (a a' : Category) (y : Zone) : Zone :=
  if a = a' then y else { y with counts := y.counts.upd k fun c => (c.upd a (· - 1)).upd a' (· + 1) }

/-- The zone records after a bay that keeps its kind is changed (R24). -/
theorem changeBay_zone_find {g z i : Nat} {b : Bay} {f : Bay → Bay} (hb : s.bays.find g = some b)
    (hh : handleOf s.zones g = some (z, i)) (kind : (f b).kind = b.kind) (n : Nat) :
    (changeBay g f s).zone n = (s.zone n).map fun y =>
      if n = z then y.recategorized b.kind b.category (f b).category else y := by
  rw [changeBay_zone f hb hh, moveCount, kind]
  by_cases same : b.category = (f b).category
  · rw [if_pos ⟨rfl, same⟩]
    show s.zone n = _
    simp [Zone.recategorized, same]
  · rw [if_neg fun e => same e.2, State.zone_updZone]
    show (if n = z then (s.zone n).map _ else s.zone n) = _
    split
    · simp [Zone.recategorized, same, Zone.updCounts, Counts.upd_upd]
    · simp

theorem Bay.hold_of_held {b : Bay} (h : b.category = .held) : b.hold.isSome = true := by
  unfold Bay.category at h
  split at h
  · cases h
  · split at h
    · assumption
    · split at h <;> cases h

theorem Bay.category_unheld {b : Bay} (h : b.hold = none) : b.category ≠ .held := by
  unfold Bay.category
  simp only [h, Option.isSome_none, Bool.false_eq_true, if_false]
  repeat' split
  all_goals simp

/-! ### The end of a hold (R40 to R43, R63) -/

/-- A held bay changed in an event that ends its hold. -/
theorem changeBayEnding_of_held {g z i : Nat} {b : Bay} (hb : s.bays.find g = some b)
    (hh : handleOf s.zones g = some (z, i)) (held : b.hold.isSome = true) (e : HoldEnding) (f : Bay → Bay) :
    changeBayEnding g e f s =
      tellSteers (z, i) e (reportEnding (z, i) e (changeBay g (fun x => f { x with hold := none }) s)) := by
  simp [changeBayEnding, hb, hh, held]

theorem reportEnding_source {h : Nat × Nat} {e : HoldEnding} (he : e ≠ .taken) (n : Nat) (s : State) :
    (reportEnding h e s).source n =
      if n = 13 then (s.source 13).raise s.partTime (maskOf [h.1]) (handleBytes h ++ u8 e.code) else s.source n := by
  rw [reportEnding]
  simp only [if_neg he, State.source_raise, srcHoldEnded, Nat.reduceLT, and_true]
  rfl

theorem reportEnding_holdCount (h : Nat × Nat) (e : HoldEnding) (s : State) :
    (reportEnding h e s).holdCount = s.holdCount - 1 := by
  unfold reportEnding
  dsimp only
  split <;> rfl

/-- What the end of a hold on a HELD bay leaves, outside a redirect pass (R24, R40 to R43, R63). -/
theorem changeBayEnding_holdEnded {g z i : Nat} {r : Zone} {b : Bay} {e : HoldEnding} {f : Bay → Bay}
    (names : Names s z i g r b) (held : b.category = .held) (he : e ≠ .taken) (outcome : e.outcome = .cancelled)
    (wf : s.steers.wf = true)
    (kind : (f { b with hold := none }).kind = b.kind) (unheld : (f { b with hold := none }).hold = none) :
    HoldEnded z i g e.code r b (f { b with hold := none }) s (changeBayEnding g e f s) := by
  obtain ⟨_, _, hz, _, _, hh, hb⟩ := names
  let F : Bay → Bay := fun x => f { x with hold := none }
  let s₁ := changeBay g F s
  let s₂ := reportEnding (z, i) e s₁
  have ended : changeBayEnding g e f s = tellSteers (z, i) e s₂ :=
    changeBayEnding_of_held hb hh (Bay.hold_of_held held) e f
  have changed : SameExcept [.bays, .zones] s s₁ := (changeBay_frame (by decide) g F).2 (.refl _ s)
  have reported : SameExcept [.holdCount, .sources] s₁ s₂ := (reportEnding_frame (by decide) _ e).2 (.refl _ s₁)
  have told : SameExcept [.zones, .steers, .passages] s₂ (tellSteers (z, i) e s₂) :=
    (tellSteers_frame (by decide) _ e).2 (.refl _ s₂)
  have before : SameExcept [.bays, .zones, .holdCount, .sources] s s₂ :=
    (reportEnding_frame (by decide) _ e).2 ((changeBay_frame (by decide) g F).2 (.refl _ s))
  have steers : s₂.steers = s.steers := before .steers (by decide)
  have passages : s₂.passages = s.passages := before .passages (by decide)
  have sources : s₁.sources = s.sources := changed .sources (by decide)
  have time : s₁.partTime = s.partTime := changed .partTime (by decide)
  have zones : (tellSteers (z, i) e s₂).zones = s₁.zones :=
    (tellSteers_zones (steers ▸ wf) _ e).trans (reported .zones (by decide))
  have bays : (tellSteers (z, i) e s₂).bays = s₁.bays := Eq.trans (told .bays (by decide)) (reported .bays (by decide))
  have holds : (tellSteers (z, i) e s₂).holdCount = s₂.holdCount := told .holdCount (by decide)
  have latches : (tellSteers (z, i) e s₂).sources = s₂.sources := told .sources (by decide)
  have zone (n : Nat) : (tellSteers (z, i) e s₂).zone n = (s.zone n).map fun y =>
      if n = z then y.recategorized b.kind b.category (F b).category else y := by
    rw [State.zone, zones]
    exact changeBay_zone_find hb hh kind n
  have source (n : Nat) : (tellSteers (z, i) e s₂).source n =
      if n = 13 then (s.source 13).raise s.partTime (maskOf [z]) (number 1 z ++ number 1 i ++ number 1 e.code)
      else s.source n := by
    rw [State.source, latches]
    refine (reportEnding_source he n s₁).trans ?_
    rw [State.source, State.source, sources, time]
    rfl
  rw [ended]
  refine ⟨?_, fun n hn => ?_, ?_, ?_, fun n hn => ?_, ?_, fun n hn => ?_, fun free => ?_, fun id y _ mem hy only => ?_⟩
  · rw [bays, changeBay_find, if_pos rfl, hb]
    rfl
  · rw [bays, changeBay_find, if_neg hn]
  · rw [holds]
    have count : s₁.holdCount = s.holdCount := changed .holdCount (by decide)
    rw [reportEnding_holdCount, count]
  · have moved : b.category ≠ (F b).category := fun e => Bay.category_unheld unheld (e ▸ held)
    rw [zone z, hz, held, Option.map_some, if_pos rfl, Zone.recategorized, if_neg (held ▸ moved)]
  · rw [zone n]
    simp [hn]
  · rw [source, if_pos rfl]
  · rw [source, if_neg hn]
  · have found : heldSteerOf (z, i) s₂.steers = none := heldSteerOf_none.2 (by rw [steers]; exact free)
    rw [tellSteers, found]
    exact ⟨steers, passages⟩
  · have found : heldSteerOf (z, i) s₂.steers = some id := by
      rw [steers]
      exact heldSteerOf_unique mem hy only
    have retired := retireSteer_retired (s := s₂) (steers ▸ Table.find_of_mem wf mem) .cancelled
    rw [tellSteers, found, outcome]
    rwa [Retired, steers, passages] at retired

/-! ### CANCEL_STEER (R65) -/

theorem needRecord_range {α : Type} {slots n : Nat} (h : slots ≤ n) (t : Table α) :
    needRecord slots t n = .error (Reply.refuse .range) := by simp [needRecord, Nat.not_lt.2 h]

theorem needRecord_none {α : Type} {slots n : Nat} {t : Table α} (h : n < slots) (ht : t.find n = none) :
    needRecord slots t n = .error (Reply.refuse .noRecord) := by simp [needRecord, h, ht]

theorem needRecord_some {α : Type} {slots n : Nat} {t : Table α} {x : α} (h : n < slots) (ht : t.find n = some x) :
    needRecord slots t n = .ok x := by simp [needRecord, h, ht]

/-- CANCEL_STEER after its id is read. -/
theorem serveCancelSteer_eq (client : Nat) {id : Nat} (h : id < 256) (s : State) :
    serveCancelSteer client (number 1 id) s =
      served s (needRecord Config.steerSlots s.steers id >>= fun x =>
        .ok (Reply.done (steerRecord id x), cancelSteer id x s)) := by
  rw [serveCancelSteer, (reads_number_one h).fields_last]
  rfl

/-- A steer's record in a response, field by field. -/
theorem steerRecord_eq (id : Nat) (x : Steer) :
    steerRecord id x = number 1 id ++ number 1 x.state.code ++ number 1 x.origin ++ number 1 x.kind.code ++
      flagByte x.long ++ number 1 x.vclass.code ++ number 1 x.target ++ optBytes (number 1) x.firstTarget ++
      number 4 x.issued ++ number 4 x.deadline ++ optBytes handleBytes x.holdBay := rfl

theorem cancelSteer_plain {id : Nat} {x : Steer} (plain : x.holdBay = none) (s : State) :
    cancelSteer id x s = retireSteer id .cancelled s := by rw [cancelSteer, plain]

theorem cancelSteer_held {id z i g : Nat} {x : Steer} {r : Zone} {b : Bay} (held : x.holdBay = some (z, i))
    (names : Names s z i g r b) : cancelSteer id x s = changeBayEnding g .released (fun b => b) s := by
  obtain ⟨_, _, hz, _, rfl, _, _⟩ := names
  rw [cancelSteer, held]
  simp only [hz]

end Sys2Proof.Machine

open Sys2Proof Sys2Proof.Machine

/-- Settles O31: a plain steer is retired, a held one through the end of its hold. -/
theorem cancelSteerRetiresAPlainSteer : Obligations.CancelSteerRetiresAPlainSteer := by
  intro client tag id s hr hid
  have serve := serveCancelSteer_eq client.toNat hid (received (number 1 id) s)
  refine ⟨fun high => ?_, fun low free => ?_, fun x low found plain => ?_, fun x z i g r b low wf mem held only names cat => ?_⟩
  · rw [needRecord_range (show Config.steerSlots ≤ id from high)] at serve
    exact answered_unchanged hr serve
  · rw [needRecord_none (t := (received _ s).steers) (show id < Config.steerSlots from low) free] at serve
    exact answered_unchanged hr serve
  · rw [needRecord_some (t := (received _ s).steers) (show id < Config.steerSlots from low) found,
      Check.ok_bind, served_ok, steerRecord_eq, plain, cancelSteer_plain plain] at serve
    have found' : (received (number 1 id) s).steers.find id = some x := found
    have changed : SameExcept [.steers, .zones, .passages] (received (number 1 id) s) (retireSteer id .cancelled _) :=
      (retireSteer_frame (by decide) id .cancelled).2 (.refl _ _)
    obtain ⟨gone, others, counted⟩ := retireSteer_retired found' .cancelled
    exact ⟨_, congrArg Host.Outcome.next (request_of_rule hr serve), respond_except tag _ changed, gone, others,
      retireSteer_plain found' plain .cancelled, counted, rfl⟩
  · have found := Table.find_of_mem wf mem
    have names' : Names (received (number 1 id) s) z i g r b := names
    rw [needRecord_some (t := (received _ s).steers) (show id < Config.steerSlots from low) found,
      Check.ok_bind, served_ok, steerRecord_eq, held, cancelSteer_held held names'] at serve
    have changed : SameExcept steerFields (received (number 1 id) s) (changeBayEnding g .released (fun b => b) _) :=
      (changeBayEnding_frame (by decide) g .released _).2 (.refl _ _)
    have ended := changeBayEnding_holdEnded (s := received (number 1 id) s) (e := .released) (f := fun b => b) names' cat
      (by decide) rfl wf rfl rfl
    have ⟨_, _, _, _, _, _, _, _, retired⟩ := ended
    exact ⟨_, congrArg Host.Outcome.next (request_of_rule hr serve), respond_except tag _ changed, ended,
      retired id x wf mem held only, rfl⟩

end

section
/-!
SUPPORT. Zone choice and the redirect pass, record by record (R56, R66, R67), and O28.
-/
namespace Sys2Proof.Machine

variable {s t u : State}

/-! ### Zone choice (R56) -/

/-- The test of zone choice is that of R56. -/
theorem qualifies_iff (s : State) (k : BayKind) (long : Bool) (excluded : List Nat) (z : Nat) :
    (!excluded.contains z && s.zoneIs z (Zone.takes k long)) = true ↔ Qualifies s k long excluded z := by
  rw [Bool.and_eq_true, Qualifies]
  refine and_congr (by simp) ?_
  cases h : s.zone z with
  | none => simp [State.zoneIs, h]
  | some r =>
    have offers : 1 ≤ r.counts.offered k ↔ (r.counts.of k).inTransit < (r.counts.of k).free := by
      rw [Counts.offered]
      omega
    simp only [State.zoneIs, h, Zone.takes, Bool.and_eq_true, decide_eq_true_eq, offers, Option.some.injEq,
      exists_eq_left', and_assoc]
    cases long <;> simp

theorem zoneChoice_eq_some {l excluded : List Nat} {k : BayKind} {long : Bool} {z : Nat} :
    zoneChoice s l k long excluded = some z ↔
      ∃ l₁ l₂, l = l₁ ++ z :: l₂ ∧ Qualifies s k long excluded z ∧ ∀ y ∈ l₁, ¬Qualifies s k long excluded y := by
  simp only [zoneChoice, List.find?_eq_some_iff_append, ← qualifies_iff, Bool.not_eq_true']
  constructor
  · rintro ⟨hz, l₁, l₂, hl, before⟩
    exact ⟨l₁, l₂, hl, hz, fun y hy => by simpa using before y hy⟩
  · rintro ⟨l₁, l₂, hl, hz, before⟩
    exact ⟨hz, l₁, l₂, hl, fun y hy => by simpa using before y hy⟩

theorem zoneChoice_eq_none {l excluded : List Nat} {k : BayKind} {long : Bool} :
    zoneChoice s l k long excluded = none ↔ ∀ z ∈ l, ¬Qualifies s k long excluded z := by
  simp only [zoneChoice, List.find?_eq_none, qualifies_iff]

/-! ### The order of the pass (R57, R66) -/

/-- A canonical table lists its numbers strictly rising (R1). -/
theorem Table.pairwise_of_wf {α : Type} {t : Table α} (h : t.wf = true) : List.Pairwise (fun p q => p.1 < q.1) t := by
  induction t with
  | nil => exact .nil
  | cons p t ih =>
    obtain ⟨before, rest⟩ := Table.wf_cons.1 h
    exact .cons (fun q hq => before _ (List.mem_map.2 ⟨q, hq, rfl⟩)) (ih rest)

/-- One steer is no younger than another: by issued time, then by slot. -/
def NoYounger (p q : Nat × Steer) : Prop := p.2.issued < q.2.issued ∨ (p.2.issued = q.2.issued ∧ p.1 ≤ q.1)

theorem NoYounger.total (p q : Nat × Steer) : NoYounger p q ∨ NoYounger q p := by
  unfold NoYounger
  omega

theorem NoYounger.trans {p q r : Nat × Steer} (h : NoYounger p q) (k : NoYounger q r) : NoYounger p r := by
  unfold NoYounger at *
  omega

/-- The slots of the pass, oldest steer first. -/
theorem redirected_pairwise (closing : List Nat) (wf : s.steers.wf = true) :
    (redirected closing s).Pairwise fun m n => ∃ x y, s.steers.find m = some x ∧ s.steers.find n = some y ∧
      (x.issued < y.issued ∨ (x.issued = y.issued ∧ m < n)) := by
  let l : List (Nat × Steer) := s.steers.filter fun p => closing.contains p.2.target
  let r : Nat × Steer → Nat × Steer → Prop :=
    fun p q => p.2.issued < q.2.issued ∨ (p.2.issued = q.2.issued ∧ p.1 ≤ q.1)
  have total : Std.Total r := ⟨NoYounger.total⟩
  have trans : IsTrans _ r := ⟨fun _ _ _ => NoYounger.trans⟩
  have live (q) (hq : q ∈ l.insertionSort r) : s.steers.find q.1 = some q.2 :=
    Table.find_of_mem wf (List.mem_filter.1 ((List.mem_insertionSort r).1 hq)).1
  have sorted : (l.insertionSort r).Pairwise r := List.pairwise_insertionSort r l
  have distinct : (l.insertionSort r).Pairwise fun p q => p.1 ≠ q.1 :=
    ((List.perm_insertionSort r l).pairwise_iff Ne.symm).2
      (((Table.pairwise_of_wf wf).filter _).imp fun {_ _} lt => Nat.ne_of_lt lt)
  refine List.pairwise_map.2 ((sorted.and distinct).imp_of_mem fun hp hq ⟨older, ne⟩ =>
    ⟨_, _, live _ hp, live _ hq, older.imp_right fun ⟨same, le⟩ => ⟨same, lt_of_le_of_ne le ne⟩⟩)

theorem mem_redirected_iff (closing : List Nat) (wf : s.steers.wf = true) (id : Nat) :
    id ∈ redirected closing s ↔ ∃ x, s.steers.find id = some x ∧ x.target ∈ closing :=
  (mem_redirected closing s id).trans <| exists_congr fun _ =>
    and_congr_left fun _ => ⟨Table.find_of_mem wf, Table.mem_of_find⟩

/-! ### The hold given up (R67 step 1) -/

theorem transitUp_zone (z : Nat) (k : BayKind) (s : State) (n : Nat) :
    (transitUp z k s).zone n = (s.zone n).map fun y => if n = z then y.moreInTransit k else y := by
  rw [transitUp_eq]
  simp [State.zone]

theorem transitDown_zone (z : Nat) (k : BayKind) (s : State) (n : Nat) :
    (transitDown z k s).zone n = (s.zone n).map fun y => if n = z then y.lessInTransit k else y := by
  rw [transitDown_eq]
  simp [State.zone]

/-- A HELD bay whose hold goes while it stands empty is FREE. -/
theorem Bay.category_released {b : Bay} (held : b.category = .held) (empty : b.occupancy = .vacant ∨ b.occupancy = .arriving) :
    ({ b with hold := none } : Bay).category = .free := by
  have serves : (b.service = .outOfService || b.sense ≠ .sensed) = false := by
    unfold Bay.category at held
    split at held
    · cases held
    · next h => exact Bool.eq_false_iff.2 h
  rw [Bay.category, serves]
  rcases empty with e | e <;> simp [e]

/-- A steer that heads for a HELD bay gives up its hold and becomes plain (R43, R67 step 1). -/
theorem giveUpHold_held {id z i g : Nat} {x : Steer} {r : Zone} {b : Bay} (h : s.steers.find id = some x)
    (held : x.holdBay = some (z, i)) (names : Names s z i g r b) (cat : b.category = .held) :
    giveUpHold id s =
      steerBecomesPlain id (reportEnding (z, i) .released (changeBay g (fun b => { b with hold := none }) s)) := by
  obtain ⟨_, _, hz, _, rfl, _, hb⟩ := names
  have on : s.holdOn (r.config.bayBase + i) = true := by rw [State.holdOn, hb]; exact Bay.hold_of_held cat
  rw [giveUpHold, h]
  simp only [held, hz, releaseInRedirect, on, if_true]

theorem giveUpHold_plain {id : Nat} {x : Steer} (h : s.steers.find id = some x) (plain : x.holdBay = none) :
    giveUpHold id s = s := by
  rw [giveUpHold, h]
  simp only [plain]

theorem steerBecomesPlain_eq {id : Nat} {x : Steer} (h : s.steers.find id = some x) :
    steerBecomesPlain id s = transitUp x.target x.kind (s.setSteers (s.steers.put id { x with holdBay := none })) := by
  rw [steerBecomesPlain, h]

/-- Re-choosing a steer that has given up its hold is the pass on the state that this leaves. -/
theorem redirectOne_giveUpHold (closing : List Nat) {id : Nat} {x : Steer} (h : s.steers.find id = some x) :
    redirectOne closing s id = redirectOne closing (giveUpHold id s) id := by
  have plain : (giveUpHold id s).steers.find id = some { x with holdBay := none } := by
    rw [giveUpHold_find h, if_pos rfl]
  rw [redirectOne, redirectOne, giveUpHold_plain plain rfl]

/-- What a steer leaves of the records when it gives up the hold of an empty bay within the pass (R43, R67 step 1). -/
theorem giveUpHold_leaves {id z i g : Nat} {x : Steer} {r : Zone} {b : Bay} (h : s.steers.find id = some x)
    (held : x.holdBay = some (z, i)) (names : Names s z i g r b) (cat : b.category = .held)
    (empty : b.occupancy = .vacant ∨ b.occupancy = .arriving) :
    (giveUpHold id s).bays.find g = some { b with hold := none } ∧ OnlyBay g s (giveUpHold id s) ∧
      (giveUpHold id s).holdCount = s.holdCount - 1 ∧
      ZonesChanged (fun n y =>
        let y := if n = z then y.unheld b.kind else y
        if n = x.target then y.moreInTransit x.kind else y) s (giveUpHold id s) ∧
      (giveUpHold id s).source 13 = (s.source 13).raise s.partTime (maskOf [z]) (number 1 z ++ number 1 i ++ [0x02]) ∧
      ∀ n, n ≠ 13 → (giveUpHold id s).source n = s.source n := by
  rw [giveUpHold_held h held names cat]
  obtain ⟨_, _, _, _, _, hh, hb⟩ := names
  let F : Bay → Bay := fun b => { b with hold := none }
  let s₁ := changeBay g F s
  let s₂ := reportEnding (z, i) .released s₁
  have changed : SameExcept [.bays, .zones] s s₁ := (changeBay_frame (by decide) g F).2 (.refl _ s)
  have reported : SameExcept [.holdCount, .sources] s₁ s₂ := (reportEnding_frame (by decide) _ _).2 (.refl _ s₁)
  have before : SameExcept [.bays, .zones, .holdCount, .sources] s s₂ :=
    (reportEnding_frame (by decide) _ _).2 ((changeBay_frame (by decide) g F).2 (.refl _ s))
  have found : s₂.steers.find id = some x := Eq.trans (congrArg (Table.find · id) (before .steers (by decide))) h
  have plain : SameExcept [.zones, .steers] s₂ (steerBecomesPlain id s₂) :=
    (steerBecomesPlain_frame (by decide) id).2 (.refl _ s₂)
  have bays : (steerBecomesPlain id s₂).bays = s₁.bays := Eq.trans (plain .bays (by decide)) (reported .bays (by decide))
  have holds : (steerBecomesPlain id s₂).holdCount = s₂.holdCount := plain .holdCount (by decide)
  have latches : (steerBecomesPlain id s₂).sources = s₂.sources := plain .sources (by decide)
  have source (n : Nat) : (steerBecomesPlain id s₂).source n =
      if n = 13 then (s.source 13).raise s.partTime (maskOf [z]) (number 1 z ++ number 1 i ++ [0x02]) else s.source n := by
    have sources : s₁.sources = s.sources := changed .sources (by decide)
    have time : s₁.partTime = s.partTime := changed .partTime (by decide)
    rw [State.source, latches]
    refine (reportEnding_source (by decide) n s₁).trans ?_
    rw [State.source, State.source, sources, time]
    rfl
  refine ⟨?_, fun n hn => ?_, ?_, fun n => ?_, ?_, fun n hn => ?_⟩
  · rw [bays, changeBay_find, if_pos rfl, hb]
    rfl
  · rw [bays, changeBay_find, if_neg hn]
  · have count : s₁.holdCount = s.holdCount := changed .holdCount (by decide)
    rw [holds, reportEnding_holdCount, count]
  · have zones : (s₂.setSteers (s₂.steers.put id { x with holdBay := none })).zone n = s₁.zone n :=
      congrArg (Table.find · n) (reported .zones (by decide))
    have freed : (F b).category = .free := Bay.category_released cat empty
    rw [steerBecomesPlain_eq found, transitUp_zone, zones, changeBay_zone_find hb hh rfl, cat, freed, Option.map_map]
    rfl
  · rw [source, if_pos rfl]
  · rw [source, if_neg hn]

/-! ### A plain steer re-chosen (R67 steps 2 and 3) -/

theorem rechoose_moved {closing : List Nat} {id z : Nat} {x : Steer} {p : Passage} (h : s.steers.find id = some x)
    (hp : s.passages.find x.origin = some p)
    (hz : zoneChoice s p.config.preference x.kind x.long closing = some z) :
    rechoose closing id s = presence z (transitUp z x.kind (transitDown x.target x.kind
      (s.setSteers (s.steers.put id (x.moveTo s.partTime z (s.travelTime z)))))) := by
  rw [rechoose, h]
  simp only [hp, hz]

theorem rechoose_cancelled {closing : List Nat} {id : Nat} {x : Steer} (h : s.steers.find id = some x)
    (none_ : ∀ p, s.passages.find x.origin = some p → zoneChoice s p.config.preference x.kind x.long closing = none) :
    rechoose closing id s = retireSteer id .cancelled s := by
  rw [rechoose, h]
  cases hp : s.passages.find x.origin with
  | none => simp only [hp]
  | some p => simp only [hp, none_ p hp]

/-- A zone gives its lamp groups the same levels in two states (R124). -/
def SameLight (s t : State) (z : Nat) : Prop :=
  ∀ d g, settleGroup d (t.zone z) g = settleGroup d (s.zone z) g

/-- The level of a lamp group reads the fire state, air state and stack of its zone alone (R124). -/
theorem SameLight.of_map {z : Nat} {f : Zone → Zone} (h : t.zone z = (s.zone z).map f)
    (keeps : ∀ y, (f y).fire = y.fire ∧ (f y).air.state = y.air.state ∧ (f y).stack = y.stack) : SameLight s t z := by
  intro d g
  rw [h]
  cases s.zone z with
  | none => rfl
  | some y =>
    obtain ⟨fire, air, stack⟩ := keeps y
    simp only [Option.map_some, settleGroup, lampLevel, fire, air, stack]

theorem SameLight.trans {z : Nat} (h : SameLight s t z) (k : SameLight t u z) : SameLight s u z :=
  fun d g => (k d g).trans (h d g)

/-- Presence in one zone (R122). -/
theorem presence_brightened {z : Nat} (device : t.device = s.device) (zone : SameLight s t z)
    (time : t.partTime = s.partTime) (lamps : t.lamps = s.lamps) : Brightened [z] s (presence z t) := fun n => by
  rw [presence_find, lamps, device, time]
  congr 1
  funext g
  simp only [List.mem_singleton]
  split
  · next e =>
    subst e
    exact zone _ _
  · rfl

/-- What a steer that is moved leaves of the records (R67 step 3). -/
theorem rechoose_moved_leaves {closing : List Nat} {id z : Nat} {x : Steer} {p : Passage} {y : Zone}
    (h : s.steers.find id = some x) (hp : s.passages.find x.origin = some p)
    (hz : zoneChoice s p.config.preference x.kind x.long closing = some z) (hy : s.zone z = some y) (ne : z ≠ x.target) :
    SameExcept [.steers, .zones, .lamps] s (rechoose closing id s) ∧
      (∀ m, (rechoose closing id s).steers.find m =
        if m = id then some (x.moveTo s.partTime z y.config.travelTime) else s.steers.find m) ∧
      ZonesChanged (fun n y =>
        if n = x.target then y.lessInTransit x.kind else if n = z then y.moreInTransit x.kind else y) s
        (rechoose closing id s) ∧
      Brightened [z] s (rechoose closing id s) := by
  have travel : s.travelTime z = y.config.travelTime := by rw [State.travelTime, hy]
  rw [rechoose_moved h hp hz, travel]
  let put := s.setSteers (s.steers.put id (x.moveTo s.partTime z y.config.travelTime))
  let t := transitUp z x.kind (transitDown x.target x.kind put)
  have zones (n : Nat) : t.zone n = (s.zone n).map fun y =>
      if n = x.target then y.lessInTransit x.kind else if n = z then y.moreInTransit x.kind else y := by
    rw [transitUp_zone, transitDown_zone, Option.map_map]
    show (s.zone n).map _ = _
    congr 1
    funext w
    by_cases e : n = x.target
    · simp [e, ne.symm]
    · simp [e]
  have light : SameLight s t z := .of_map (zones z) fun y => by split; exacts [⟨rfl, rfl, rfl⟩, by split <;> exact ⟨rfl, rfl, rfl⟩]
  have changed : SameExcept [.steers, .zones] s t :=
    (transitUp_frame (by decide) _ _).2 ((transitDown_frame (by decide) _ _).2 ((State.setSteers_frame (by decide) _).2 (.refl _ s)))
  exact ⟨(presence_frame (by decide) z).2 (changed.mono (by decide)), fun m => Table.find_put _ _ _ _, zones,
    presence_brightened (changed .device (by decide)) light (changed .partTime (by decide)) (changed .lamps (by decide))⟩

end Sys2Proof.Machine

open Sys2Proof Sys2Proof.Machine

/-- Settles O28: the tests and the order are read off the list; one steer of the pass gives up its hold, if it has one,
and is then moved or retired. -/
theorem zoneChoiceTakesTheFirstZoneThatQualifies : Obligations.ZoneChoiceTakesTheFirstZoneThatQualifies := by
  refine ⟨fun s l excluded k long => ⟨fun z => zoneChoice_eq_some, zoneChoice_eq_none⟩,
    fun closing s wf => ⟨redirected closing s, rfl, mem_redirected_iff closing wf, redirected_pairwise closing wf⟩,
    fun closing id x s h => ⟨fun z i g r b held names cat empty => ?_, fun plain closes => ⟨fun p z y hp hz hy => ?_, fun none_ => ?_⟩⟩⟩
  · obtain ⟨bay, others, holds, zones, raised, quiet⟩ := giveUpHold_leaves h held names cat empty
    exact ⟨giveUpHold id s, redirectOne_giveUpHold closing h, (giveUpHold_frame (by decide) id).2 (.refl _ s), bay, others,
      holds, by rw [giveUpHold_find h, if_pos rfl], fun m hm => by rw [giveUpHold_find h, if_neg hm], zones, raised, quiet⟩
  · obtain ⟨_, out, _⟩ := zoneChoice_some hz
    have ne : z ≠ x.target := fun e => out (e ▸ closes)
    obtain ⟨frame, steers, zones, lamps⟩ := rechoose_moved_leaves h hp hz hy ne
    rw [redirectOne, giveUpHold_plain h plain]
    exact ⟨out, frame, by rw [steers, if_pos rfl]; rfl, fun m hm => by rw [steers, if_neg hm], zones, lamps⟩
  · rw [redirectOne, giveUpHold_plain h plain, rechoose_cancelled h none_]
    exact ⟨(retireSteer_frame (by decide) id _).2 (.refl _ s), retireSteer_retired h _, retireSteer_plain h plain _⟩

end

section
/-!
SUPPORT. The slot for a new steer, the hold of a kiosk steer, and what a steer that is issued leaves of each record (R39,
R57, R59, R61).
-/
namespace Sys2Proof.Machine

variable {s t u v : State}

/-! ### The slot (R59) -/

theorem freeSlot_eq_some {id : Nat} : freeSlot s = some id ↔
    id < 96 ∧ s.steers.find id = none ∧ ∀ m, m < id → s.steers.find m ≠ none := by
  simp [freeSlot, List.find?_range_eq_some, Table.has, Config.steerSlots, Option.ne_none_iff_isSome, and_left_comm]

theorem freeSlot_eq_none : freeSlot s = none ↔ ∀ m, m < 96 → s.steers.find m ≠ none := by
  simp [freeSlot, Table.has, Config.steerSlots, Option.ne_none_iff_isSome]

/-- The oldest steer that passes a test is the one found (R57). -/
theorem oldestSteer_eq_some {p : Steer → Bool} {l : Table Steer} {id : Nat} {x : Steer} (wf : l.wf = true)
    (mem : (id, x) ∈ l) (hx : p x = true)
    (oldest : ∀ q ∈ l, p q.2 = true → x.issued < q.2.issued ∨ (x.issued = q.2.issued ∧ id ≤ q.1)) :
    oldestSteer p l = some (id, x) := by
  induction l with
  | nil => cases mem
  | cons q l ih =>
    obtain ⟨n, y⟩ := q
    obtain ⟨before, rest⟩ := Table.wf_cons.1 wf
    rw [oldestSteer]
    rcases List.mem_cons.1 mem with e | mem'
    · obtain ⟨rfl, rfl⟩ := Prod.mk.inj e
      rw [if_pos hx]
      cases found : oldestSteer p l with
      | none => rfl
      | some q =>
        obtain ⟨inRest, passes⟩ := oldestSteer_mem found
        have older := oldest q (List.mem_cons_of_mem _ inRest) passes
        have : x.issued ≤ q.2.issued := by omega
        simp only [this, if_true]
    · rw [ih rest mem' fun q hq => oldest q (List.mem_cons_of_mem _ hq)]
      split
      · next hy =>
        have older : x.issued < y.issued ∨ (x.issued = y.issued ∧ id ≤ n) := oldest (n, y) List.mem_cons_self hy
        have : n < id := before id (List.mem_map.2 ⟨_, mem', rfl⟩)
        have : ¬y.issued ≤ x.issued := by omega
        simp only [this, if_false]
      · rfl

theorem oldestSteer_eq_none {p : Steer → Bool} {l : Table Steer} (h : ∀ q ∈ l, p q.2 = false) : oldestSteer p l = none := by
  cases found : oldestSteer p l with
  | none => rfl
  | some q =>
    obtain ⟨mem, passes⟩ := oldestSteer_mem found
    exact absurd (h q mem) (by simp [passes])

theorem takeSlot_of_free {id : Nat} (h : freeSlot s = some id) : takeSlot s = some (id, s) := by rw [takeSlot, h]

theorem takeSlot_of_full (h : freeSlot s = none) :
    takeSlot s = (oldestSteer Steer.plain s.steers).map fun q => (q.1, retireSteer q.1 .displaced s) := by
  rw [takeSlot, h]
  simp only
  split <;> simp [*]

theorem Steer.plain_iff {x : Steer} : x.plain = true ↔ x.holdBay = none := Option.isNone_iff_eq_none

/-- What the displacement that frees a slot, if one is needed, does to a zone's record. -/
def displacedZone : Option Steer → Nat → Zone → Zone
  | none, _, y => y
  | some x, n, y => x.left n y

/-- What the displacement that frees a slot, if one is needed, does to a passage's record. -/
def displacedPassage : Option Steer → Nat → Passage → Passage
  | none, _, q => q
  | some x, n, q => if n = x.origin then { q with counters := { q.counters with cancelled := q.counters.cancelled + 1 } } else q

/-- The state after a slot has been taken, by displacement of a steer or by none (R59). -/
structure Displaces (o : Option Steer) (steers : Table Steer) (s u : State) : Prop where
  frame : SameExcept [.steers, .zones, .passages] s u
  steers : u.steers = steers
  zones : u.zones = s.zones.mapWith (displacedZone o)
  passages : ∀ n, u.passages.find n = (s.passages.find n).map (displacedPassage o n)

/-- The steer table alone says which slot is taken, and what displacement frees it. -/
theorem takeSlot_some {id : Nat} (h : takeSlot s = some (id, u)) :
    ∃ o steers, ∀ v, v.steers = s.steers → ∃ w, takeSlot v = some (id, w) ∧ Displaces o steers v w := by
  have stays (v : State) (hv : v.steers = s.steers) : Displaces none s.steers v v :=
    ⟨.refl _ _, hv, (Table.mapWith_self v.zones).symm, fun n => by cases v.passages.find n <;> rfl⟩
  cases hf : freeSlot s with
  | some m =>
    have free (v : State) (hv : v.steers = s.steers) : freeSlot v = some m := by rw [freeSlot, hv]; exact hf
    obtain ⟨rfl, rfl⟩ := Prod.mk.inj (Option.some.inj ((takeSlot_of_free hf).symm.trans h))
    exact ⟨none, s.steers, fun v hv => ⟨v, takeSlot_of_free (free v hv), stays v hv⟩⟩
  | none =>
    have full (v : State) (hv : v.steers = s.steers) : freeSlot v = none := by rw [freeSlot, hv]; exact hf
    rw [takeSlot_of_full hf] at h
    obtain ⟨q, found, e⟩ := Option.map_eq_some_iff.1 h
    obtain ⟨rfl, rfl⟩ := Prod.mk.inj e
    have taken (v : State) (hv : v.steers = s.steers) : takeSlot v = some (q.1, retireSteer q.1 .displaced v) := by
      rw [takeSlot_of_full (full v hv), hv, found]
      rfl
    cases hx : s.steers.find q.1 with
    | none =>
      refine ⟨none, s.steers, fun v hv => ⟨_, taken v hv, ?_⟩⟩
      rw [retireSteer_of_free (hv ▸ hx)]
      exact stays v hv
    | some x =>
      refine ⟨some x, s.steers.del q.1, fun v hv => ⟨_, taken v hv, ?_, ?_, ?_, ?_⟩⟩
      · exact (retireSteer_frame (by decide) _ _).2 (.refl _ v)
      · rw [retireSteer_steers, hv, hx]
      · rw [retireSteer_of_find (hv ▸ hx)]
        rfl
      · exact (retireSteer_retired (hv ▸ hx) _).2.2

theorem displacedZone_recounted (o : Option Steer) (n : Nat) (y : Zone) : y.Recounted (displacedZone o n y) := by
  cases o with
  | none => exact .refl y
  | some x => exact x.recounted_left n y

theorem Zone.Recounted.config {y y' : Zone} (h : y.Recounted y') : y'.config = y.config := by
  obtain ⟨_, rfl, _⟩ := h
  rfl

theorem Zone.Recounted.light {y y' : Zone} (h : y.Recounted y') :
    y'.fire = y.fire ∧ y'.air.state = y.air.state ∧ y'.stack = y.stack := by
  obtain ⟨_, rfl, _⟩ := h
  exact ⟨rfl, rfl, rfl⟩

theorem Displaces.zone {o : Option Steer} {l : Table Steer} (h : Displaces o l s u) (n : Nat) :
    u.zone n = (s.zone n).map (displacedZone o n) := by rw [State.zone, h.zones, Table.find_mapWith, State.zone]

theorem Displaces.light {o : Option Steer} {l : Table Steer} (h : Displaces o l s u) (n : Nat) : SameLight s u n :=
  .of_map (h.zone n) fun y => (displacedZone_recounted o n y).light

/-- Handles rest on the ranges alone (R2, R5). -/
theorem handleOf_mapWith {f : Nat → Zone → Zone} (h : ∀ n y, (f n y).config = y.config) (zones : Table Zone) (g : Nat) :
    handleOf (zones.mapWith f) g = handleOf zones g := by
  induction zones with
  | nil => rfl
  | cons q zones ih =>
    have ih' : handleOf (List.map (fun p => (p.1, f p.1 p.2)) zones) g = handleOf zones g := ih
    simp only [Table.mapWith, List.map_cons, handleOf, h, ih']

theorem Displaces.names {o : Option Steer} {l : Table Steer} {z i g : Nat} {r : Zone} {b : Bay} (h : Displaces o l s u)
    (names : Names s z i g r b) : Names u z i g (displacedZone o z r) b := by
  obtain ⟨lz, li, hz, inRange, hg, hh, hb⟩ := names
  have config := (displacedZone_recounted o z r).config
  have bays : u.bays = s.bays := h.frame .bays (by decide)
  refine ⟨lz, li, ?_, config ▸ inRange, config ▸ hg, ?_, ?_⟩
  · rw [h.zone, hz]
    rfl
  · rw [h.zones, handleOf_mapWith fun n y => (displacedZone_recounted o n y).config]
    exact hh
  · rw [bays]
    exact hb

/-! ### The bay that an any-form CLAIM takes (R39) -/

theorem Bay.takes_iff {k : BayKind} {level : Nat} {b : Bay} :
    (b.claimable k level && b.occupancy = .vacant) = true ↔ b.Takes k level := by
  simp [Bay.claimable, Bay.Takes, and_assoc, and_comm, and_left_comm]

/-- The bays of a zone are searched by index. -/
theorem zoneBays_find? (r : Zone) (p : Bay → Bool) (s : State) :
    ((zoneBays r s).find? fun q => p q.2).map Prod.fst =
      (List.range r.config.bayCount).find? fun i => (s.bays.find (r.config.bayBase + i)).any p := by
  rw [zoneBays, List.find?_filterMap]
  have test : (fun i => ((s.bays.find (r.config.bayBase + i)).map fun b => (i, b)).any fun q => p q.2) =
      fun i => (s.bays.find (r.config.bayBase + i)).any p := by
    funext i
    rw [Option.any_map]
  rw [test]
  cases h : (List.range r.config.bayCount).find? fun i => (s.bays.find (r.config.bayBase + i)).any p with
  | none => rfl
  | some i =>
    obtain ⟨hit, _⟩ := List.find?_range_eq_some.1 h
    obtain ⟨b, hb, _⟩ := (Option.any_eq_true _ _).1 hit
    rw [Option.bind_some, hb]
    rfl

theorem claimIndex_eq (r : Zone) (k : BayKind) (level : Nat) (s : State) :
    claimIndex r k level s = (List.range r.config.bayCount).find? fun i =>
      (s.bays.find (r.config.bayBase + i)).any fun b => b.claimable k level && b.occupancy = .vacant :=
  zoneBays_find? r (fun b => b.claimable k level && b.occupancy = .vacant) s

theorem takes_of_any {k : BayKind} {level : Nat} {o : Option Bay} :
    (o.any fun b => b.claimable k level && b.occupancy = .vacant) = true ↔ ∃ b, o = some b ∧ b.Takes k level := by
  simp only [Option.any_eq_true, Bay.takes_iff]

theorem claimIndex_eq_some {r : Zone} {k : BayKind} {level i : Nat} {b : Bay} (hi : i < r.config.bayCount)
    (hb : s.bays.find (r.config.bayBase + i) = some b) (takes : b.Takes k level)
    (first : ∀ j c, j < i → s.bays.find (r.config.bayBase + j) = some c → ¬c.Takes k level) :
    claimIndex r k level s = some i := by
  rw [claimIndex_eq, List.find?_range_eq_some]
  refine ⟨takes_of_any.2 ⟨b, hb, takes⟩, List.mem_range.2 hi, fun j hj => ?_⟩
  rw [Bool.not_eq_true', Bool.eq_false_iff, ne_eq, takes_of_any]
  rintro ⟨c, hc, taken⟩
  exact first j c hj hc taken

theorem claimIndex_eq_none {r : Zone} {k : BayKind} {level : Nat}
    (none_ : ∀ j c, j < r.config.bayCount → s.bays.find (r.config.bayBase + j) = some c → ¬c.Takes k level) :
    claimIndex r k level s = none := by
  rw [claimIndex_eq, List.find?_range_eq_none]
  intro j hj
  rw [Bool.not_eq_true', Bool.eq_false_iff, ne_eq, takes_of_any]
  rintro ⟨c, hc, taken⟩
  exact none_ j c hj hc taken

/-- The search rests on the zone's range, the bays and the level alone. -/
theorem claimIndex_congr {r r' : Zone} (config : r'.config = r.config) (bays : t.bays = s.bays) (k : BayKind) (level : Nat) :
    claimIndex r' k level t = claimIndex r k level s := by rw [claimIndex_eq, claimIndex_eq, config, bays]

/-! ### A hold made (R36, R38) -/

/-- A zone record with one FREE bay of a kind less and one HELD more. -/
def Zone.nowHeld (k : BayKind) (z : Zone) : Zone :=
  { z with counts := z.counts.upd k fun c => { c with free := c.free - 1, held := c.held + 1 } }

/-- A hold puts a FREE bay into HELD (R23). -/
theorem Bay.category_held {b : Bay} (free : b.category = .free) (x : Hold) :
    ({ b with hold := some x } : Bay).category = .held := by
  have serves : (b.service = .outOfService || b.sense ≠ .sensed) = false := by
    unfold Bay.category at free
    split at free
    · cases free
    · next h => exact Bool.eq_false_iff.2 h
  rw [Bay.category, serves]
  rfl

/-- What a new hold on a FREE bay leaves of the records (R24, R36, R38). -/
theorem makeHold_leaves {z i g : Nat} {r : Zone} {b : Bay} (names : Names s z i g r b) (free : b.category = .free) (x : Hold) :
    (makeHold g x s).bays.find g = some { b with hold := some x } ∧ OnlyBay g s (makeHold g x s) ∧
      (makeHold g x s).holdCount = s.holdCount + 1 ∧
      ZonesChanged (fun n y => if n = z then y.nowHeld b.kind else y) s (makeHold g x s) := by
  obtain ⟨_, _, _, _, _, hh, hb⟩ := names
  let F : Bay → Bay := fun b => { b with hold := some x }
  have changed : SameExcept [.bays, .zones] s (changeBay g F s) := (changeBay_frame (by decide) g F).2 (.refl _ s)
  have count : (changeBay g F s).holdCount = s.holdCount := changed .holdCount (by decide)
  refine ⟨?_, fun n hn => ?_, congrArg (· + 1) count, fun n => ?_⟩
  · refine (changeBay_find g g F s).trans ?_
    rw [if_pos rfl, hb]
    rfl
  · exact (changeBay_find g n F s).trans (if_neg hn)
  · refine (changeBay_zone_find hb hh (f := F) rfl n).trans ?_
    rw [free, Bay.category_held free x]
    rfl

/-! ### The hold of a kiosk steer (R61) -/

theorem steerHold_taken {client z i : Nat} {f : SteerFields} {r : Zone} (hz : s.zone z = some r) (wish : f.holdWish = true)
    (found : claimIndex r f.kind (s.clientLevel client) s = some i) (room : s.holdCount < 256) :
    steerHold client f z s = some (i, s.partTime + max r.config.travelTime 300, makeHold (r.config.bayBase + i)
      { client := client, tag := f.tag, expiry := s.partTime + max r.config.travelTime 300 } s) := by
  have room' : s.holdCount < Config.holdLimit := room
  simp only [steerHold, hz, wish, if_true, claimAny, found, room', Option.map_some]
  rfl

theorem steerHold_none {client z : Nat} {f : SteerFields} {r : Zone} (hz : s.zone z = some r)
    (h : f.holdWish = false ∨ 256 ≤ s.holdCount ∨ claimIndex r f.kind (s.clientLevel client) s = none) :
    steerHold client f z s = none := by
  cases found : steerHold client f z s with
  | none => rfl
  | some a =>
    obtain ⟨i, e, t⟩ := a
    obtain ⟨r', hz', wish, index, room, _, _⟩ := steerHold_some found
    obtain rfl : r = r' := Option.some.inj (hz.symm.trans hz')
    have room' : s.holdCount < 256 := room
    rcases h with h | h | h
    · rw [h] at wish
      cases wish
    · omega
    · rw [h] at index
      cases index

/-! ### What an issued steer leaves (R57, R61) -/

/-- What a kiosk steer that is issued leaves of the records (R61). -/
theorem afterSteer_issued (p z id : Nat) (x : Steer) (v : State) :
    (∀ m, (afterSteer p z (issueSteer id x v)).steers.find m = if m = id then some x else v.steers.find m) ∧
      ZonesChanged x.entered v (afterSteer p z (issueSteer id x v)) ∧
      (∀ n, (afterSteer p z (issueSteer id x v)).passages.find n = (v.passages.find n).map fun q =>
        if n = p then
          Passage.awaitKiosk v.partTime { q with counters := { q.counters with guided := q.counters.guided + 1 } }
        else q) := by
  rw [issueSteer_eq]
  refine ⟨fun m => Table.find_put _ _ _ _, fun n => Table.find_mapWith _ _ _, fun n => ?_⟩
  rw [afterSteer, State.setPassages_passages, Table.find_upd]
  have counted (u : State) : (presence z (countPassage p (fun c => { c with guided := c.guided + 1 }) u)).passages.find n =
      (u.passages.find n).map fun q =>
        if n = p then { q with counters := { q.counters with guided := q.counters.guided + 1 } } else q :=
    countPassage_find p n (fun c => { c with guided := c.guided + 1 }) u
  rw [counted]
  split
  · rw [Option.map_map]
    rfl
  · rfl

end Sys2Proof.Machine
end

section
/-!
SUPPORT. STEER, record by record (R60, R61).
-/
namespace Sys2Proof.Machine

variable {s t u v w : State}

/-! ### STEER read (R60) -/

theorem BayKind.ofCode_code (k : BayKind) : BayKind.ofCode k.code = some k := by cases k <;> rfl

theorem BayKind.code_lt (k : BayKind) : k.code < 256 := by cases k <;> decide

theorem reads_steer (k : BayKind) (long wish : Bool) (h : Half) :
    Reads readSteer (number 1 k.code ++ (flagByte long ++ (flagByte wish ++ halfBytes h)))
      { kind := k, long := long, holdWish := wish, tag := h } := fun rest => by
  simp only [readSteer, List.append_assoc]
  rw [reads_number_one k.code_lt]
  simp only [Option.bind_eq_bind, Option.bind_some, BayKind.ofCode_code]
  rw [reads_flagByte]
  simp only [Option.bind_some]
  rw [reads_flagByte]
  simp only [Option.bind_some]
  rw [reads_halfBytes]
  rfl

theorem guides_iff {d : DeviceState} : d.guides = true ↔ d = .running ∨ d = .quiet ∨ d = .warming := by
  cases d <;> simp [DeviceState.guides]

/-- STEER where a zone is chosen and a slot is taken (R61). -/
theorem serveSteer_issues {client p z id : Nat} {k : BayKind} {long wish : Bool} {h : Half} {r : Passage}
    (guides : s.device.guides = true) (lp : p < 32) (hp : s.passages.find p = some r) (entry : r.config.kind = .entry)
    (hz : zoneChoice s r.config.preference k long [] = some z) (slot : takeSlot s = some (id, w)) :
    serveSteer client (number 1 p ++ number 1 k.code ++ flagByte long ++ flagByte wish ++ halfBytes h) s =
      issueKiosk client p { kind := k, long := long, holdWish := wish, tag := h } z id w := by
  have low : p < 256 := by omega
  simp only [serveSteer, List.append_assoc, (reads_number_one low).fields, guides, require_true, Check.ok_bind,
    needRecord_some (show p < Config.passageSlots from lp) hp, entry, decide_true, (reads_steer k long wish h).fields_last,
    hz, slot]
  rfl

/-! ### What a kiosk steer that is issued leaves (R57, R61) -/

theorem Displaces.passage {o : Option Steer} {l : Table Steer} {p : Nat} {r : Passage} (h : Displaces o l s u)
    (hp : s.passages.find p = some r) : u.passages.find p = some (displacedPassage o p r) := by
  rw [h.passages, hp]
  rfl

theorem displacedPassage_keeps (o : Option Steer) (n : Nat) (q : Passage) :
    ∃ c, displacedPassage o n q = { q with counters := c } := by
  cases o with
  | none => exact ⟨_, rfl⟩
  | some x =>
    by_cases e : n = x.origin
    · exact ⟨_, if_pos e⟩
    · exact ⟨q.counters, if_neg e⟩

/-- What a kiosk steer `x` issued into slot `id` leaves of steers, passages and lamps, where the slot's displacement left
`u` (R57, R61, R122). -/
def KioskIssued (p z id : Nat) (r : Passage) (x : Steer) (s u t : State) : Prop :=
  t.steers.find id = some x ∧ (∀ m, m ≠ id → t.steers.find m = u.steers.find m) ∧
    (∀ n, t.passages.find n = (u.passages.find n).map fun q =>
      if n = p then { q with counters := { q.counters with guided := q.counters.guided + 1 }
                             kioskWait := min 4 (r.kioskWait + 1)
                             waitUntil := some (s.partTime + r.config.kioskWindow) } else q) ∧
    Brightened [z] s t

/-- The records after an issue from the state that the displacement and a hold, if one was taken, have left. -/
theorem kioskIssued {o : Option Steer} {l : Table Steer} {p z id : Nat} {r : Passage} {x : Steer}
    (hu : Displaces o l s u) (frame : SameExcept [.miso, .steers, .zones, .passages, .bays, .holdCount] s v)
    (steers : v.steers = u.steers) (passages : ∀ n, v.passages.find n = u.passages.find n) (light : SameLight s v z)
    (hp : s.passages.find p = some r) (wait : r.kioskWait ≤ 4) :
    KioskIssued p z id r x s u (afterSteer p z (issueSteer id x v)) := by
  obtain ⟨found, zones, counted⟩ := afterSteer_issued p z id x v
  have time : v.partTime = s.partTime := frame .partTime (by decide)
  refine ⟨by rw [found, if_pos rfl], fun m hm => by rw [found, if_neg hm, steers], fun n => ?_, ?_⟩
  · rw [counted, passages, time]
    by_cases e : n = p
    · subst e
      obtain ⟨c, hc⟩ := displacedPassage_keeps o n r
      have waits : countUpTo 4 r.kioskWait = min 4 (r.kioskWait + 1) := by
        unfold countUpTo
        split <;> omega
      rw [hu.passage hp, hc]
      simp only [Option.map_some, if_true, Passage.awaitKiosk, waits]
    · simp only [e, if_false]
  · let v' := countPassage p (fun c => { c with guided := c.guided + 1 }) (issueSteer id x v)
    have issued : SameExcept [.steers, .zones, .passages] v v' :=
      (countPassage_frame (by decide) _ _).2 ((issueSteer_frame (by decide) _ _).2 (.refl _ v))
    have all : SameExcept [.miso, .steers, .zones, .passages, .bays, .holdCount] s v' := frame.trans (issued.mono (by decide))
    exact presence_brightened (all .device (by decide))
      (light.trans (.of_map (zones z) fun y => (x.recounted_entered z y).light)) (all .partTime (by decide))
      (all .lamps (by decide))

theorem afterSteer_issued_except (p z id : Nat) (x : Steer) (v : State) :
    SameExcept [.steers, .zones, .passages, .lamps] v (afterSteer p z (issueSteer id x v)) :=
  (afterSteer_frame (by decide) p z).2 ((issueSteer_frame (by decide) id x).2 (.refl _ v))

theorem issueKiosk_plain {client p z id : Nat} {f : SteerFields} (h : steerHold client f z s = none) :
    issueKiosk client p f z id s =
      (Reply.done (steerBytes id z none (s.partTime + s.travelTime z) f.holdWish),
        afterSteer p z (issueSteer id (kioskSteer s p z f.kind f.long) s)) := by
  simp only [issueKiosk, h]
  rfl

theorem issueKiosk_held {client p z id i e : Nat} {f : SteerFields} (h : steerHold client f z s = some (i, e, t)) :
    issueKiosk client p f z id s =
      (Reply.done (steerBytes id z (some i) e false),
        afterSteer p z (issueSteer id
          { kioskSteer s p z f.kind f.long with deadline := e, holdBay := some (z, i) } t)) := by
  simp only [issueKiosk, h]

theorem Displaces.travelTime {o : Option Steer} {l : Table Steer} {z : Nat} {y : Zone} (h : Displaces o l s u)
    (hy : s.zone z = some y) : u.travelTime z = y.config.travelTime := by
  rw [State.travelTime, h.zone, hy]
  exact congrArg ZoneConfig.travelTime (displacedZone_recounted o z y).config

/-- Two states with the same zones, passages and steers, after the same displacement. -/
theorem Displaces.same {o : Option Steer} {l : Table Steer} (hu : Displaces o l s u) (hw : Displaces o l v w)
    (zones : v.zones = s.zones) (passages : v.passages = s.passages) :
    w.steers = u.steers ∧ w.zones = u.zones ∧ ∀ n, w.passages.find n = u.passages.find n :=
  ⟨hw.steers.trans hu.steers.symm, by rw [hw.zones, hu.zones, zones],
    fun n => by rw [hw.passages, hu.passages, passages]⟩

/-- A steer without a hold is counted in its target (R8). -/
theorem Steer.entered_plain {x : Steer} (plain : x.holdBay = none) :
    x.entered = fun n y => if n = x.target then y.moreInTransit x.kind else y := by
  funext n y
  simp [Steer.entered, Steer.plain, plain]

/-- A held steer is counted in no zone (R8). -/
theorem Steer.entered_held {x : Steer} {b : Nat × Nat} (held : x.holdBay = some b) : x.entered = fun _ y => y := by
  funext n y
  simp [Steer.entered, Steer.plain, held]

theorem makeHold_light {z i g : Nat} {r : Zone} {b : Bay} (names : Names s z i g r b) (free : b.category = .free) (x : Hold)
    (n : Nat) : SameLight s (makeHold g x s) n := by
  obtain ⟨_, _, _, moved⟩ := makeHold_leaves names free x
  refine .of_map (moved n) fun y => ?_
  dsimp only
  split <;> exact ⟨rfl, rfl, rfl⟩

/-- The body of a STEER (R60). -/
def steerBody (p : Nat) (k : BayKind) (long wish : Bool) (h : Half) : List Byte :=
  number 1 p ++ number 1 k.code ++ flagByte long ++ flagByte wish ++ halfBytes h

/-- A STEER that reaches its serving rule, for which a zone is chosen and a slot taken: `u` is what the slot leaves. -/
structure SteerTaken (client : Byte) (p z id : Nat) (k : BayKind) (long wish : Bool) (h : Half) (r : Passage) (y : Zone)
    (s u : State) : Prop where
  reaches : Reaches 2 client (steerBody p k long wish h) s
  guides : s.device.guides = true
  slotOf : p < 32
  passage : s.passages.find p = some r
  entry : r.config.kind = .entry
  wait : r.kioskWait ≤ 4
  choice : zoneChoice s r.config.preference k long [] = some z
  zone : s.zone z = some y
  slot : takeSlot s = some (id, u)

section
variable {client : Byte} {p z id : Nat} {k : BayKind} {long wish : Bool} {h : Half} {r : Passage} {y : Zone}

/-- The same slot is taken where the request is served. -/
theorem SteerTaken.served (c : SteerTaken client p z id k long wish h r y s u) :
    ∃ o l w, Displaces o l s u ∧ Displaces o l (received (steerBody p k long wish h) s) w ∧
      serveSteer client.toNat (steerBody p k long wish h) (received (steerBody p k long wish h) s) =
        issueKiosk client.toNat p { kind := k, long := long, holdWish := wish, tag := h } z id w := by
  obtain ⟨_, guides, low, hp, entry, _, hz, hy, slot⟩ := c
  obtain ⟨o, l, taken⟩ := takeSlot_some slot
  obtain ⟨u', hu', du⟩ := taken s rfl
  obtain ⟨-, rfl⟩ := Prod.mk.inj (Option.some.inj (hu'.symm.trans slot))
  obtain ⟨w, hw, dw⟩ := taken (received (steerBody p k long wish h) s) rfl
  exact ⟨o, l, w, du, dw, serveSteer_issues (s := received _ s) guides low hp entry hz hw⟩

/-- The steer of the request, in the state that the slot leaves. -/
theorem Displaces.kioskSteer {o : Option Steer} {l : Table Steer} (d : Displaces o l s w) (hy : s.zone z = some y) :
    kioskSteer w p z k long =
      { state := .inTransit, origin := p, kind := k, long := long, vclass := .unknown, target := z, firstTarget := none,
        issued := s.partTime, deadline := s.partTime + y.config.travelTime, holdBay := none } := by
  have time : w.partTime = s.partTime := d.frame .partTime (by decide)
  rw [Machine.kioskSteer, time, d.travelTime hy]

/-- The bay that is searched for does not rest on the slot taken. -/
theorem Displaces.claimIndex {o : Option Steer} {l : Table Steer} (d : Displaces o l s w) (client : Nat) :
    claimIndex (displacedZone o z y) k (w.clientLevel client) w = claimIndex y k (s.clientLevel client) s := by
  have clients : w.clients = s.clients := d.frame .clients (by decide)
  have level : w.clientLevel client = s.clientLevel client := by rw [State.clientLevel, clients]; rfl
  rw [level]
  exact claimIndex_congr (displacedZone_recounted o z y).config (d.frame .bays (by decide)) k _

/-- A STEER that takes no hold (R61). -/
theorem SteerTaken.plain (c : SteerTaken client p z id k long wish h r y s u) (tag : Half)
    (noHold : wish = false ∨ 256 ≤ s.holdCount ∨ claimIndex y k (s.clientLevel client.toNat) s = none) :
    ∃ t, exec (.steer client tag (steerBody p k long wish h)) s = .next t ∧
      SameExcept (portFields ++ [.steers, .zones, .passages, .lamps]) s t ∧
      KioskIssued p z id r
        { state := .inTransit, origin := p, kind := k, long := long, vclass := .unknown, target := z, firstTarget := none,
          issued := s.partTime, deadline := s.partTime + y.config.travelTime, holdBay := none } s u t ∧
      ZonesChanged (fun n y => if n = z then y.moreInTransit k else y) u t ∧
      Answers tag .done 0
        (number 1 id ++ number 1 z ++ [0x00] ++ number 4 (s.partTime + y.config.travelTime) ++ flagByte wish) t := by
  obtain ⟨o, l, w, du, dw, serve⟩ := c.served
  obtain ⟨steers, zones, passages⟩ := du.same dw rfl rfl
  have hy : (received (steerBody p k long wish h) s).zone z = some y := c.zone
  have zone : w.zone z = some (displacedZone o z y) := by rw [dw.zone, hy]; rfl
  have count : w.holdCount = s.holdCount := dw.frame .holdCount (by decide)
  have time : w.partTime = s.partTime := dw.frame .partTime (by decide)
  have noHold' : wish = false ∨ 256 ≤ w.holdCount ∨
      Machine.claimIndex (displacedZone o z y) k (w.clientLevel client.toNat) w = none := by
    rw [dw.claimIndex, count]
    exact noHold
  rw [issueKiosk_plain (steerHold_none zone noHold'), dw.travelTime hy, time] at serve
  dsimp only at serve
  rw [dw.kioskSteer hy] at serve
  have frame : SameExcept [.miso, .steers, .zones, .passages] s w :=
    SameExcept.trans ((received_frame (by decide)).2 (.refl _ s)) (dw.frame.mono (by decide))
  refine ⟨_, congrArg Host.Outcome.next (request_of_rule c.reaches serve),
    respond_except (b := steerBody p k long wish h) (fs := [.steers, .zones, .passages, .lamps]) tag _ ?_,
    kioskIssued du (frame.mono (by decide)) steers passages (dw.light z) c.passage c.wait, fun n => ?_, rfl⟩
  · exact (dw.frame.mono (by decide)).trans (afterSteer_issued_except p z id _ w)
  · refine ((afterSteer_issued p z id _ w).2.1 n).trans ?_
    rw [Steer.entered_plain rfl, State.zone, zones]
    rfl

/-- A STEER that takes the hold it wishes (R39, R61). -/
theorem SteerTaken.held {i g : Nat} {b : Bay} (c : SteerTaken client p z id k long wish h r y s u) (tag : Half)
    (hwish : wish = true) (room : s.holdCount < 256) (names : Names s z i g y b)
    (takes : b.Takes k (s.clientLevel client.toNat)) (found : claimIndex y k (s.clientLevel client.toNat) s = some i) :
    let expiry := s.partTime + max y.config.travelTime 300
    ∃ t, exec (.steer client tag (steerBody p k long wish h)) s = .next t ∧
      SameExcept (portFields ++ [.bays, .holdCount, .steers, .zones, .passages, .lamps]) s t ∧
      KioskIssued p z id r
        { state := .inTransit, origin := p, kind := k, long := long, vclass := .unknown, target := z, firstTarget := none,
          issued := s.partTime, deadline := expiry, holdBay := some (z, i) } s u t ∧
      t.bays.find g = some { b with hold := some { client := client.toNat, tag := h, expiry := expiry } } ∧
      OnlyBay g s t ∧ t.holdCount = s.holdCount + 1 ∧ ZonesChanged (fun n y => if n = z then y.nowHeld k else y) u t ∧
      Answers tag .done 0 (number 1 id ++ number 1 z ++ ([0x01] ++ number 1 i) ++ number 4 expiry ++ [0x00]) t := by
  intro expiry
  obtain ⟨o, l, w, du, dw, serve⟩ := c.served
  obtain ⟨steers, zones, passages⟩ := du.same dw rfl rfl
  obtain ⟨kind, free, _⟩ := takes
  have hy : (received (steerBody p k long wish h) s).zone z = some y := c.zone
  have zone : w.zone z = some (displacedZone o z y) := by rw [dw.zone, hy]; rfl
  have count : w.holdCount = s.holdCount := dw.frame .holdCount (by decide)
  have time : w.partTime = s.partTime := dw.frame .partTime (by decide)
  have names' : Names w z i g (displacedZone o z y) b := dw.names (s := received _ s) names
  let x : Hold := { client := client.toNat, tag := h, expiry := expiry }
  let v := makeHold g x w
  have taken : steerHold client.toNat { kind := k, long := long, holdWish := wish, tag := h } z w = some (i, expiry, v) := by
    obtain ⟨_, _, _, _, hg, _, _⟩ := names
    rw [steerHold_taken zone hwish ((dw.claimIndex _).trans found) (count ▸ room), time,
      (displacedZone_recounted o z y).config, ← hg]
  rw [issueKiosk_held taken, dw.kioskSteer hy] at serve
  have held : SameExcept [.bays, .zones, .holdCount] w v := (makeHold_frame (by decide) g x).2 (.refl _ w)
  have issued (q : Steer) := afterSteer_issued_except p z id q v
  have frame : SameExcept [.miso, .steers, .zones, .passages, .bays, .holdCount] s v :=
    SameExcept.trans ((received_frame (by decide)).2 (.refl _ s)) ((dw.frame.mono (by decide)).trans (held.mono (by decide)))
  obtain ⟨bay, others, holds, moved⟩ := makeHold_leaves names' free x
  refine ⟨_, congrArg Host.Outcome.next (request_of_rule c.reaches serve),
    respond_except (b := steerBody p k long wish h) (fs := [.bays, .holdCount, .steers, .zones, .passages, .lamps]) tag _ ?_,
    kioskIssued du frame (Eq.trans (held .steers (by decide)) steers)
      (fun n => Eq.trans (congrArg (Table.find · n) (held .passages (by decide))) (passages n))
      (.trans (dw.light z) (makeHold_light names' free x z)) c.passage c.wait, ?_, fun n hn => ?_, ?_, fun n => ?_, rfl⟩
  · exact (dw.frame.mono (by decide)).trans ((held.mono (by decide)).trans ((issued _).mono (by decide)))
  · exact Eq.trans (congrArg (Table.find · g) (issued _ .bays (by decide))) bay
  · have bays : w.bays = s.bays := dw.frame .bays (by decide)
    exact (congrArg (Table.find · n) (issued _ .bays (by decide))).trans ((others n hn).trans (by rw [bays]))
  · exact Eq.trans (issued _ .holdCount (by decide)) (holds.trans (by rw [count]))
  · refine ((afterSteer_issued p z id _ v).2.1 n).trans ?_
    rw [Steer.entered_held rfl, moved n, Option.map_map, State.zone, zones, kind]
    rfl

end

end Sys2Proof.Machine
end

section
/-!
SUPPORT. A forward passage of an ENTRY passage, record by record (R53 to R55, R58, R73), and O29.
-/
namespace Sys2Proof.Machine

variable {s t u v w : State}

/-! ### Presence in several zones (R122) -/

/-- Presence given in the zones of one list and then of another. -/
theorem Brightened.append {xs ys : List Nat} (h : Brightened xs s t) (k : Brightened ys t u) (device : t.device = s.device)
    (time : t.partTime = s.partTime) (light : ∀ n, SameLight s t n) : Brightened (xs ++ ys) s u := fun n => by
  rw [k n, h n, Option.map_map, device, time]
  congr 1
  funext g
  by_cases hx : g.zone ∈ xs
  · by_cases hy : g.zone ∈ ys
    · simp only [Function.comp_apply, hx, if_true, List.mem_append, true_or]
      exact (if_pos hy).trans (light g.zone s.device (g.brighten s.partTime))
    · simp only [Function.comp_apply, hx, if_true, List.mem_append, true_or]
      exact if_neg hy
  · by_cases hy : g.zone ∈ ys
    · simp only [Function.comp_apply, hx, hy, if_true, if_false, List.mem_append, or_true]
      exact light g.zone s.device (g.brighten s.partTime)
    · simp [hx, hy]

/-! ### The credit of a passage (R55, R91) -/

theorem Zone.passCredited_other {z : Option Nat} {n : Nat} (h : z ≠ some n) (s : State) (c : VehicleClass) :
    Zone.passCredited s z c n = fun y => y := funext fun _ => if_neg h

theorem Zone.passCredited_own (s : State) (n : Nat) (c : VehicleClass) :
    Zone.passCredited s (some n) c n = Zone.credited (s.airSettings.passCredit * 256 * c.weight) := by
  refine funext fun y => (if_pos rfl).trans ?_
  cases c <;> rfl

theorem creditPassage_zone (z : Option Nat) (c : VehicleClass) (s : State) :
    ZonesChanged (Zone.passCredited s z c) s (creditPassage z c s) := fun n => by
  cases z with
  | none =>
    rw [Zone.passCredited_other (Option.some_ne_none n).symm, Option.map_id']
    rfl
  | some z =>
    have credited : (creditPassage (some z) c s).zone n =
        (creditAir z (s.airSettings.passCredit * 256 * c.weight) s).zone n := rfl
    rw [credited, creditAir, State.zone_updZone]
    by_cases e : n = z
    · subst e
      rw [if_pos rfl, Zone.passCredited_own]
      rfl
    · rw [if_neg e, Zone.passCredited_other (fun h => e (Option.some.inj h).symm), Option.map_id']

theorem Zone.passCredited_keeps (s : State) (z : Option Nat) (c : VehicleClass) (n : Nat) (y : Zone) :
    ∃ a, y.passCredited s z c n = { y with air := { y.air with antCO := a } } := by
  unfold Zone.passCredited
  by_cases e : z = some n
  · exact ⟨_, if_pos e⟩
  · exact ⟨y.air.antCO, if_neg e⟩

theorem Zone.passCredited_light (s : State) (z : Option Nat) (c : VehicleClass) (n : Nat) (y : Zone) :
    (y.passCredited s z c n).fire = y.fire ∧ (y.passCredited s z c n).air.state = y.air.state ∧
      (y.passCredited s z c n).stack = y.stack := by
  obtain ⟨a, h⟩ := y.passCredited_keeps s z c n
  rw [h]
  exact ⟨rfl, rfl, rfl⟩

theorem creditPassage_brightened (z : Option Nat) (c : VehicleClass) (s : State) :
    Brightened (optList z) s (creditPassage z c s) := by
  cases z with
  | none =>
    intro n
    simp [creditPassage, optList]
  | some z =>
    have credited : SameExcept [.zones] s (creditAir z (s.airSettings.passCredit * 256 * c.weight) s) :=
      (creditAir_frame (by decide) _ _).2 (.refl _ s)
    exact presence_brightened (credited .device (by decide))
      (.of_map (creditPassage_zone (some z) c s z) (Zone.passCredited_light s (some z) c z))
      (credited .partTime (by decide)) (credited .lamps (by decide))

/-- The displacement of a steer and the credit of a passage touch different fields. -/
theorem displacedZone_passCredited (o : Option Steer) (s : State) (z : Option Nat) (c : VehicleClass) (n : Nat) (y : Zone) :
    displacedZone o n (y.passCredited s z c n) = (displacedZone o n y).passCredited s z c n := by
  cases o with
  | none => rfl
  | some x =>
    simp only [displacedZone, Steer.left, Zone.passCredited, Zone.credited, Zone.lessInTransit]
    repeat' split
    all_goals rfl

theorem displacedPassage_passed (o : Option Steer) (s : State) (gap : Int) (occupancy n : Nat) (q : Passage) :
    displacedPassage o n (q.passed s gap occupancy) = (displacedPassage o n q).passed s gap occupancy := by
  cases o with
  | none => rfl
  | some x =>
    simp only [displacedPassage, Passage.passed]
    repeat' split
    all_goals rfl

/-! ### The choice and the sign of a forward ENTRY passage (R56, R58, R73) -/

/-- Zone choice does not read the air fields. -/
theorem zoneChoice_congr {f : Nat → Zone → Zone} (h : ZonesChanged f s t)
    (keeps : ∀ n y k long, (f n y).takes k long = y.takes k long) (l excluded : List Nat) (k : BayKind) (long : Bool) :
    zoneChoice t l k long excluded = zoneChoice s l k long excluded := by
  have same (n : Nat) : t.zoneIs n (Zone.takes k long) = s.zoneIs n (Zone.takes k long) := by
    rw [State.zoneIs, State.zoneIs, h n]
    cases s.zone n with
    | none => rfl
    | some y => exact keeps n y k long
  simp only [zoneChoice, same]

theorem showDirection_find (sign : Option Nat) (z n : Nat) (s : State) :
    (showDirection sign z s).signs.find n = (s.signs.find n).map fun g =>
      if sign = some n then
        match g.config.direction z with
        | none => g
        | some d => { g with shown := some { situation := d, zone := some z, expiry := s.partTime + g.config.showTime } }
      else g := by
  cases sign with
  | none => simp [showDirection]
  | some m =>
    by_cases e : m = n
    · subst e
      cases hm : s.signs.find m with
      | none => simp [showDirection, hm]
      | some g =>
        cases hd : g.config.direction z with
        | none => simp [showDirection, hm, hd]
        | some d => simp [showDirection, setShow, hm, hd, Table.find_upd]
    · have other : (showDirection (some m) z s).signs.find n = s.signs.find n := by
        rw [showDirection]
        split
        · rfl
        · rw [setShow, State.setSigns_signs, Table.find_upd, if_neg (Ne.symm e)]
      simp [other, e]

theorem entryGuidance_issues {p z id : Nat} {r : Passage} {c : VehicleClass} (guides : s.device.guides = true)
    (wait : r.kioskWait = 0) (hz : zoneChoice s r.config.preference .standard (c = .long) [] = some z)
    (slot : takeSlot s = some (id, w)) :
    entryGuidance p r c s = presence z (showDirection r.config.entrySign z
      (countPassage p (fun c => { c with guided := c.guided + 1 }) (issueSteer id (entrySteer w p z c) w))) := by
  rw [entryGuidance, guides, wait, hz, slot]
  rfl

/-- The record that a forward passage leaves of its passage (R54, R55). -/
theorem Passage.taken_eq_passed {gap : Int} (forward : 0 ≤ gap) (s : State) (occupancy : Nat) (r : Passage) :
    r.taken s.partTime .forward (r.classOf s gap occupancy)
      (vehicleLength r.config.spacing r.config.loopLength gap occupancy) = r.passed s gap occupancy := by
  have : ¬gap < 0 := by omega
  simp only [Passage.taken, Passage.passed, this, if_false, passageDirection]
  rfl

/-- A forward passage of an ENTRY passage is its record, its credit and its guidance, where no wake follows. -/
theorem takePassage_entry {p occupancy : Nat} {gap : Int} {r : Passage} (hp : s.passages.find p = some r)
    (entry : r.config.kind = .entry) (forward : 0 ≤ gap) :
    let c := r.classOf s gap occupancy
    let t := entryGuidance p r c
      (creditPassage r.config.toZone c (s.setPassages (s.passages.put p (r.passed s gap occupancy))))
    (t.device ≠ .quiet ∨ r.config.wakeFlag = false) → takePassage p gap occupancy s = t := by
  intro c t noWake
  have direction : passageDirection gap = .forward := if_neg (by omega)
  have credit : r.config.creditZone .forward = r.config.toZone := by rw [PassageConfig.creditZone, entry]
  have taken := r.taken_eq_passed forward s occupancy
  have wake : (if r.config.wakeFlag then wakeEvent .passage (optList (r.config.creditZone .forward)) t else t) = t := by
    rcases noWake with h | h
    · rw [wakeEvent, if_neg h, ite_self]
    · rw [h]
      rfl
  rw [takePassage, hp]
  simp only [direction, forwardPassage, entry, if_true, credit]
  rw [credit] at wake
  rw [Passage.classOf] at taken
  rw [taken]
  exact wake

/-- What a steer issued for a passage leaves of the records, with its count, its show and its presence (R57, R58, R73). -/
theorem entryIssued (sign : Option Nat) (p z id : Nat) (x : Steer) (w : State) :
    let t := presence z (showDirection sign z
      (countPassage p (fun c => { c with guided := c.guided + 1 }) (issueSteer id x w)))
    SameExcept [.steers, .zones, .passages, .signs, .lamps] w t ∧
      (∀ m, t.steers.find m = if m = id then some x else w.steers.find m) ∧ ZonesChanged x.entered w t ∧
      (∀ n, t.passages.find n = (w.passages.find n).map fun q =>
        if n = p then { q with counters := { q.counters with guided := q.counters.guided + 1 } } else q) ∧
      Brightened [z] w t ∧
      ∀ n, t.signs.find n = (showDirection sign z w).signs.find n := by
  intro t
  let v₀ := issueSteer id x w
  let v₁ := countPassage p (fun c => { c with guided := c.guided + 1 }) v₀
  let v₂ := showDirection sign z v₁
  have issued : SameExcept [.steers, .zones] w v₀ := (issueSteer_frame (by decide) id x).2 (.refl _ w)
  have counted : SameExcept [.passages] v₀ v₁ := (countPassage_frame (by decide) p _).2 (.refl _ v₀)
  have shown : SameExcept [.signs] v₁ v₂ := (showDirection_frame (by decide) sign z).2 (.refl _ v₁)
  have lit : SameExcept [.lamps] v₂ t := (presence_frame (by decide) z).2 (.refl _ v₂)
  have before : SameExcept [.steers, .zones, .passages] w v₁ := (issued.mono (by decide)).trans (counted.mono (by decide))
  have all : SameExcept [.steers, .zones, .passages, .signs] w v₂ := (before.mono (by decide)).trans (shown.mono (by decide))
  have steers : t.steers = v₀.steers :=
    Eq.trans (lit .steers (by decide)) (Eq.trans (shown .steers (by decide)) (counted .steers (by decide)))
  have zones : v₂.zones = v₀.zones := Eq.trans (shown .zones (by decide)) (counted .zones (by decide))
  have passages : t.passages = v₁.passages := Eq.trans (lit .passages (by decide)) (shown .passages (by decide))
  have entered (n : Nat) : v₂.zone n = (w.zone n).map (x.entered n) := by
    rw [State.zone, zones]
    show (issueSteer id x w).zones.find n = _
    rw [issueSteer_eq]
    exact Table.find_mapWith _ _ _
  refine ⟨(all.mono (by decide)).trans (lit.mono (by decide)), fun m => ?_, entered, fun n => ?_, ?_, fun n => ?_⟩
  · rw [steers]
    show (issueSteer id x w).steers.find m = _
    rw [issueSteer_eq]
    exact Table.find_put _ _ _ _
  · have untouched : v₀.passages = w.passages := issued .passages (by decide)
    rw [passages]
    exact (countPassage_find p n _ v₀).trans (by rw [untouched])
  · exact presence_brightened (all .device (by decide)) (.of_map (entered z) fun y => (x.recounted_entered z y).light)
      (all .partTime (by decide)) (all .lamps (by decide))
  · have signs : v₁.signs = w.signs := before .signs (by decide)
    have time : v₁.partTime = w.partTime := before .partTime (by decide)
    show (showDirection sign z v₁).signs.find n = _
    rw [showDirection_find, showDirection_find, signs, time]

end Sys2Proof.Machine

open Sys2Proof Sys2Proof.Machine

/-- Settles O29: the slot found, then the steer issued from what the slot leaves, for a kiosk and for a passage. -/
theorem steerIssuesAPlainSteer : Obligations.SteerIssuesAPlainSteer := by
  refine ⟨fun s => ⟨fun id low free first => takeSlot_of_free (freeSlot_eq_some.2 ⟨low, free, first⟩), fun full =>
    ⟨fun id x ⟨wf, mem, plain, _, oldest⟩ => ?_, fun held => ?_⟩⟩, ?_, ?_⟩
  · have found : oldestSteer Steer.plain s.steers = some (id, x) := oldestSteer_eq_some wf mem (Steer.plain_iff.2 plain)
      fun q hq hplain => oldest q hq (Steer.plain_iff.1 hplain) trivial
    have live := Table.find_of_mem wf mem
    refine ⟨retireSteer id .displaced s, ?_, (retireSteer_frame (by decide) _ _).2 (.refl _ s), retireSteer_retired live _,
      retireSteer_plain live plain _⟩
    rw [takeSlot_of_full (freeSlot_eq_none.2 full), found]
    rfl
  · have none_ : oldestSteer Steer.plain s.steers = none := oldestSteer_eq_none fun q hq =>
      Bool.eq_false_iff.2 fun plain => held q hq (Steer.plain_iff.1 plain)
    rw [takeSlot_of_full (freeSlot_eq_none.2 full), none_]
    rfl
  · intro client tag h p z id k long wish r y s u body level expiry hr dev lp hp entry wait hz hy slot issued
    have taken : SteerTaken client p z id k long wish h r y s u := ⟨hr, guides_iff.2 dev, lp, hp, entry, wait, hz, hy, slot⟩
    refine ⟨fun noHold => taken.plain tag (noHold.imp_right (.imp_right claimIndex_eq_none)),
      fun i g b hwish room names takes first => taken.held tag hwish room names takes ?_⟩
    obtain ⟨_, _, _, inRange, rfl, _, hb⟩ := names
    exact claimIndex_eq_some inRange hb takes first
  · intro p z id gap occupancy r y s u hp entry forward wait dev c hz hy slot t
    let s₁ := s.setPassages (s.passages.put p (r.passed s gap occupancy))
    let s₂ := creditPassage r.config.toZone c s₁
    have credited : SameExcept [.zones, .lamps] s₁ s₂ := (creditPassage_frame (by decide) _ _).2 (.refl _ s₁)
    have before : SameExcept [.passages, .zones, .lamps] s s₂ :=
      SameExcept.trans ((State.setPassages_frame (by decide) _).2 (.refl _ s)) (credited.mono (by decide))
    have zones₂ : ZonesChanged (Zone.passCredited s r.config.toZone c) s s₂ := creditPassage_zone r.config.toZone c s₁
    have bright₂ : Brightened (optList r.config.toZone) s s₂ := creditPassage_brightened r.config.toZone c s₁
    obtain ⟨o, l, taken⟩ := takeSlot_some slot
    obtain ⟨u', hu', du⟩ := taken s rfl
    obtain ⟨-, rfl⟩ := Prod.mk.inj (Option.some.inj (hu'.symm.trans slot))
    obtain ⟨w, hw, dw⟩ := taken s₂ (before .steers (by decide))
    have time : w.partTime = s.partTime := Eq.trans (dw.frame .partTime (by decide)) (before .partTime (by decide))
    have device : s₂.device = s.device := before .device (by decide)
    have guides : s₂.device.guides = true := by
      rw [device, guides_iff]
      exact dev.imp_right fun h => h.elim .inr fun h => .inl h.1
    have choice : zoneChoice s₂ r.config.preference .standard (c = .long) [] = some z := by
      rw [zoneChoice_congr zones₂ fun n y k long => ?_, hz]
      obtain ⟨a, h⟩ := y.passCredited_keeps s r.config.toZone c n
      rw [h]
      rfl
    have travel : w.travelTime z = y.config.travelTime := by
      obtain ⟨a, h⟩ := y.passCredited_keeps s r.config.toZone c z
      rw [dw.travelTime (y := y.passCredited s r.config.toZone c z) (by rw [zones₂, hy]; rfl), h]
    have steer : entrySteer w p z c =
        { state := .inTransit, origin := p, kind := .standard, long := c = .long, vclass := c, target := z,
          firstTarget := none, issued := s.partTime, deadline := s.partTime + y.config.travelTime, holdBay := none } := by
      rw [entrySteer, time, travel]
    have guided := entryGuidance_issues (p := p) guides wait choice hw
    obtain ⟨frame, steers, zones, passages, bright, signs⟩ := entryIssued r.config.entrySign p z id (entrySteer w p z c) w
    rw [← guided] at frame steers zones passages bright signs
    rw [steer] at steers zones
    have all : SameExcept [.steers, .zones, .passages, .lamps, .signs] s (entryGuidance p r c s₂) :=
      (before.mono (by decide)).trans ((dw.frame.mono (by decide)).trans (frame.mono (by decide)))
    have passed : t = entryGuidance p r c s₂ := by
      refine takePassage_entry hp entry forward ?_
      have same : (entryGuidance p r c s₂).device = s.device := all .device (by decide)
      rw [same]
      rcases dev with h | h | ⟨_, h⟩
      · exact .inl (by rw [h]; decide)
      · exact .inl (by rw [h]; decide)
      · exact .inr h
    rw [passed]
    refine ⟨all, by rw [steers, if_pos rfl], fun m hm => by rw [steers, if_neg hm, dw.steers, du.steers], fun n => ?_,
      fun n => ?_, ?_, fun n => ?_⟩
    · rw [zones, dw.zone, zones₂, du.zone, Steer.entered_plain rfl]
      simp only [Option.map_map]
      congr 1
      funext y
      simp only [Function.comp_apply, displacedZone_passCredited]
    · have passages₂ : s₂.passages = s₁.passages := credited .passages (by decide)
      have record : s₁.passages.find n = (s.passages.find n).map fun q => if n = p then q.passed s gap occupancy else q := by
        rw [State.setPassages_passages, Table.find_put]
        by_cases e : n = p
        · rw [e, hp]
          simp
        · simp [e]
      rw [passages, dw.passages, passages₂, record, du.passages]
      simp only [Option.map_map]
      congr 1
      funext q
      by_cases e : n = p
      · simp only [Function.comp_apply, e, if_true, displacedPassage_passed]
      · simp only [Function.comp_apply, e, if_false]
    · have lamps : w.lamps = s₂.lamps := dw.frame .lamps (by decide)
      have unlit : Brightened [] s₂ w := fun n => by simp [lamps]
      exact bright₂.append (unlit.append bright (dw.frame .device (by decide)) (dw.frame .partTime (by decide)) dw.light)
        device (before .partTime (by decide)) fun n => .of_map (zones₂ n) (Zone.passCredited_light s _ c n)
    · have untouched : w.signs = s.signs := Eq.trans (dw.frame .signs (by decide)) (before .signs (by decide))
      have shown := (signs n).trans (showDirection_find r.config.entrySign z n w)
      rw [untouched, time] at shown
      exact shown

end

section
/-!
SUPPORT. CLAIM, record by record (R37 to R39), and O21.
-/
namespace Sys2Proof.Machine

variable {s t u v w : State}

/-! ### CLAIM read (R37) -/

/-- The body of a CLAIM. -/
def claimBody (form z second : Nat) (h : Half) (d : Option Nat) : List Byte :=
  number 1 form ++ number 1 z ++ number 1 second ++ halfBytes h ++ optBytes (number 2) d

/-- The hold that a CLAIM wishes (R37). -/
def claimHold (s : State) (client : Nat) (h : Half) (d : Option Nat) : Hold :=
  { client := client, tag := h, expiry := s.partTime + max 60 (min 7200 (d.getD 900)) }

/-- The result of a CLAIM that passes its checks: CLAMPED where its duration was changed (R37). -/
def claimResult (d : Option Nat) : Result := if 60 ≤ d.getD 900 ∧ d.getD 900 ≤ 7200 then .done else .clamped

theorem reads_terms (h : Half) {d : Option Nat} (hd : ∀ v, d = some v → v < 65536) :
    Reads readTerms (halfBytes h ++ optBytes (number 2) d) (h, d) := fun rest => by
  simp only [readTerms, List.append_assoc]
  rw [reads_halfBytes]
  simp only [Option.bind_eq_bind, Option.bind_some]
  rw [reads_optBytes fun v hv => reads_number_two (hd v hv)]
  rfl

/-- A value brought to the nearer end of its range (R183). -/
theorem clampTo_eq {lo hi : Nat} (h : lo ≤ hi) (v : Nat) : clampTo lo hi v = max lo (min hi v) := by
  unfold clampTo
  split
  · omega
  · split <;> omega

theorem claimDuration_eq (d : Option Nat) : claimDuration d = max 60 (min 7200 (d.getD 900)) :=
  clampTo_eq (by decide) _

theorem clampedIf_claim (d : Option Nat) (body : List Byte) :
    Reply.clampedIf (¬claimDuration d = d.getD claimDefault) body =
      { result := claimResult d, detail := 0, body := body } := by
  have same : claimDuration d = d.getD claimDefault ↔ 60 ≤ d.getD 900 ∧ d.getD 900 ≤ 7200 := by
    rw [claimDuration_eq, claimDefault]
    omega
  rw [Reply.clampedIf, Reply.of, claimResult]
  by_cases within : 60 ≤ d.getD 900 ∧ d.getD 900 ≤ 7200
  · simp [same.2 within, within]
  · simp [mt same.1 within, within]

/-- CLAIM in a zone, after its fields are read. -/
theorem serveClaim_eq {client form z second : Nat} {h : Half} {d : Option Nat} {r : Zone} (lf : form < 256) (lz : z < 32)
    (ls : second < 256) (hd : ∀ v, d = some v → v < 65536) (hz : s.zone z = some r)
    (configured : s.device ≠ .unconfigured) :
    serveClaim client (claimBody form z second h d) s = served s (do
      let a ← needClaimTarget form z second s
      require (a.openTo (s.clientLevel client)) .locked
      let (c, s') ← claimAt z r (s.clientLevel client) (claimHold s client h d) s a
      return ({ result := claimResult d, detail := 0, body := c.bytes }, s')) := by
  have lz' : z < 256 := by omega
  simp only [serveClaim, claimBody, List.append_assoc, (reads_number_one lf).fields, (reads_number_one lz').fields,
    (reads_number_one ls).fields, (reads_terms h hd).fields_last, Check.ok_bind, configured, ne_eq, not_false_eq_true,
    decide_true, require_true, needZone_some lz hz, clampedIf_claim]
  rw [claimHold, ← claimDuration_eq]

/-- CLAIM in UNCONFIGURED (R37). -/
theorem serveClaim_notNow {client : Nat} {body : List Byte} (h : s.device = .unconfigured) :
    serveClaim client body s = (Reply.refuse .notNow, s) := by
  simp [serveClaim, h]

/-! ### What a CLAIM names -/

theorem needBay_names {z i g : Nat} {r : Zone} {b : Bay} (names : Names s z i g r b) : needBay z i s = .ok (g, b) := by
  obtain ⟨lz, _, hz, inRange, rfl, _, hb⟩ := names
  simp [needBay, needZone_some lz hz, inRange, hb]

theorem needClaimTarget_bay {z i g : Nat} {r : Zone} {b : Bay} (names : Names s z i g r b) :
    needClaimTarget 0 z i s = .ok (.bay i g b) := by
  simp only [needClaimTarget, needBay_names names, Check.ok_bind]
  rfl

theorem needClaimTarget_kind (z : Nat) (k : BayKind) (s : State) : needClaimTarget 1 z k.code s = .ok (.anyOf k) := by
  simp only [needClaimTarget, BayKind.ofCode_code, need_some, Check.ok_bind]
  rfl

theorem ClaimTarget.openTo_bay {level i g : Nat} {b : Bay} :
    (ClaimTarget.bay i g b).openTo level = true ↔ b.locked = false ∨ level = 0 := by simp [ClaimTarget.openTo]

/-! ### A specific CLAIM (R38) -/

section
variable {z i g : Nat} {b : Bay} {x : Hold}

theorem claimBay_made (cat : b.category = .free) (vacant : b.occupancy = .vacant) (room : s.holdCount < 256) :
    claimBay z i g b x s =
      .ok ({ prior := .free, taken := true, pending := false, holding := some (i, x.expiry) }, makeHold g x s) := by
  have room' : s.holdCount < Config.holdLimit := room
  simp only [claimBay, cat, vacant, if_true, room']

theorem claimBay_full (cat : b.category = .free) (vacant : b.occupancy = .vacant) (full : 256 ≤ s.holdCount) :
    claimBay z i g b x s = .error (Reply.refuse .full) := by
  have full' : ¬s.holdCount < Config.holdLimit := Nat.not_lt.2 full
  simp only [claimBay, cat, vacant, if_true, full', if_false]

theorem claimBay_pending (cat : b.category = .free) (arriving : b.occupancy = .arriving) :
    claimBay z i g b x s = .ok ({ prior := .free, taken := false, pending := true, holding := none }, s) := by
  simp [claimBay, cat, arriving]

theorem claimBay_taken (cat : b.category = .occupied ∨ b.category = .unavailable) :
    claimBay z i g b x s = .ok ({ prior := b.category, taken := false, pending := false, holding := none }, s) := by
  rcases cat with cat | cat <;> simp [claimBay, cat]

theorem claimBay_other {y : Hold} (cat : b.category = .held) (hold : b.hold = some y)
    (other : y.client ≠ x.client ∨ y.tag ≠ x.tag) :
    claimBay z i g b x s = .ok ({ prior := .held, taken := false, pending := false, holding := none }, s) := by
  have : ¬(y.client = x.client ∧ y.tag = x.tag) := by tauto
  simp only [claimBay, cat, hold, this, if_false]

theorem claimBay_renewed {y : Hold} (cat : b.category = .held) (hold : b.hold = some y) (client : y.client = x.client)
    (tag : y.tag = x.tag) :
    claimBay z i g b x s =
      .ok ({ prior := .held, taken := true, pending := false, holding := some (i, x.expiry) }, renewHold g (z, i) x s) := by
  simp only [claimBay, cat, hold, client, tag, and_self, if_true]

end

/-- A bay that keeps its kind and category is changed alone (R24). -/
theorem changeBay_same {g z i : Nat} {b : Bay} {f : Bay → Bay} (hb : s.bays.find g = some b)
    (hh : handleOf s.zones g = some (z, i)) (kind : (f b).kind = b.kind) (cat : (f b).category = b.category) :
    changeBay g f s = s.setBays (s.bays.put g (f b)) := by
  simp [changeBay, hb, State.bayZone, hh, moveCount, kind, cat]

theorem Bay.serves_of_held {b : Bay} (held : b.category = .held) :
    (b.service = .outOfService || b.sense ≠ .sensed) = false := by
  unfold Bay.category at held
  split at held
  · cases held
  · next h => exact Bool.eq_false_iff.2 h

/-- What a renewal leaves of the records (R38, R63). -/
theorem renewHold_leaves {z i g : Nat} {r : Zone} {b : Bay} (names : Names s z i g r b) (cat : b.category = .held) (x : Hold) :
    SameExcept [.bays, .steers] s (renewHold g (z, i) x s) ∧
      (renewHold g (z, i) x s).bays.find g = some { b with hold := some x } ∧ OnlyBay g s (renewHold g (z, i) x s) ∧
      ((∀ q ∈ s.steers, q.2.holdBay ≠ some (z, i)) → (renewHold g (z, i) x s).steers = s.steers) ∧
      ∀ id w, s.steers.wf = true → (id, w) ∈ s.steers → w.holdBay = some (z, i) →
        (∀ q ∈ s.steers, q.2.holdBay = some (z, i) → q.1 = id) →
        (renewHold g (z, i) x s).steers.find id = some { w with deadline := x.expiry } ∧
          ∀ m, m ≠ id → (renewHold g (z, i) x s).steers.find m = s.steers.find m := by
  obtain ⟨_, _, _, _, _, hh, hb⟩ := names
  have again : ({ b with hold := some x } : Bay).category = b.category := by
    have serves : (b.service = .outOfService || b.sense ≠ .sensed) = false := Bay.serves_of_held cat
    rw [cat, Bay.category, serves]
    rfl
  let u := s.setBays (s.bays.put g { b with hold := some x })
  have shape : renewHold g (z, i) x s = renewSteer (z, i) x.expiry u := by
    rw [renewHold, changeBay_same hb hh rfl again]
  have renewed : SameExcept [.steers] u (renewSteer (z, i) x.expiry u) := (renewSteer_frame (by decide) _ _).2 (.refl _ u)
  have bays : (renewSteer (z, i) x.expiry u).bays = s.bays.put g { b with hold := some x } := renewed .bays (by decide)
  rw [shape]
  refine ⟨SameExcept.trans ((State.setBays_frame (by decide) _).2 (.refl _ s)) (renewed.mono (by decide)), ?_,
    fun n hn => ?_, fun free => ?_, fun id w wf mem held only => ?_⟩
  · rw [bays, Table.find_put, if_pos rfl]
  · rw [bays, Table.find_put, if_neg hn]
  · have none_ : heldSteerOf (z, i) u.steers = none := heldSteerOf_none.2 free
    rw [renewSteer, none_]
    rfl
  · have found : heldSteerOf (z, i) u.steers = some id := heldSteerOf_unique mem held only
    have live : u.steers.find id = some w := Table.find_of_mem wf mem
    rw [renewSteer, found]
    refine ⟨?_, fun m hm => ?_⟩
    · rw [State.setSteers_steers, Table.find_upd, if_pos rfl, live]
      rfl
    · rw [State.setSteers_steers, Table.find_upd, if_neg hm]
      rfl

/-! ### A CLAIM of any bay of a kind (R39) -/

section
variable {r : Zone} {k : BayKind} {level i : Nat} {x : Hold}

theorem claimAny_made (found : claimIndex r k level s = some i) (room : s.holdCount < 256) :
    claimAny r k level x s = .ok ({ prior := .free, taken := true, pending := false, holding := some (i, x.expiry) },
      makeHold (r.config.bayBase + i) x s) := by
  have room' : s.holdCount < Config.holdLimit := room
  simp only [claimAny, found, room', if_true]

theorem claimAny_full (found : claimIndex r k level s = some i) (full : 256 ≤ s.holdCount) :
    claimAny r k level x s = .error (Reply.refuse .full) := by
  have full' : ¬s.holdCount < Config.holdLimit := Nat.not_lt.2 full
  simp only [claimAny, found, full', if_false]

theorem claimAny_none (none_ : claimIndex r k level s = none) :
    claimAny r k level x s =
      .ok ({ prior := .free, taken := false, pending := claimPending r k level s, holding := none }, s) := by
  simp only [claimAny, none_]

end

theorem claimPending_iff {r : Zone} {k : BayKind} {level : Nat} :
    claimPending r k level s = true ↔
      ∃ j c, j < r.config.bayCount ∧ s.bays.find (r.config.bayBase + j) = some c ∧ c.kind = k ∧ c.category = .free ∧
        c.occupancy = .arriving ∧ (c.locked = false ∨ level = 0) := by
  simp only [claimPending, zoneBays, List.any_eq_true, List.mem_filterMap, List.mem_range, Option.map_eq_some_iff,
    Bay.claimable, Bool.and_eq_true, decide_eq_true_eq, Bool.or_eq_true, Bool.not_eq_true']
  constructor
  · rintro ⟨q, ⟨j, hj, c, hc, rfl⟩, ⟨⟨kind, free⟩, lock⟩, arriving⟩
    exact ⟨j, c, hj, hc, kind, free, arriving, lock⟩
  · rintro ⟨j, c, hj, hc, kind, free, arriving, lock⟩
    exact ⟨(j, c), ⟨j, hj, c, hc, rfl⟩, ⟨⟨kind, free⟩, lock⟩, arriving⟩

/-! ### What a CLAIM answers -/

/-- A CLAIM of a zone's bay or kind that reaches its serving rule in a device that is configured. -/
structure ClaimReached (client : Byte) (form z second : Nat) (h : Half) (d : Option Nat) (r : Zone) (a : ClaimTarget)
    (s : State) : Prop where
  reaches : Reaches 2 client (claimBody form z second h d) s
  formFits : form < 256
  secondFits : second < 256
  duration : ∀ v, d = some v → v < 65536
  slot : z < 32
  zone : s.zone z = some r
  configured : s.device ≠ .unconfigured
  target : needClaimTarget form z second (received (claimBody form z second h d) s) = .ok a

section
variable {client : Byte} {tag h : Half} {form z second : Nat} {d : Option Nat} {r : Zone} {a : ClaimTarget}
  {c : ClaimAnswer} {res : Result} {body : List Byte}

/-- The serving rule after the checks of what the CLAIM names. -/
theorem ClaimReached.serve (q : ClaimReached client form z second h d r a s)
    (hbody : claimBody form z second h d = body) :
    serveClaim client.toNat body (received body s) = served (received body s) (do
      require (a.openTo (s.clientLevel client.toNat)) .locked
      let (c, s') ← claimAt z r (s.clientLevel client.toNat) (claimHold s client.toNat h d) (received body s) a
      return ({ result := claimResult d, detail := 0, body := c.bytes }, s')) := by
  subst hbody
  obtain ⟨_, lf, ls, hd, lz, hz, configured, target⟩ := q
  rw [serveClaim_eq (s := received _ s) lf lz ls hd hz configured, target, Check.ok_bind]
  rfl

theorem ClaimReached.answered (q : ClaimReached client form z second h d r a s)
    (lock : a.openTo (s.clientLevel client.toNat) = true) (hbody : claimBody form z second h d = body)
    (found : claimAt z r (s.clientLevel client.toNat) (claimHold s client.toNat h d) (received body s) a = .ok (c, v)) :
    exec (.claim client tag body) s =
      .next (respond tag { result := claimResult d, detail := 0, body := c.bytes } v) := by
  have serve := q.serve hbody
  rw [lock, require_true, Check.ok_bind, found, Check.ok_bind] at serve
  exact congrArg Host.Outcome.next (request_of_rule (hbody ▸ q.reaches) serve)

theorem ClaimReached.refused (q : ClaimReached client form z second h d r a s)
    (lock : a.openTo (s.clientLevel client.toNat) = true) (hbody : claimBody form z second h d = body)
    (found : claimAt z r (s.clientLevel client.toNat) (claimHold s client.toNat h d) (received body s) a =
      .error (Reply.refuse res)) :
    exec (.claim client tag body) s = .next (respond tag (Reply.refuse res) (received body s)) := by
  have serve := q.serve hbody
  rw [lock, require_true, Check.ok_bind, found, Check.error_bind, served_error] at serve
  exact congrArg Host.Outcome.next (request_of_rule (hbody ▸ q.reaches) serve)

theorem ClaimReached.locked (q : ClaimReached client form z second h d r a s)
    (lock : a.openTo (s.clientLevel client.toNat) = false) (hbody : claimBody form z second h d = body) :
    exec (.claim client tag body) s = .next (respond tag (Reply.refuse .locked) (received body s)) := by
  have serve := q.serve hbody
  rw [lock, require_false, Check.error_bind, served_error] at serve
  exact congrArg Host.Outcome.next (request_of_rule (hbody ▸ q.reaches) serve)

theorem ClaimAnswer.bytes_taken (cat : Category) (i until_ : Nat) :
    ClaimAnswer.bytes { prior := cat, taken := true, pending := false, holding := some (i, until_) } =
      number 1 cat.code ++ [0x01, 0x00, 0x01] ++ number 1 i ++ [0x01] ++ number 4 until_ := by
  simp [ClaimAnswer.bytes, flagByte, optBytes, timeOpt, u8, u32]

theorem ClaimAnswer.bytes_notTaken (cat : Category) (pending : Bool) :
    ClaimAnswer.bytes { prior := cat, taken := false, pending := pending, holding := none } =
      number 1 cat.code ++ [0x00, if pending then 0x01 else 0x00, 0x00, 0x00] := by
  simp [ClaimAnswer.bytes, flagByte, optBytes, timeOpt, u8]

/-- A CLAIM answers a result and a body, writes the port and some fields alone, and leaves a state with a property. -/
def ClaimAnswers (client : Byte) (tag : Half) (body : List Byte) (s : State) (fs : List Field) (res : Result)
    (answer : List Byte) (p : State → Prop) : Prop :=
  ∃ t, exec (.claim client tag body) s = .next t ∧ SameExcept (portFields ++ fs) s t ∧ Answers tag res 0 answer t ∧ p t

/-- A CLAIM that is refused changes no record. -/
theorem ClaimAnswers.of_refused (tag : Half)
    (h : exec (.claim client tag body) s = .next (respond tag (Reply.refuse res) (received body s))) :
    ClaimAnswers client tag body s [] res [] fun _ => True :=
  ⟨_, h, respond_refused tag _ body s, rfl, trivial⟩

/-- The answer to a CLAIM that takes no hold changes no record. -/
theorem ClaimReached.notTaken {prior : Category} {pending : Bool} (tag : Half)
    (q : ClaimReached client form z second h d r a s) (lock : a.openTo (s.clientLevel client.toNat) = true)
    (hbody : claimBody form z second h d = body)
    (found : claimAt z r (s.clientLevel client.toNat) (claimHold s client.toNat h d) (received body s) a =
      .ok ({ prior := prior, taken := false, pending := pending, holding := none }, received body s)) :
    ClaimAnswers client tag body s [] (claimResult d)
      (number 1 prior.code ++ [0x00, if pending then 0x01 else 0x00, 0x00, 0x00]) fun _ => True := by
  have answer := q.answered (tag := tag) lock hbody found
  rw [ClaimAnswer.bytes_notTaken] at answer
  exact ⟨_, answer, respond_refused tag _ body s, rfl, trivial⟩

/-- The records and the answer where a CLAIM makes a hold (R38, R39). -/
theorem ClaimReached.made {i g : Nat} {b : Bay} (tag : Half) (q : ClaimReached client form z second h d r a s)
    (lock : a.openTo (s.clientLevel client.toNat) = true) (hbody : claimBody form z second h d = body)
    (names : Names s z i g r b) (free : b.category = .free)
    (found : claimAt z r (s.clientLevel client.toNat) (claimHold s client.toNat h d) (received body s) a =
      .ok ({ prior := .free, taken := true, pending := false, holding := some (i, (claimHold s client.toNat h d).expiry) },
        makeHold g (claimHold s client.toNat h d) (received body s))) :
    ClaimAnswers client tag body s [.bays, .zones, .holdCount] (claimResult d)
      ([0x00, 0x01, 0x00, 0x01] ++ number 1 i ++ [0x01] ++ number 4 (claimHold s client.toNat h d).expiry) fun t =>
      t.bays.find g = some { b with hold := some (claimHold s client.toNat h d) } ∧ OnlyBay g s t ∧
      t.holdCount = s.holdCount + 1 ∧ t.zone z = some (r.nowHeld b.kind) ∧ OnlyZone z s t := by
  obtain ⟨bay, others, holds, zones⟩ :=
    makeHold_leaves (s := received body s) names free (claimHold s client.toNat h d)
  have changed : SameExcept [.bays, .zones, .holdCount] (received body s) (makeHold g (claimHold s client.toNat h d) _) :=
    (makeHold_frame (by decide) g _).2 (.refl _ _)
  have answer := q.answered (tag := tag) lock hbody found
  rw [ClaimAnswer.bytes_taken] at answer
  refine ⟨_, answer, respond_except tag _ changed, rfl, bay, others, holds, ?_, fun n hn => ?_⟩
  · obtain ⟨_, _, hz, _⟩ := names
    have own : (received body s).zone z = some r := hz
    exact (zones z).trans (by simp only [own, Option.map_some, if_true])
  · exact (zones n).trans (by simp only [if_neg hn, Option.map_id']; rfl)

end

end Sys2Proof.Machine

open Sys2Proof Sys2Proof.Machine

/-- Settles O21: the bay that a CLAIM names, or the one that it finds, and each category of it. -/
theorem claimMakesAHold : Obligations.ClaimMakesAHold := by
  intro client tag h d z r s hd level given x result named answers refused notTaken made
  have idle {form second : Nat} (hr : Reaches 2 client (named form second) s) (h : s.device = .unconfigured) :
      refused (named form second) .notNow :=
    ClaimAnswers.of_refused tag (congrArg Host.Outcome.next (request_of_rule hr (serveClaim_notNow h)))
  constructor
  · intro i g b names body hr
    have ⟨lz, li, hz, _⟩ := names
    have names' : Names (received body s) z i g r b := names
    have reached (configured : s.device ≠ .unconfigured) : ClaimReached client 0 z i h d r (.bay i g b) s :=
      ⟨hr, by decide, li, hd, lz, hz, configured, needClaimTarget_bay names'⟩
    refine ⟨idle hr, fun configured locked other => ?_, fun configured lock => ?_⟩
    · have barred : (ClaimTarget.bay i g b).openTo level = false :=
        Bool.eq_false_iff.2 fun h => (ClaimTarget.openTo_bay.1 h).elim (by simp [locked]) other
      exact ClaimAnswers.of_refused tag ((reached configured).locked barred rfl)
    · have q := reached configured
      have free : (ClaimTarget.bay i g b).openTo level = true := ClaimTarget.openTo_bay.2 lock
      refine ⟨fun cat vacant room => q.made tag free rfl names cat (claimBay_made cat vacant room),
        fun cat vacant full => ClaimAnswers.of_refused tag (q.refused free rfl (claimBay_full cat vacant full)),
        fun cat arriving => q.notTaken (prior := .free) (pending := true) tag free rfl (claimBay_pending cat arriving),
        fun cat => q.notTaken (prior := b.category) (pending := false) tag free rfl (claimBay_taken cat),
        fun y cat hold => ⟨fun other => ?_, fun same tagged => ?_⟩⟩
      · exact q.notTaken (prior := .held) (pending := false) tag free rfl (claimBay_other cat hold other)
      · obtain ⟨changed, rest⟩ := renewHold_leaves names' cat x
        have answer := q.answered (tag := tag) free rfl (claimBay_renewed cat hold same tagged)
        rw [ClaimAnswer.bytes_taken] at answer
        exact ⟨_, answer, respond_except tag _ changed, rfl, rest⟩
  · intro k lz hz body bay hr
    have reached (configured : s.device ≠ .unconfigured) : ClaimReached client 1 z k.code h d r (.anyOf k) s :=
      ⟨hr, by decide, k.code_lt, hd, lz, hz, configured, needClaimTarget_kind z k _⟩
    refine ⟨idle hr, fun configured => ⟨fun i g b names takes first => ?_, fun none_ => ?_⟩⟩
    · have ⟨_, _, _, inRange, hg, _, hb⟩ := names
      have ⟨_, free, _⟩ := takes
      have found : claimIndex r k level (received body s) = some i :=
        claimIndex_eq_some (s := received body s) inRange (hg ▸ hb) takes first
      refine ⟨fun room => (reached configured).made tag rfl rfl names free ?_,
        fun full => ClaimAnswers.of_refused tag ((reached configured).refused rfl rfl (claimAny_full found full))⟩
      rw [hg]
      exact claimAny_made found room
    · have found := claimAny_none (x := x) (claimIndex_eq_none (s := received body s) none_)
      refine ⟨fun passed => ?_, fun notPassed => ?_⟩
      · rw [claimPending_iff (s := received body s) |>.2 passed] at found
        exact (reached configured).notTaken (prior := .free) tag rfl rfl found
      · rw [Bool.eq_false_iff.2 (mt (claimPending_iff (s := received body s)).1 notPassed)] at found
        exact (reached configured).notTaken (prior := .free) tag rfl rfl found

end

section
/-!
SUPPORT. Zone masks, what a redirect pass raises, and what a change of fire states leaves of each record (R43, R145, R146,
R154, R188).
-/
namespace Sys2Proof.Machine

variable {s t u v w : State}

/-! ### Zone masks (R178) -/

theorem maskOf_foldl_bit (zs : List Nat) (m : ZoneMask) (n : Nat) :
    (zs.foldl (fun m z => m ||| (1#32 <<< z)) m).getLsbD n = true ↔ m.getLsbD n = true ∨ (n < 32 ∧ n ∈ zs) := by
  induction zs generalizing m with
  | nil => simp
  | cons z zs ih =>
    have bit : ((1#32 <<< z).getLsbD n = true) ↔ n < 32 ∧ n = z := by
      rw [BitVec.getLsbD_shiftLeft, BitVec.getLsbD_one]
      simp only [Bool.and_eq_true, decide_eq_true_eq, Bool.not_eq_true', decide_eq_false_iff_not]
      omega
    rw [List.foldl_cons, ih, BitVec.getLsbD_or, Bool.or_eq_true, bit, List.mem_cons, or_assoc, ← and_or_left]

/-- A mask names the zones of its list. -/
theorem maskOf_bit {zs : List Nat} {n : Nat} : (maskOf zs).getLsbD n = true ↔ n < 32 ∧ n ∈ zs := by
  rw [maskOf, maskOf_foldl_bit]
  simp

theorem mem_maskZones {m : ZoneMask} {n : Nat} : n ∈ maskZones m ↔ m.getLsbD n = true := by
  simp only [maskZones, List.mem_filter, List.mem_range, and_iff_right_iff_imp]
  exact fun h => BitVec.lt_of_getLsbD h

/-! ### The sources of a redirect pass (R43, R188) -/

theorem rechoose_source (closing : List Nat) (id n : Nat) (s : State) : (rechoose closing id s).source n = s.source n := by
  have frame : SameExcept [.steers, .zones, .passages, .lamps] s (rechoose closing id s) :=
    (rechoose_frame (by decide) closing id).2 (.refl _ s)
  have sources : (rechoose closing id s).sources = s.sources := frame .sources (by decide)
  rw [State.source, sources, State.source]

theorem releaseInRedirect_source {n : Nat} (hn : n ≠ 13) (g : Nat) (h : Nat × Nat) (s : State) :
    (releaseInRedirect g h s).source n = s.source n := by
  unfold releaseInRedirect
  split
  · have frame : SameExcept [.bays, .zones] s (changeBay g (fun x => { x with hold := none }) s) :=
      (changeBay_frame (by decide) g _).2 (.refl _ s)
    have sources : (changeBay g (fun x => { x with hold := none }) s).sources = s.sources := frame .sources (by decide)
    rw [reportEnding_source (by decide), if_neg hn, State.source, sources, State.source]
  · rfl

theorem steerBecomesPlain_source (id n : Nat) (s : State) : (steerBecomesPlain id s).source n = s.source n := by
  have frame : SameExcept [.zones, .steers] s (steerBecomesPlain id s) :=
    (steerBecomesPlain_frame (by decide) id).2 (.refl _ s)
  have sources : (steerBecomesPlain id s).sources = s.sources := frame .sources (by decide)
  rw [State.source, sources, State.source]

/-- A redirect pass raises HOLD_ENDED alone (R43, R67). -/
theorem redirectOne_source {n : Nat} (hn : n ≠ 13) (closing : List Nat) (s : State) (id : Nat) :
    (redirectOne closing s id).source n = s.source n := by
  rw [redirectOne, rechoose_source]
  unfold giveUpHold
  split
  · rfl
  · split
    · rfl
    · split
      · exact steerBecomesPlain_source _ _ _
      · exact (steerBecomesPlain_source _ _ _).trans (releaseInRedirect_source hn _ _ _)

theorem redirectPass_source {n : Nat} (hn : n ≠ 13) (closing : List Nat) (s : State) :
    (redirectPass closing s).source n = s.source n := by
  unfold redirectPass
  induction redirected closing s generalizing s with
  | nil => rfl
  | cons id ids ih => exact (ih _).trans (redirectOne_source hn closing s id)

/-! ### A change of fire states (R145, R146) -/

theorem raiseFire_source (cause : FireCause) {z : Nat} {y : Zone} (hz : s.zone z = some y) (n : Nat) :
    (raiseFire cause s z).source n =
      if n = 0 then (s.source 0).raise s.partTime (maskOf [z]) (number 1 z ++ number 1 y.fire.code ++ number 1 cause.code)
      else s.source n := by
  rw [raiseFire, hz]
  simp only [State.source_raise, srcFire, Nat.zero_lt_succ, and_true]
  rfl

theorem raiseFire_except (cause : FireCause) (s : State) (z : Nat) : SameExcept [.sources] s (raiseFire cause s z) := by
  unfold raiseFire
  split
  · exact .refl _ _
  · exact (raise_frame (by decide) _ _ _).2 (.refl _ s)

/-- The detail of a FIRE (R146). -/
def fireDetail (cause : FireCause) (s : State) (z : Nat) : List Byte :=
  zoneDetail (fun y => number 1 y.fire.code ++ number 1 cause.code) s z

/-- FIRE raised for zones one after another. -/
theorem raiseFire_fold (cause : FireCause) {zs : List Nat} (configured : ∀ z ∈ zs, ∃ y, s.zone z = some y) :
    (zs.foldl (raiseFire cause) s).source 0 =
        zs.foldl (fun r n => r.raise s.partTime (maskOf [n]) (fireDetail cause s n)) (s.source 0) ∧
      ∀ n, n ≠ 0 → (zs.foldl (raiseFire cause) s).source n = s.source n := by
  induction zs generalizing s with
  | nil => exact ⟨rfl, fun _ _ => rfl⟩
  | cons z zs ih =>
    obtain ⟨y, hy⟩ := configured z List.mem_cons_self
    have frame := raiseFire_except cause s z
    have zones : (raiseFire cause s z).zones = s.zones := frame .zones (by decide)
    have time : (raiseFire cause s z).partTime = s.partTime := frame .partTime (by decide)
    have zone (n : Nat) : (raiseFire cause s z).zone n = s.zone n := by rw [State.zone, zones, State.zone]
    have detail (n : Nat) : fireDetail cause (raiseFire cause s z) n = fireDetail cause s n := by
      rw [fireDetail, fireDetail, zoneDetail, zoneDetail, zone]
    obtain ⟨fire, others⟩ := ih (s := raiseFire cause s z) fun n hn => by
      rw [zone]
      exact configured n (List.mem_cons_of_mem _ hn)
    have own : fireDetail cause s z = number 1 z ++ number 1 y.fire.code ++ number 1 cause.code := by
      rw [fireDetail, zoneDetail, hy, ← List.append_assoc]
    refine ⟨?_, fun n hn => ?_⟩
    · rw [List.foldl_cons, fire, raiseFire_source cause hy, if_pos rfl, List.foldl_cons, own, time]
      simp only [detail]
    · rw [List.foldl_cons, others n hn, raiseFire_source cause hy, if_neg hn]

/-- The zones whose fire state a move changes (R145). -/
theorem mem_fireChanges {move : Nat → Zone → FireMove} (wf : s.zones.wf = true) {n : Nat} :
    n ∈ fireChanges move s ↔ ∃ z, s.zone n = some z ∧ (move n z).fire ≠ z.fire := by
  simp only [fireChanges, Table.keys, List.mem_map, List.mem_filter, decide_eq_true_eq]
  constructor
  · rintro ⟨q, ⟨mem, changed⟩, rfl⟩
    exact ⟨q.2, Table.find_of_mem wf mem, changed⟩
  · rintro ⟨z, hz, changed⟩
    exact ⟨(n, z), ⟨Table.mem_of_find hz, changed⟩, rfl⟩

theorem fireChanges_pairwise (move : Nat → Zone → FireMove) (wf : s.zones.wf = true) :
    (fireChanges move s).Pairwise (· < ·) :=
  List.pairwise_map.2 ((Table.pairwise_of_wf wf).filter _)

/-- The zones moved, with FIRE raised for those whose fire state changes. -/
def raisedFire (cause : FireCause) (move : Nat → Zone → FireMove) (s : State) : State :=
  (fireChanges move s).foldl (raiseFire cause) (storeFire move s)

/-- What is handed on to the fans and lamps before the redirect pass. -/
def handedFire (cause : FireCause) (move : Nat → Zone → FireMove) (s : State) : State :=
  let zs := fireChanges move s
  settleLampsOf zs (gate (retargetZones zs (settleDemand zs (raisedFire cause move s))))

theorem moveFire_eq (cause : FireCause) (move : Nat → Zone → FireMove) (s : State) :
    moveFire cause move s = redirectPass (leavingOpen (fireChanges move s) (handedFire cause move s))
      (refreshGuidance (fireChanges move s) (handedFire cause move s)) := rfl

/-- The zone records after a change of fire states: what derives from the fire state follows it where it changes, and the
redirect pass may move counts. -/
theorem moveFire_zone (cause : FireCause) (move : Nat → Zone → FireMove) (s : State) :
    ∃ c : Nat → Zone → Counts, ∀ n, (moveFire cause move s).zone n = (s.zone n).map fun z =>
      { (z.withFire (move n z)).settledBy s.device (fireChanges move s) (fireChanges move s) n with counts := c n z } := by
  have raised : Aside (storeFire move s) (raisedFire cause move s) := .foldl (raiseFire_aside cause) _ _
  have handed : Aside (storeDemand (fireChanges move s) (storeFire move s)) (handedFire cause move s) :=
    (raised.storeDemand _).trans <|
      (((settleDemand_aside _ _).trans (retargetZones_aside _ _)).trans (gate_aside _)).trans (settleLampsOf_aside _ _)
  obtain ⟨zones, _⟩ := settledBy_zones (g := fireChanges move s) (dev := s.device) handed
  obtain ⟨c, counted⟩ := (redirectPass_minors (ok := fun _ => True)
    (leavingOpen (fireChanges move s) (handedFire cause move s))
    (refreshGuidance (fireChanges move s) (handedFire cause move s))).zones
  refine ⟨fun n z => c n ((z.withFire (move n z)).settledBy s.device (fireChanges move s) (fireChanges move s) n), fun n => ?_⟩
  rw [State.zone, moveFire_eq, counted, Table.find_mapWith, zones, Table.find_mapWith, Option.map_map, State.zone]
  rfl

/-- The sources after a change of fire states: FIRE, and HOLD_ENDED by the redirect pass, alone (R146). -/
theorem moveFire_source (cause : FireCause) (move : Nat → Zone → FireMove) (wf : s.zones.wf = true) :
    (moveFire cause move s).source 0 =
        (fireChanges move s).foldl (fun r n => r.raise s.partTime (maskOf [n]) (fireDetail cause (storeFire move s) n))
          (s.source 0) ∧
      ∀ n, n ≠ 0 → n ≠ 13 → (moveFire cause move s).source n = s.source n := by
  have configured : ∀ z ∈ fireChanges move s, ∃ y, (storeFire move s).zone z = some y := fun z hz => by
    obtain ⟨y, hy, _⟩ := (mem_fireChanges wf).1 hz
    exact ⟨y.withFire (move z y), by rw [storeFire_zone, hy]; rfl⟩
  obtain ⟨fire, others⟩ := raiseFire_fold cause configured
  have later (n : Nat) (hn : n ≠ 13) : (moveFire cause move s).source n = (raisedFire cause move s).source n := by
    have frame : SameExcept [.fans, .lamps, .zones] (raisedFire cause move s)
        (refreshGuidance (fireChanges move s) (handedFire cause move s)) := by
      simp (disch := decide) [handedFire]
    have sources := frame .sources (by decide)
    rw [moveFire_eq, redirectPass_source hn]
    exact congrArg (fun l => fixedAt l n _) sources
  exact ⟨(later 0 (by decide)).trans fire, fun n h0 h13 => (later n h13).trans (others n h0)⟩

/-- A zone's fire state and flags after the event, and what derives from the fire state. -/
theorem moveFire_found {n : Nat} {z : Zone} (cause : FireCause) (move : Nat → Zone → FireMove) (wf : s.zones.wf = true)
    (hz : s.zone n = some z) :
    ∃ z', (moveFire cause move s).zone n = some z' ∧
      z' = { z with
        fire := (move n z).fire, lineFlag := (move n z).lineFlag, declaredFlag := (move n z).declaredFlag
        guidance := z'.guidance, demand := z'.demand, counts := z'.counts } ∧
      ((move n z).fire ≠ z.fire → z'.guidance = deriveGuidance s.device z' ∧ z'.demand = demandStep z') ∧
      ((move n z).fire = z.fire → z'.guidance = z.guidance ∧ z'.demand = z.demand) := by
  obtain ⟨c, zone⟩ := moveFire_zone cause move s
  refine ⟨_, by rw [zone, hz, Option.map_some], rfl, fun changed => ?_, fun same => ?_⟩
  · have mem : n ∈ fireChanges move s := (mem_fireChanges wf).2 ⟨z, hz, changed⟩
    exact ⟨if_pos mem, if_pos mem⟩
  · have out : n ∉ fireChanges move s := fun mem => by
      obtain ⟨y, hy, changed⟩ := (mem_fireChanges wf).1 mem
      obtain rfl := Option.some.inj (hz.symm.trans hy)
      exact changed same
    exact ⟨if_neg out, if_neg out⟩

/-- The zones named by the FIRE of an event, with what is raised for them (R146). -/
theorem moveFire_raised (cause : FireCause) (move : Nat → Zone → FireMove) (wf : s.zones.wf = true)
    (zones : t.zones = (moveFire cause move s).zones)
    (source : ∀ n, n ≠ 15 → t.source n = (moveFire cause move s).source n) :
    NamesZones (fireChanges move s) (fun y y' => y'.fire ≠ y.fire) s t ∧
      RaisedOver 0 (fireChanges move s) (zoneDetail (fun y => number 1 y.fire.code ++ number 1 cause.code) t) s t ∧
      ∀ n, n ∉ [0, 13, 15] → t.source n = s.source n := by
  have zone (n : Nat) : t.zone n = (moveFire cause move s).zone n := congrArg (Table.find · n) zones
  have detail (n : Nat) : zoneDetail (fun y => number 1 y.fire.code ++ number 1 cause.code) t n =
      fireDetail cause (storeFire move s) n := by
    obtain ⟨c, moved⟩ := moveFire_zone cause move s
    rw [fireDetail, zoneDetail, zoneDetail, zone, moved, storeFire_zone]
    cases s.zone n <;> rfl
  obtain ⟨fire, others⟩ := moveFire_source cause move wf
  refine ⟨⟨fireChanges_pairwise move wf, fun n => ?_⟩, ?_, fun n hn => ?_⟩
  · rw [mem_fireChanges wf]
    refine exists_congr fun z => ⟨fun ⟨hz, changed⟩ => ?_, fun ⟨y', hz, hy', changed⟩ => ?_⟩
    · obtain ⟨z', hz', e, _⟩ := moveFire_found cause move wf hz
      refine ⟨z', hz, (zone n).trans hz', ?_⟩
      rw [e]
      exact changed
    · obtain ⟨z', hz', e, _⟩ := moveFire_found cause move wf hz
      obtain rfl := Option.some.inj (hz'.symm.trans ((zone n).symm.trans hy'))
      rw [e] at changed
      exact ⟨hz, changed⟩
  · rw [RaisedOver, source 0 (by decide), fire]
    simp only [detail]
  · simp only [List.mem_cons, List.not_mem_nil, or_false, not_or] at hn
    rw [source n hn.2.2, others n hn.1 hn.2.1]

/-! ### The wake of a declaration (R154) -/

theorem wakeEvent_awake {cause : WakeCause} (zs : List Nat) (h : s.device ≠ .quiet) : wakeEvent cause zs s = s := if_neg h

/-- What a wake leaves of the records (R154). -/
theorem wakeEvent_quiet (cause : WakeCause) (zs : List Nat) (h : s.device = .quiet) :
    SameExcept quietFields s (wakeEvent cause zs s) ∧ WakeTaken cause zs s (wakeEvent cause zs s) ∧
      ∀ n, n ≠ 15 → (wakeEvent cause zs s).source n = s.source n := by
  let u := (s.setQuiet { s.quiet with
    mode := .noMode, enteredAt := none, wakeTime := some s.partTime, wakeCause := some cause,
    warmUntil := some (s.partTime + s.quiet.warmTime), warmSet := s.heads.keys }).setDevice .warming
  let v := settleAllLamps (forSegments (Segment.woken (s.device = .quiet)) u)
  have settled : SameExcept [.segments, .lamps] u v :=
    (settleAllLamps_frame (by decide)).2 ((forSegments_frame (by decide) _).2 (.refl _ u))
  have woken : wakeEvent cause zs s = raise 15 zs (number 1 1 ++ number 1 cause.code) v := if_pos h
  have raised : SameExcept [.sources] v (raise 15 zs (number 1 1 ++ number 1 cause.code) v) :=
    (raise_frame (by decide) _ _ _).2 (.refl _ v)
  have frame : SameExcept quietFields s (wakeEvent cause zs s) := by
    rw [wakeEvent, if_pos h]
    exact (enterWarming_frame (by decide) _ _).2 (.refl _ s)
  have sources : v.sources = s.sources := settled .sources (by decide)
  have time : v.partTime = s.partTime := settled .partTime (by decide)
  have source (n : Nat) : (wakeEvent cause zs s).source n =
      if n = 15 then (s.source 15).raise s.partTime (maskOf zs) (number 1 1 ++ number 1 cause.code) else s.source n := by
    rw [woken, State.source_raise, time, State.source, State.source, sources]
    simp only [Nat.reduceLT, and_true]
    rfl
  refine ⟨frame, ⟨?_, ?_, ?_⟩, fun n hn => ?_⟩
  · rw [woken]
    exact Eq.trans (raised .device (by decide)) (settled .device (by decide))
  · rw [woken]
    exact Eq.trans (raised .quiet (by decide)) (settled .quiet (by decide))
  · rw [source, if_pos rfl]
  · rw [source, if_neg hn]

end Sys2Proof.Machine
end

section
/-!
SUPPORT. DECLARE_FIRE and CLEAR_FIRE served (R143, R144), and O52.
-/
namespace Sys2Proof.Machine

variable {s t u v w : State}

theorem needFireZones_ok {m : ZoneMask} (some_ : m ≠ 0) (configured : ∀ n, m.getLsbD n = true → (s.zone n).isSome = true) :
    needFireZones (maskBytes m) s = .ok (maskZones m) := by
  have all : (maskZones m).all s.zones.has = true := List.all_eq_true.2 fun n hn => configured n (mem_maskZones.1 hn)
  have named : decide (m ≠ 0) = true := decide_eq_true some_
  rw [needFireZones, (reads_maskBytes m).fields_last, Check.ok_bind]
  simp only [named, all, require_true, Check.ok_bind]
  rfl

theorem serveDeclareFire_eq (client : Nat) {m : ZoneMask} (some_ : m ≠ 0)
    (configured : ∀ n, m.getLsbD n = true → (s.zone n).isSome = true) :
    serveDeclareFire client (maskBytes m) s =
      (Reply.done (maskBytes (maskOf (fireChanges (declareMove (maskZones m)) s))),
        wakeEvent .fire (fireChanges (declareMove (maskZones m)) s) (moveFire .declare (declareMove (maskZones m)) s)) := by
  rw [serveDeclareFire, needFireZones_ok some_ configured]
  rfl

theorem serveClearFire_eq (client : Nat) {m : ZoneMask} (some_ : m ≠ 0)
    (configured : ∀ n, m.getLsbD n = true → (s.zone n).isSome = true) :
    serveClearFire client (maskBytes m) s =
      (Reply.done (maskBytes (maskOf (fireChanges (clearMove (maskZones m)) s)) ++
          maskBytes (maskOf (leftActive (maskZones m) s))),
        moveFire .clear (clearMove (maskZones m)) s) := by
  rw [serveClearFire, needFireZones_ok some_ configured]
  rfl

/-- A zone record with its fire state and flags as they are. -/
def Zone.fireKept (z : Zone) : FireMove := { fire := z.fire, lineFlag := z.lineFlag, declaredFlag := z.declaredFlag }

theorem declareMove_named {m : ZoneMask} {n : Nat} (h : m.getLsbD n = true) (z : Zone) :
    declareMove (maskZones m) n z = { fire := .active, lineFlag := z.lineFlag, declaredFlag := true } := by
  simp [declareMove, mem_maskZones.2 h]

theorem declareMove_other {m : ZoneMask} {n : Nat} (h : m.getLsbD n = false) (z : Zone) :
    declareMove (maskZones m) n z = z.fireKept := by
  have : n ∉ maskZones m := fun mem => by simp [mem_maskZones.1 mem] at h
  simp [declareMove, this, Zone.fireKept]

theorem clearMove_other {m : ZoneMask} {n : Nat} (h : m.getLsbD n = false) (z : Zone) :
    clearMove (maskZones m) n z = z.fireKept := by
  have : n ∉ maskZones m := fun mem => by simp [mem_maskZones.1 mem] at h
  simp [clearMove, this, Zone.fireKept]

/-- What a clearing does to a zone of the mask (R144). -/
def clearedFire (z : Zone) : FireMove :=
  match z.fire with
  | .active => if z.lineFlag then { fire := .active, lineFlag := true, declaredFlag := false }
      else { fire := .noFire, lineFlag := false, declaredFlag := false }
  | _ => { fire := .noFire, lineFlag := z.lineFlag, declaredFlag := z.declaredFlag }

theorem clearedFire_line {z : Zone} (active : z.fire = .active) (on : z.lineFlag = true) :
    clearedFire z = { fire := .active, lineFlag := true, declaredFlag := false } := by simp [clearedFire, active, on]

theorem clearedFire_declared {z : Zone} (active : z.fire = .active) (off : z.lineFlag = false) :
    clearedFire z = { fire := .noFire, lineFlag := false, declaredFlag := false } := by simp [clearedFire, active, off]

theorem clearedFire_inactive {z : Zone} (inactive : z.fire ≠ .active) :
    clearedFire z = { fire := .noFire, lineFlag := z.lineFlag, declaredFlag := z.declaredFlag } := by
  unfold clearedFire
  split
  · next active => exact absurd active inactive
  · rfl

theorem clearMove_named {m : ZoneMask} {n : Nat} (h : m.getLsbD n = true) (z : Zone) :
    clearMove (maskZones m) n z = clearedFire z := by
  rw [clearMove, clearedFire]
  simp only [List.contains_eq_mem, mem_maskZones.2 h, decide_true, if_true]
  cases z.fire <;> rfl

/-- A zone keeps all but what a change of its fire state moves, and all but its counts outside the mask. -/
theorem moveFire_kept {m : ZoneMask} (cause : FireCause) {move : Nat → Zone → FireMove} (wf : s.zones.wf = true)
    (outside : ∀ n z, m.getLsbD n = false → move n z = z.fireKept) (zones : t.zones = (moveFire cause move s).zones) :
    ∀ n z, s.zone n = some z → ∃ z', t.zone n = some z' ∧
      z' = { z with fire := z'.fire, lineFlag := z'.lineFlag, declaredFlag := z'.declaredFlag, guidance := z'.guidance,
                    demand := z'.demand, counts := z'.counts } ∧
      (z'.fire ≠ z.fire → z'.guidance = deriveGuidance s.device z' ∧ z'.demand = demandStep z') ∧
      (m.getLsbD n = false → z' = { z with counts := z'.counts }) := fun n z hz => by
  obtain ⟨z', hz', e, derived, stands⟩ := moveFire_found cause move wf hz
  have fire : z'.fire = (move n z).fire := by rw [e]
  refine ⟨z', (congrArg (Table.find · n) zones).trans hz', by rw [e], fun changed => derived (fire ▸ changed), fun out => ?_⟩
  have kept := outside n z out
  obtain ⟨guidance, demand⟩ := stands (by rw [kept]; rfl)
  rw [kept, guidance, demand] at e
  exact e

theorem wakeEvent_except (cause : WakeCause) (zs : List Nat) (s : State) :
    SameExcept quietFields s (wakeEvent cause zs s) ∧ ∀ n, n ≠ 15 → (wakeEvent cause zs s).source n = s.source n := by
  by_cases h : s.device = .quiet
  · obtain ⟨frame, _, source⟩ := wakeEvent_quiet cause zs h
    exact ⟨frame, source⟩
  · rw [wakeEvent_awake zs h]
    exact ⟨.refl _ s, fun _ _ => rfl⟩

theorem moveFire_except (cause : FireCause) (move : Nat → Zone → FireMove) (s : State) :
    SameExcept zoneFields s (moveFire cause move s) := (moveFire_frame (by decide) cause move).2 (.refl _ s)

/-- The answer names the zones of the mask whose fire state changes (R143, R144). -/
theorem changedMask_named {m : ZoneMask} {n : Nat} {z : Zone} (move : Nat → Zone → FireMove) (wf : s.zones.wf = true)
    (hn : m.getLsbD n = true) (hz : s.zone n = some z) :
    (maskOf (fireChanges move s)).getLsbD n = true ↔ (move n z).fire ≠ z.fire := by
  rw [maskOf_bit, mem_fireChanges wf]
  constructor
  · rintro ⟨_, y, hy, moves⟩
    obtain rfl := Option.some.inj (hz.symm.trans hy)
    exact moves
  · exact fun moves => ⟨BitVec.lt_of_getLsbD hn, z, hz, moves⟩

theorem changedMask_other {m : ZoneMask} {n : Nat} {move : Nat → Zone → FireMove} (wf : s.zones.wf = true)
    (outside : ∀ n z, m.getLsbD n = false → move n z = z.fireKept) (hn : m.getLsbD n = false) :
    (maskOf (fireChanges move s)).getLsbD n = false := Bool.eq_false_iff.2 fun set => by
  obtain ⟨_, mem⟩ := maskOf_bit.1 set
  obtain ⟨z, _, moves⟩ := (mem_fireChanges wf).1 mem
  rw [outside n z hn] at moves
  exact moves rfl

/-- The zones that a clearing leaves ACTIVE (R144). -/
theorem mem_leftActive {zs : List Nat} {n : Nat} {z : Zone} (hz : s.zone n = some z) :
    n ∈ leftActive zs s ↔ n ∈ zs ∧ z.fire = .active ∧ z.lineFlag = true := by
  simp [leftActive, State.zoneIs, hz]

end Sys2Proof.Machine

open Sys2Proof Sys2Proof.Machine

/-- Settles O52: a declaration and a clearing are moves of the fire states of the mask's zones; a declaration may wake. -/
theorem fireIsDeclaredAndCleared : Obligations.FireIsDeclaredAndCleared := by
  intro client tag m s hr wf some_ configured kept raised
  let s' := received (maskBytes m) s
  constructor
  · let move := declareMove (maskZones m)
    let zs := fireChanges move s'
    have serve := serveDeclareFire_eq (s := s') client.toNat some_ configured
    obtain ⟨v, hv⟩ : ∃ v, moveFire .declare move s' = v := ⟨_, rfl⟩
    obtain ⟨w, hw⟩ : ∃ w, wakeEvent .fire zs v = w := ⟨_, rfl⟩
    rw [hv, hw] at serve
    have moved : SameExcept zoneFields s' v := hv ▸ moveFire_except .declare move s'
    obtain ⟨wakes, sources⟩ : SameExcept quietFields v w ∧ ∀ n, n ≠ 15 → w.source n = v.source n :=
      hw ▸ wakeEvent_except .fire zs v
    have zones : w.zones = v.zones := wakes .zones (by decide)
    have frame : SameExcept (zoneFields ++ quietFields) s' w := (moved.mono (by decide)).trans (wakes.mono (by decide))
    have device : v.device = s.device := moved .device (by decide)
    have source : v.source 15 = s.source 15 := hv ▸ (moveFire_source .declare move (s := s') wf).2 15 (by decide) (by decide)
    refine ⟨_, maskOf zs, congrArg Host.Outcome.next (request_of_rule hr serve), respond_except tag _ frame,
      moveFire_kept (s := s') (m := m) (t := w) .declare wf (fun n z out => declareMove_other out z) (hv ▸ zones), rfl,
      fun n z hn hz => ⟨?_, ?_⟩, fun n hn => ?_, zs,
      moveFire_raised (s := s') (t := w) .declare move wf (hv ▸ zones) (hv ▸ sources), fun awake => ?_, fun quiet => ?_⟩
    · rw [changedMask_named (s := s') _ wf hn hz, show move n z = _ from declareMove_named hn z]
      exact ne_comm
    · obtain ⟨z', hz', e, _⟩ := moveFire_found (s := s') .declare move wf hz
      rw [show move n z = _ from declareMove_named hn z] at e
      have line := congrArg Zone.lineFlag e
      exact ⟨z', (congrArg (Table.find · n) zones).trans (hv ▸ hz'), congrArg Zone.fire e, congrArg Zone.declaredFlag e, line⟩
    · exact changedMask_other (s := s') wf (fun n z out => declareMove_other out z) hn
    · obtain rfl : v = w := (wakeEvent_awake zs (device ▸ awake)).symm.trans hw
      exact ⟨device, moved .quiet (by decide), source⟩
    · obtain ⟨woken, mode, told⟩ : WakeTaken .fire zs v w := hw ▸ (wakeEvent_quiet .fire zs (device.trans quiet)).2.1
      have quiet' : v.quiet = s.quiet := moved .quiet (by decide)
      have time : v.partTime = s.partTime := moved .partTime (by decide)
      have heads : v.heads = s.heads := moved .heads (by decide)
      refine ⟨woken, ?_, ?_⟩
      · exact mode.trans (by rw [quiet', time, heads])
      · exact told.trans (by rw [source, time])
  · let move := clearMove (maskZones m)
    let zs := fireChanges move s'
    have serve := serveClearFire_eq (s := s') client.toNat some_ configured
    obtain ⟨v, hv⟩ : ∃ v, moveFire .clear move s' = v := ⟨_, rfl⟩
    rw [hv] at serve
    have moved : SameExcept zoneFields s' v := hv ▸ moveFire_except .clear move s'
    have source := (moveFire_source .clear move (s := s') wf).2
    rw [hv] at source
    refine ⟨_, maskOf zs, maskOf (leftActive (maskZones m) s'), congrArg Host.Outcome.next (request_of_rule hr serve),
      respond_except tag _ moved,
      moveFire_kept (s := s') (m := m) (t := v) .clear wf (fun n z out => clearMove_other out z) (hv ▸ rfl), rfl,
      fun n z hn hz => ⟨?_, ?_, ?_⟩, fun n hn => ⟨?_, ?_⟩, zs,
      moveFire_raised (s := s') (t := v) .clear move wf (hv ▸ rfl) (hv ▸ fun _ _ => rfl),
      moved .device (by decide), moved .quiet (by decide), source 15 (by decide) (by decide)⟩
    · rw [changedMask_named (s := s') _ wf hn hz, show move n z = _ from clearMove_named hn z, clearedFire]
      cases z.fire <;> cases z.lineFlag <;> simp
    · rw [maskOf_bit, mem_leftActive (s := s') hz, mem_maskZones]
      exact ⟨fun h => h.2.2, fun h => ⟨BitVec.lt_of_getLsbD hn, hn, h⟩⟩
    · obtain ⟨z', hz', e, _⟩ := moveFire_found (s := s') .clear move wf hz
      rw [show move n z = _ from clearMove_named hn z] at e
      have fire : z'.fire = (clearedFire z).fire := congrArg Zone.fire e
      have line : z'.lineFlag = (clearedFire z).lineFlag := congrArg Zone.lineFlag e
      have declared : z'.declaredFlag = (clearedFire z).declaredFlag := congrArg Zone.declaredFlag e
      refine ⟨z', hv ▸ hz', fun active on => ?_, fun active off => ?_, fun inactive => ?_⟩
      · rw [clearedFire_line active on] at fire line declared
        exact ⟨fire, line, declared⟩
      · rw [clearedFire_declared active off] at fire line declared
        exact ⟨fire, line, declared⟩
      · rw [clearedFire_inactive inactive] at fire line declared
        exact ⟨fire, line, declared⟩
    · exact changedMask_other (s := s') wf (fun n z out => clearMove_other out z) hn
    · refine Bool.eq_false_iff.2 fun set => ?_
      obtain ⟨_, mem⟩ := maskOf_bit.1 set
      have named := mem_maskZones.1 (List.mem_filter.1 mem).1
      simp [hn] at named

end

section
/-!
SUPPORT. CONFIGURE of a zone with its required fields (R6, R14, R15, R22), and O16.
-/
namespace Sys2Proof.Machine

variable {s t u v w : State}

/-! ### The bays of a new range (R6, R22) -/

/-- Each number of the range that had no record has a new one; every other record stands. -/
theorem fillNumbers_find (now : Nat) (l : List Nat) (bays : Table Bay) (n : Nat) :
    (fillNumbers now l bays).find n =
      if n ∈ l ∧ bays.find n = none then some (Bay.ranged now) else bays.find n := by
  induction l generalizing bays with
  | nil => simp [fillNumbers]
  | cons g l ih =>
    rw [fillNumbers, List.foldl_cons, ← fillNumbers, ih]
    cases hg : bays.find g with
    | some b =>
      have has : Table.has bays g = true := by simp [Table.has, hg]
      by_cases e : n = g
      · simp [has, e, hg]
      · simp [has, e]
    | none =>
      have has : Table.has bays g = false := by simp [Table.has, hg]
      by_cases e : n = g
      · simp [has, e, hg]
      · simp [has, e, Table.find_put]

/-- The new records of some numbers are counted beside those that stood. -/
theorem fillNumbers_countP_new (now : Nat) {l : List Nat} (nodup : l.Nodup) {bays : Table Bay}
    (free : ∀ g ∈ l, bays.find g = none) (p : Nat × Bay → Bool) :
    (fillNumbers now l bays).countP p = bays.countP p + l.countP fun g => p (g, Bay.ranged now) := by
  induction l generalizing bays with
  | nil => rfl
  | cons g l ih =>
    obtain ⟨notIn, rest⟩ := List.nodup_cons.1 nodup
    have hg : bays.find g = none := free g List.mem_cons_self
    have has : Table.has bays g = false := by simp [Table.has, hg]
    rw [fillNumbers, List.foldl_cons, ← fillNumbers, has, List.countP_cons]
    simp only [Bool.false_eq_true, if_false]
    rw [ih rest fun g' hg' => ?_, Table.countP_put_new hg, Table.one]
    · omega
    · rw [Table.find_put, if_neg fun e : g' = g => notIn (e ▸ hg')]
      exact free g' (List.mem_cons_of_mem _ hg')

/-- Counts of a range whose numbers had no records: all its bays are STANDARD and UNAVAILABLE (R6, R22). -/
theorem countBays_fillRange (now : Nat) (c : ZoneConfig) {bays : Table Bay} (free : ∀ g ∈ c.range, bays.find g = none)
    (k : BayKind) (cat : Category) :
    countBays (baysIn c (fillRange now c bays)) k cat =
      if k = .standard ∧ cat = .unavailable then c.bayCount else 0 := by
  have none_ : bays.countP (counted c k cat) = 0 := List.countP_eq_zero.2 fun q hq => by
    have out : c.covers q.1 = false := Bool.eq_false_iff.2 fun covers =>
      Table.find_eq_none.1 (free q.1 (ZoneConfig.mem_range.2 covers)) (List.mem_map.2 ⟨q, hq, rfl⟩)
    simp [counted, out]
  have fresh (g : Nat) (hg : g ∈ c.range) :
      counted c k cat (g, Bay.ranged now) = decide (k = .standard ∧ cat = .unavailable) := by
    rw [counted, ZoneConfig.mem_range.1 hg]
    cases k <;> cases cat <;> rfl
  rw [countBays_baysIn, fillRange_eq, fillNumbers_countP_new now (l := c.range) List.nodup_range' free, none_, Nat.zero_add,
    List.countP_congr fun g hg => by rw [fresh g hg]]
  split
  · next h => simp [h, ZoneConfig.range]
  · next h => simp [h]

/-! ### The form (R13, R14) -/

/-- The set form of a zone with its required fields alone. -/
def requiredZone (level base count : Nat) : ZoneFields where
  level := level
  base := base
  count := count
  airHeads := none
  travel := none
  baseStep := none
  quietBase := none
  blindStep := none
  longAllowed := none
  fireGroup := none
  haltRole := none

/-- The configuration of a zone whose optional fields are absent (R13). -/
def defaultZone (level base count : Nat) : ZoneConfig where
  level := level
  bayBase := base
  bayCount := count
  airHeads := []
  travelTime := 180
  baseStep := 1
  quietBase := 0
  blindStep := 2
  longAllowed := false
  fireGroup := true
  haltRole := false

theorem requiredZone_config (level base count : Nat) :
    (requiredZone level base count).config = (defaultZone level base count, false) := rfl

theorem reads_requiredZone {level base count : Nat} (hl : level < 256) (hb : base < 65536) (hc : count < 256) :
    Reads readZone (number 1 level ++ (number 2 base ++ (number 1 count ++ zeros 8))) (requiredZone level base count) := by
  intro rest
  have eight : zeros 8 ++ rest = [0] ++ ([0] ++ ([0] ++ ([0] ++ ([0] ++ ([0] ++ ([0] ++ ([0] ++ rest))))))) := rfl
  simp only [readZone, List.append_assoc]
  rw [reads_number_one hl]
  simp only [Option.bind_eq_bind, Option.bind_some]
  rw [reads_number_two hb]
  simp only [Option.bind_some]
  rw [reads_number_one hc, eight]
  rfl

/-- The range of a new zone passes its checks (R2, R14). -/
theorem needRange_fits {n : Nat} {c : ZoneConfig} (level : 1 ≤ c.level ∧ c.level ≤ 6) (base : c.bayBase ≤ 2047)
    (count : c.bayCount ≤ 255) (fits : c.bayBase + c.bayCount ≤ 2048)
    (apart : ∀ q ∈ s.zones, ∀ g, c.bayBase ≤ g → g < c.bayBase + c.bayCount → q.2.config.covers g = false) :
    needRange n c s = .ok () := by
  obtain ⟨low, high⟩ := level
  have fits' : c.bayBase + c.bayCount ≤ Config.bayNumbers := fits
  have clear : (s.zones.all fun p => p.1 = n || !p.2.config.overlaps c) = true := List.all_eq_true.2 fun q hq => by
    have none_ : q.2.config.overlaps c = false := Bool.eq_false_iff.2 fun overlaps => by
      have common : max q.2.config.bayBase c.bayBase <
          min (q.2.config.bayBase + q.2.config.bayCount) (c.bayBase + c.bayCount) := of_decide_eq_true overlaps
      have out := apart q hq (max q.2.config.bayBase c.bayBase) (by omega) (by omega)
      have covers : q.2.config.covers (max q.2.config.bayBase c.bayBase) = true :=
        ZoneConfig.covers_iff.2 ⟨by omega, by omega⟩
      rw [covers] at out
      cases out
    simp [none_]
  simp [needRange, low, high, base, count, fits', clear]

theorem zoneConfigBytes_default (n level base count : Nat) :
    zoneConfigBytes n (defaultZone level base count) = number 1 n ++ number 1 level ++ number 2 base ++ number 1 count ++
      [0x00, 0x00, 0xB4, 0x01, 0x00, 0x02, 0x02] := by
  have rest : listBytes headBytes [] ++ (u16 180 ++ (u8 1 ++ (u8 0 ++ (u8 2 ++ flagSet [false, true, false])))) =
      [0x00, 0x00, 0xB4, 0x01, 0x00, 0x02, 0x02] := by decide
  simp only [zoneConfigBytes, defaultZone, ZoneConfig.flags, List.append_assoc, rest]
  rfl

theorem serveConfigure_zone {client n level base count : Nat} (idle : s.device = .unconfigured) (hn : n < 32)
    (hz : s.zone n = none) (hl : 1 ≤ level ∧ level ≤ 6) (hb : base ≤ 2047) (hc : count ≤ 255) (fits : base + count ≤ 2048)
    (apart : ∀ q ∈ s.zones, ∀ g, base ≤ g → g < base + count → q.2.config.covers g = false) :
    serveConfigure client (number 1 1 ++ number 1 n ++ number 1 level ++ number 2 base ++ number 1 count ++ zeros 8) s =
      (Reply.done (zoneConfigBytes n (defaultZone level base count)),
        settleZone n (addZone n (defaultZone level base count) s)) := by
  have hn' : n < 256 := by omega
  have hl' : level < 256 := by omega
  have slot : decide (n < Config.zoneSlots) = true := decide_eq_true hn
  have unconfigured : needUnconfigured s = .ok () := by simp [needUnconfigured, idle]
  have form : (number 1 level ++ (number 2 base ++ (number 1 count ++ zeros 8))).isEmpty = false := by
    rw [number_one hl']
    rfl
  have range : needRange n (defaultZone level base count) s = .ok () := needRange_fits hl hb hc fits apart
  have heads : needAirHeads (defaultZone level base count).airHeads s = .ok () := rfl
  have read := (reads_requiredZone hl' (base := base) (by omega) (count := count) (by omega)).fields_last
  have set : setZoneConfig n (defaultZone level base count) s = settleZone n (addZone n (defaultZone level base count) s) := by
    rw [setZoneConfig, hz]
  simp only [serveConfigure, List.append_assoc]
  rw [(reads_number_one (show 1 < 256 by decide)).fields, Check.ok_bind]
  simp only [configureClass, configureZone]
  rw [(reads_number_one hn').fields, Check.ok_bind]
  simp only [unconfigured, Check.ok_bind, slot, require_true, form, Bool.false_eq_true, if_false, read, requiredZone_config,
    range, heads, set]
  rfl

/-- What a zone newly configured leaves of zones and bays (R6, R15, R22). -/
theorem addZone_leaves (n : Nat) (c : ZoneConfig) (s : State) :
    (addZone n c s).zone n =
        some { Zone.fresh c with counts := Counts.zero.recount (baysIn c (fillRange s.partTime c s.bays)) } ∧
      (∀ m, m ≠ n → (addZone n c s).zone m = s.zone m) ∧
      ∀ g, (addZone n c s).bays.find g =
        if g ∈ c.range ∧ s.bays.find g = none then some (Bay.ranged s.partTime) else s.bays.find g := by
  refine ⟨?_, fun m hm => ?_, fun g => fillNumbers_find s.partTime c.range s.bays g⟩
  · exact (Table.find_put _ _ _ _).trans (if_pos rfl)
  · exact (Table.find_put _ _ _ _).trans (if_neg hm)

end Sys2Proof.Machine

open Sys2Proof Sys2Proof.Machine

/-- Settles O16: the checks pass, and the zone is added with its bays and their counts. -/
theorem configureMakesAZone : Obligations.ConfigureMakesAZone := by
  intro client tag n level base count s hr idle hn hz low high hc hb fits apart free _
  let c := defaultZone level base count
  let s' := received (number 1 1 ++ number 1 n ++ number 1 level ++ number 2 base ++ number 1 count ++ zeros 8) s
  have serve := serveConfigure_zone (s := s') (client := client.toNat) idle hn hz ⟨low, high⟩ hb hc fits apart
  rw [zoneConfigBytes_default] at serve
  have inRange {g : Nat} : g ∈ c.range ↔ base ≤ g ∧ g < base + count := ZoneConfig.mem_range.trans ZoneConfig.covers_iff
  have none_ : ∀ g ∈ c.range, s.bays.find g = none := fun g hg => free g (inRange.1 hg).1 (inRange.1 hg).2
  obtain ⟨u, hu⟩ : ∃ u, addZone n c s' = u := ⟨_, rfl⟩
  obtain ⟨own, others, bays⟩ := addZone_leaves n c s'
  have added : SameExcept [.zones, .bays] s' (addZone n c s') := (addZone_frame (by decide) n c).2 (.refl _ s')
  rw [hu] at serve own others bays added
  have settled : SameExcept [.fans, .lamps] u (settleZone n u) := (settleZone_frame (by decide) n).2 (.refl _ u)
  have zone (m : Nat) : (settleZone n u).zone m = u.zone m := congrArg (Table.find · m) (settled .zones (by decide))
  have bay (g : Nat) : (settleZone n u).bays.find g = u.bays.find g := congrArg (Table.find · g) (settled .bays (by decide))
  have counts (k : BayKind) (cat : Category) : ((Counts.zero.recount (baysIn c (fillRange s.partTime c s.bays))).of k).of cat =
      if k = .standard ∧ cat = .unavailable then count else 0 :=
    (of_recount _ _ k cat).trans (countBays_fillRange s.partTime c none_ k cat)
  refine ⟨_, congrArg Host.Outcome.next (request_of_rule hr serve),
    respond_except tag _ ((added.mono (by decide)).trans (settled.mono (by decide))),
    ⟨_, (zone n).trans own, rfl, rfl, rfl, rfl, rfl, rfl, rfl,
      fun k => ⟨inTransit_recount_zero _ k, ?_, ?_, ?_⟩, counts .standard .unavailable, counts .wide .unavailable,
      counts .charge .unavailable, rfl⟩, fun m hm => (zone m).trans (others m hm), fun g => ?_⟩
  · exact (counts k .free).trans (if_neg (by simp))
  · exact (counts k .occupied).trans (if_neg (by simp))
  · exact (counts k .held).trans (if_neg (by simp))
  · refine ((bay g).trans (bays g)).trans ?_
    by_cases hg : base ≤ g ∧ g < base + count
    · rw [if_pos ⟨inRange.2 hg, none_ g (inRange.2 hg)⟩, if_pos hg]
      rfl
    · rw [if_neg fun h => hg (inRange.1 h.1), if_neg hg]
      rfl

end

section
/-!
SUPPORT. What a serving rule computes does not depend on the bytes that MISO carried: the start gate, and the going of a
head to LOST with what is handed on.
-/
namespace Sys2Proof.Machine

/-- A change of the state that neither reads nor writes MISO. -/
def IgnoresMiso (f : State → State) : Prop := ∀ x s, f (s.setMiso x) = (f s).setMiso x

theorem IgnoresMiso.comp {f g : State → State} (hf : IgnoresMiso f) (hg : IgnoresMiso g) :
    IgnoresMiso fun s => f (g s) := fun x s =>
  (congrArg f (hg x s)).trans (hf x (g s))

theorem IgnoresMiso.foldl {α : Type} {f : State → α → State} (h : ∀ a, IgnoresMiso fun s => f s a) (l : List α)
    (x : List Byte) (s : State) : l.foldl f (s.setMiso x) = (l.foldl f s).setMiso x := by
  induction l generalizing s with
  | nil => rfl
  | cons a l ih =>
    rw [List.foldl_cons, List.foldl_cons, ← ih]
    exact congrArg (List.foldl f · l) (h a x s)

/-- A change that ignores MISO makes of the state that a serving rule sees what it makes of the state before, but for the
port. -/
theorem IgnoresMiso.received {f : State → State} (h : IgnoresMiso f) (b : List Byte) (s : State) :
    SameExcept portFields (f s) (f (received b s)) := by
  rw [Machine.received, h, State.setMiso_frame (by decide)]
  exact .refl _ _

/-! ### Fans -/

theorem admitFans_ignoresMiso (n : Nat) : IgnoresMiso (admitFans n) := fun x s => by
  induction n generalizing s with
  | zero => rfl
  | succ n ih =>
    have room : startingCount (s.setMiso x) = startingCount s := rfl
    have queue : startQueue (s.setMiso x) = startQueue s := rfl
    simp only [admitFans, room, queue, State.setMiso_fanSettings]
    split
    · split
      · rfl
      · exact ih (s.setFans _)
    · rfl

theorem gate_ignoresMiso : IgnoresMiso gate := admitFans_ignoresMiso _

/-- The targets of a zone follow where the change of a fan changed whether the zone is short. -/
theorem fanDown_ignoresMiso (n : Nat) (f : Fan) : IgnoresMiso (fanDown n f) := fun x s => by
  simp only [fanDown]
  rw [show (s.setMiso x).setFans ((s.setMiso x).fans.put n f) = (s.setFans (s.fans.put n f)).setMiso x from rfl,
    gate_ignoresMiso]
  have short : ∀ v : State, (v.setMiso x).short f.zone = v.short f.zone := fun _ => rfl
  simp only [short]
  split
  · exact gate_ignoresMiso _ _
  · exact gate_ignoresMiso x (retargetZone f.zone (gate (s.setFans (s.fans.put n f))))

theorem fanUnreached_ignoresMiso (segment address : Nat) : IgnoresMiso (fanUnreached segment address) := fun x s => by
  have same : fanOf segment address (s.setMiso x) = fanOf segment address s := rfl
  simp only [fanUnreached, same]
  split
  · rfl
  · split
    · rfl
    · exact fanDown_ignoresMiso _ _ _ _

/-! ### Bays and steers -/

theorem retireSteer_ignoresMiso (id : Nat) (o : SteerOutcome) : IgnoresMiso (retireSteer id o) := fun x s => by
  simp only [retireSteer, State.setMiso_steers]
  split
  · rfl
  · split <;> rfl

theorem tellSteers_ignoresMiso (h : Nat × Nat) (e : HoldEnding) : IgnoresMiso (tellSteers h e) := fun x s => by
  simp only [tellSteers, State.setMiso_steers]
  split
  · rfl
  · exact retireSteer_ignoresMiso _ _ _ _

theorem reportEnding_ignoresMiso (h : Nat × Nat) (e : HoldEnding) : IgnoresMiso (reportEnding h e) := fun x s => by
  simp only [reportEnding]
  split <;> rfl

theorem changeBay_ignoresMiso (g : Nat) (f : Bay → Bay) : IgnoresMiso (changeBay g f) := fun x s => by
  have zone : (s.setMiso x).bayZone g = s.bayZone g := rfl
  simp only [changeBay, zone, State.setMiso_bays]
  split
  · rfl
  · split
    · rfl
    · simp only [moveCount]
      split <;> rfl

theorem changeBayEnding_ignoresMiso (g : Nat) (e : HoldEnding) (f : Bay → Bay) :
    IgnoresMiso (changeBayEnding g e f) := fun x s => by
  simp only [changeBayEnding, State.setMiso_bays, State.setMiso_zones, changeBay_ignoresMiso g _ x s]
  split
  · split
    · rw [reportEnding_ignoresMiso, tellSteers_ignoresMiso]
    · rfl
  · rfl

theorem baysUnsensed_ignoresMiso (segment address : Nat) : IgnoresMiso (baysUnsensed segment address) := fun x s =>
  IgnoresMiso.foldl (fun p : Nat × Bay => changeBayEnding_ignoresMiso p.1 .lost Bay.unsensed) (baysOf segment address s) x s

/-! ### Heads -/

theorem loseHead_ignoresMiso (segment address : Nat) (h : Head) : IgnoresMiso (loseHead segment address h) :=
  ((fanUnreached_ignoresMiso segment address).comp (baysUnsensed_ignoresMiso segment address)).comp fun _ _ => rfl

theorem loseLate_ignoresMiso (key : Nat) : IgnoresMiso fun s => loseLate s key := fun x s => by
  cases hh : s.heads.find key with
  | none =>
    have hh' : (s.setMiso x).heads.find key = none := hh
    simp only [loseLate, hh, hh']
  | some h =>
    have hh' : (s.setMiso x).heads.find key = some h := hh
    simp only [loseLate, hh, hh']
    by_cases late : h.goesLost s.partTime s.lostTime = true
    · exact (if_pos late).trans ((loseHead_ignoresMiso _ _ _ _ _).trans (congrArg (State.setMiso · x) (if_pos late).symm))
    · exact (if_neg late).trans (congrArg (State.setMiso · x) (if_neg late).symm)

theorem setLost_ignoresMiso (v : Nat) : IgnoresMiso (setLost v) := fun x s => by
  by_cases falls : v < s.lostTime
  · have lost : (s.setLostTime v).heads.keys.foldl loseLate ((s.setLostTime v).setMiso x) = _ :=
      IgnoresMiso.foldl loseLate_ignoresMiso _ x (s.setLostTime v)
    exact (if_pos falls).trans (lost.trans (congrArg (State.setMiso · x) (if_pos falls).symm))
  · have same : setLost v s = s.setLostTime v := if_neg falls
    rw [same]
    exact if_neg falls

/-- A head that has waited long enough takes LOST_TIME_REACHED. -/
theorem loseLate_eq_exec (s : State) (key : Nat) :
    exec (.lostTimeReached (key / 32) (key % 32)) s = .next (loseLate s key) := by
  have head : s.head (key / 32) (key % 32) = s.heads.find key := congrArg s.heads.find (Nat.div_add_mod key 32)
  show execLostTimeReached (key / 32) (key % 32) s = _
  rw [execLostTimeReached, head]
  rfl

end Sys2Proof.Machine
end

section
/-!
AMEND of a travel time, of every settings record, of a pattern entry and of an attention source (O17).
-/
namespace Sys2Proof.Machine

variable {s u v : State} {client : Byte} {tag : Half}

/-! ### What an AMEND answers (R183) -/

/-- A served AMEND leaves the state u but for the port, and answers so. -/
def Amends (client : Byte) (tag : Half) (body : List Byte) (s u : State) (result : Result) (answer : List Byte) : Prop :=
  ∃ t, exec (.amend client tag body) s = .next t ∧ SameExcept portFields u t ∧ Answers tag result 0 answer t

theorem serveAmend_class {cls : Nat} (h : cls < 256) (c : Nat) (rest : List Byte) (s : State) :
    serveAmend c (number 1 cls ++ rest) s = served s (amendClass cls c rest s) := by
  rw [serveAmend, (reads_number_one h).fields]
  rfl

/-- An AMEND whose class accepts the field. -/
theorem amended {level cls : Nat} {rest answer : List Byte} {result : Result} (small : cls < 256)
    (hr : Reaches level client (number 1 cls ++ rest) s)
    (rule : amendClass cls client.toNat rest (received (number 1 cls ++ rest) s) = .ok (Reply.of result answer, v)) :
    exec (.amend client tag (number 1 cls ++ rest)) s = .next (respond tag (Reply.of result answer) v) := by
  have serve : serveAmend client.toNat (number 1 cls ++ rest) (received (number 1 cls ++ rest) s) =
      (Reply.of result answer, v) := by rw [serveAmend_class small, rule, served_ok]
  exact congrArg Host.Outcome.next (request_of_unlevelled hr serve)

theorem amends_of_ok {level cls : Nat} {rest answer : List Byte} {result : Result} (small : cls < 256)
    (hr : Reaches level client (number 1 cls ++ rest) s)
    (rule : amendClass cls client.toNat rest (received (number 1 cls ++ rest) s) = .ok (Reply.of result answer, v))
    (same : SameExcept portFields u v) : Amends client tag (number 1 cls ++ rest) s u result answer :=
  ⟨_, amended small hr rule, (respond_frame (by decide) _ _).2 same, rfl⟩

/-- A refused AMEND changes no record. -/
theorem amends_of_error {level cls : Nat} {rest : List Byte} {result : Result} (small : cls < 256)
    (hr : Reaches level client (number 1 cls ++ rest) s)
    (rule : amendClass cls client.toNat rest (received (number 1 cls ++ rest) s) = .error (Reply.refuse result)) :
    Amends client tag (number 1 cls ++ rest) s s result [] :=
  answered_unchanged_unlevelled hr (by rw [serveAmend_class small, rule, served_error]; rfl)

/-! ### Numbers brought into a range (R4, R183) -/

theorem clampedIf_clampTo {lo hi : Nat} (h : lo ≤ hi) (v : Nat) (body : List Byte) :
    Reply.clampedIf (clampTo lo hi v ≠ v) body = Reply.of (if lo ≤ v ∧ v ≤ hi then .done else .clamped) body := by
  rw [clampTo_eq h, Reply.clampedIf]
  congr 1
  by_cases within : lo ≤ v ∧ v ≤ hi
  · have : max lo (min hi v) = v := by omega
    simp [within]
  · have : max lo (min hi v) ≠ v := by omega
    simp [within, this]

/-- The reader of a number of one byte or of two. -/
def readNumber (w : Nat) : Reader Nat := if w = 1 then readU8 else readU16

theorem reads_number {w n : Nat} (hw : w = 1 ∨ w = 2) (h : n < 256 ^ w) : Reads (readNumber w) (number w n) n := by
  rcases hw with rfl | rfl
  · exact reads_number_one h
  · exact reads_number_two h

/-- The client's level allows the field in the state that the serving rule sees. -/
def Allowed (client : Byte) (level : Nat) (s : State) : Prop := ∀ m, mayAmend client.toNat level (s.setMiso m) = .ok ()

theorem allowed_of_reaches {level : Nat} {body : List Byte} (hr : Reaches level client body s) :
    Allowed client level s := fun _ => by
  obtain ⟨_, _, _, hl⟩ := hr
  exact require_ok.2 (decide_eq_true hl)

/-- A number of a settings record: brought into its range, checked, and put. -/
def settingChange (w lo hi prior : Nat) (fits : Nat → Bool) (refusal : Result) (put : Nat → State) (body : List Byte) :
    Check Served := do
  let (v, _) ← fields (readNumber w) body
  require (fits (clampTo lo hi v)) refusal
  return (Reply.clampedIf (clampTo lo hi v ≠ v) (number w prior), put (clampTo lo hi v))

theorem settingChange_fits {w lo hi prior x : Nat} {fits : Nat → Bool} {refusal : Result} {put : Nat → State}
    (hw : w = 1 ∨ w = 2) (range : lo ≤ hi) (hx : x < 256 ^ w) (fit : fits (max lo (min hi x)) = true) :
    settingChange w lo hi prior fits refusal put (number w x) =
      .ok (Reply.of (if lo ≤ x ∧ x ≤ hi then .done else .clamped) (number w prior), put (max lo (min hi x))) := by
  rw [← clampTo_eq range] at fit ⊢
  rw [settingChange, (reads_number hw hx).fields_last]
  show (require (fits (clampTo lo hi x)) refusal >>= fun _ => _) = _
  rw [fit]
  exact congrArg (fun r => Except.ok (r, _)) (clampedIf_clampTo range x _)

theorem settingChange_refused {w lo hi prior x : Nat} {fits : Nat → Bool} {refusal : Result} {put : Nat → State}
    (hw : w = 1 ∨ w = 2) (range : lo ≤ hi) (hx : x < 256 ^ w) (fit : fits (max lo (min hi x)) = false) :
    settingChange w lo hi prior fits refusal put (number w x) = .error (Reply.refuse refusal) := by
  rw [← clampTo_eq range] at fit
  rw [settingChange, (reads_number hw hx).fields_last]
  show (require (fits (clampTo lo hi x)) refusal >>= fun _ => _) = _
  rw [fit]
  rfl

/-- A class takes a number of a settings record into the state put, where it fits. -/
def TakesNumber (s : State) (client : Byte) (cls field w lo hi prior : Nat) (put : Nat → State)
    (fits : Nat → Bool := fun _ => true) (refusal : Result := .form) : Prop :=
  ∀ m bytes, amendClass cls client.toNat (number 1 field ++ bytes) (s.setMiso m) =
    settingChange w lo hi prior fits refusal (fun n => (put n).setMiso m) bytes

section
variable {cls field w lo hi prior x : Nat} {put : Nat → State} {fits : Nat → Bool} {refusal : Result}

/-- An AMEND of a number of a settings record. -/
theorem amends_number (takes : Allowed client 1 s → TakesNumber s client cls field w lo hi prior put fits refusal)
    (fit : fits (max lo (min hi x)) = true) (hx : x < 256 ^ w)
    (hr : Reaches 1 client (number 1 cls ++ number 1 field ++ number w x) s) (small : cls < 256 := by decide)
    (hw : w = 1 ∨ w = 2 := by decide) (range : lo ≤ hi := by decide) :
    Amends client tag (number 1 cls ++ number 1 field ++ number w x) s (put (max lo (min hi x)))
      (if lo ≤ x ∧ x ≤ hi then .done else .clamped) (number w prior) := by
  have rule := takes (allowed_of_reaches hr)
  rw [List.append_assoc] at hr ⊢
  exact amends_of_ok small hr ((rule _ _).trans (settingChange_fits hw range hx fit))
    ((State.setMiso_frame (by decide) _).2 (.refl _ _))

theorem refuses_number (takes : Allowed client 1 s → TakesNumber s client cls field w lo hi prior put fits refusal)
    (fit : fits (max lo (min hi x)) = false) (hx : x < 256 ^ w)
    (hr : Reaches 1 client (number 1 cls ++ number 1 field ++ number w x) s) (small : cls < 256 := by decide)
    (hw : w = 1 ∨ w = 2 := by decide) (range : lo ≤ hi := by decide) :
    Amends client tag (number 1 cls ++ number 1 field ++ number w x) s s refusal [] := by
  have rule := takes (allowed_of_reaches hr)
  rw [List.append_assoc] at hr ⊢
  exact amends_of_error small hr ((rule _ _).trans (settingChange_refused hw range hx fit))

end

/-! ### The settings records -/

section
variable (allowed : Allowed client 1 s)
include allowed

theorem takes_settleTime : TakesNumber s client 0x03 1 1 2 60 s.settleTime s.setSettleTime := fun m bytes => by
  simp only [amendClass, amendBaySettings, (reads_number_one (n := 1) (by decide)).fields, allowed m]
  rfl

theorem takes_carLimit : TakesNumber s client 0x07 1 2 200 1500 s.passageSettings.carLimit
    (fun n => s.setPassageSettings { s.passageSettings with carLimit := n })
    (fun n => n ≤ s.passageSettings.vanLimit) .combination := fun m bytes => by
  simp only [amendClass, amendPassageSettings, amendLimit, (reads_number_one (n := 1) (by decide)).fields, allowed m]
  rfl

theorem takes_vanLimit : TakesNumber s client 0x07 2 2 200 3000 s.passageSettings.vanLimit
    (fun n => s.setPassageSettings { s.passageSettings with vanLimit := n })
    (fun n => s.passageSettings.carLimit ≤ n) .combination := fun m bytes => by
  simp only [amendClass, amendPassageSettings, amendLimit, (reads_number_one (n := 2) (by decide)).fields, allowed m]
  rfl

/-- A setting of the evaluator, by its field code. -/
theorem takes_airField {field w lo hi : Nat} {f : AirField} (code : airField field = some f) (small : field < 256)
    (read : f.read = readNumber w) (clamp : f.clamp = clampTo lo hi)
    (bytes : f.bytes s.airSettings = number w (f.get s.airSettings)) :
    TakesNumber s client 0x0A field w lo hi (f.get s.airSettings) (fun n => s.setAirSettings (f.set n s.airSettings))
      (fun n => (f.set n s.airSettings).ordered) .combination := fun m body => by
  simp only [amendClass, amendEvaluator, (reads_number_one small).fields, allowed m, bind, Except.bind, code, need_some,
    read, clamp, State.setMiso_airSettings, bytes, settingChange]
  rfl

theorem takes_startLimit : TakesNumber s client 0x0C 1 1 1 4 s.fanSettings.startLimit
    (fun n => gate (s.setFanSettings { s.fanSettings with startLimit := n })) (fun n => startingCount s ≤ n)
    .notNow := fun m bytes => by
  simp only [amendClass, amendFanDrive, amendStartLimit, (reads_number_one (n := 1) (by decide)).fields, allowed m,
    ← gate_ignoresMiso m]
  rfl

theorem takes_startTime : TakesNumber s client 0x0C 2 1 2 30 s.fanSettings.startTime
    fun n => s.setFanSettings { s.fanSettings with startTime := n } := fun m bytes => by
  simp only [amendClass, amendFanDrive, (reads_number_one (n := 2) (by decide)).fields, allowed m]
  rfl

theorem takes_minOffTime : TakesNumber s client 0x0C 3 1 5 120 s.fanSettings.minOffTime
    fun n => s.setFanSettings { s.fanSettings with minOffTime := n } := fun m bytes => by
  simp only [amendClass, amendFanDrive, (reads_number_one (n := 3) (by decide)).fields, allowed m]
  rfl

theorem takes_faultThreshold : TakesNumber s client 0x0E 1 1 1 32 s.faultThreshold
    fun n => thresholdFaults s.faultThreshold n (s.setFaultThreshold n) := fun m bytes => by
  have blind : ∀ old new, IgnoresMiso (thresholdFaults old new) := fun old new x v =>
    IgnoresMiso.foldl (fun p x v => by split <;> rfl) v.lamps x v
  simp only [amendClass, amendLampControl, (reads_number_one (n := 1) (by decide)).fields, allowed m, ← blind _ _ m]
  rfl

theorem takes_keepalive : TakesNumber s client 0x11 1 2 10 600 s.quiet.keepalive
    fun n => s.setQuiet { s.quiet with keepalive := n } := fun m bytes => by
  simp only [amendClass, amendQuiet, (reads_number_one (n := 1) (by decide)).fields, allowed m]
  rfl

theorem takes_warmTime : TakesNumber s client 0x11 2 2 5 120 s.quiet.warmTime
    fun n => s.setQuiet { s.quiet with warmTime := n } := fun m bytes => by
  simp only [amendClass, amendQuiet, (reads_number_one (n := 2) (by decide)).fields, allowed m]
  rfl

theorem takes_lostTime : TakesNumber s client 0x13 1 1 5 120 s.lostTime fun n => setLost n s := fun m bytes => by
  simp only [amendClass, amendLanePoller, (reads_number_one (n := 1) (by decide)).fields, allowed m,
    setLost_ignoresMiso _ m]
  rfl

end

end Sys2Proof.Machine
end

section
/-!
AMEND of a travel time, of the fault threshold, of a pattern entry and of an attention source, and the settling of O17.
-/
namespace Sys2Proof.Machine

variable {s u : State} {client : Byte} {tag : Half} {n v x : Nat}

/-! ### Travel time (R18) -/

theorem amendZone_travelTime {z : Zone} (h : n < 32) (hz : s.zone n = some z) (allowed : Allowed client 1 s)
    (m bytes : List Byte) :
    amendClass 1 client.toNat (number 1 n ++ (number 1 5 ++ bytes)) (s.setMiso m) =
      settingChange 2 30 900 z.config.travelTime (fun _ => true) .form
        (fun x => (s.setMiso m).setZones (s.zones.put n { z with config := { z.config with travelTime := x } })) bytes := by
  have found : needZone n (s.setMiso m) = .ok z := needZone_some h hz
  have kept : ∀ x, replaceZone n z { z.config with travelTime := x } (s.setMiso m) =
      (s.setMiso m).setZones (s.zones.put n { z with config := { z.config with travelTime := x } }) := fun x =>
    if_pos ⟨rfl, rfl⟩
  simp only [amendClass, amendZone, (reads_number_one (show n < 256 by omega)).fields,
    (reads_number_one (n := 5) (by decide)).fields, amendSetting, allowed m, found, bind, Except.bind, kept]
  rfl

theorem amends_travelTime {z : Zone}
    (hr : Reaches 1 client (number 1 1 ++ number 1 n ++ number 1 5 ++ number 2 v) s) (hn : n < 32) (hv : v < 65536)
    (hz : s.zone n = some z) :
    ∃ t, exec (.amend client tag (number 1 1 ++ number 1 n ++ number 1 5 ++ number 2 v)) s = .next t ∧
      SameExcept (.zones :: portFields) s t ∧
      t.zone n = some { z with config := { z.config with travelTime := max 30 (min 900 v) } } ∧
      (∀ m, m ≠ n → t.zone m = s.zone m) ∧
      Answers tag (if 30 ≤ v ∧ v ≤ 900 then .done else .clamped) 0 (number 2 z.config.travelTime) t := by
  have allowed := allowed_of_reaches hr
  simp only [List.append_assoc] at hr ⊢
  refine ⟨_, amended (by decide) hr ((amendZone_travelTime hn hz allowed _ _).trans
    (settingChange_fits (by decide) (by decide) hv rfl)), by simp (disch := decide), ?_, fun m hm => ?_, rfl⟩
  · exact Table.find_put_same _ _ _
  · exact (Table.find_put _ _ _ _).trans (if_neg hm)

/-! ### The fault threshold (R120, R127) -/

/-- The latch of LAMP_FAULT takes a raise for each group that newly stands at the threshold; the others stand. -/
theorem thresholdFaults_source (old new : Nat) (s : State) :
    (thresholdFaults old new s).source 9 = (s.lamps.filter fun q => q.2.failed < old ∧ new ≤ q.2.failed).foldl
      (fun r q => r.raise s.partTime (maskOf [q.2.zone]) (number 1 q.1 ++ number 1 q.2.failed)) (s.source 9) ∧
    ∀ m, m ≠ 9 → (thresholdFaults old new s).source m = s.source m := by
  rw [thresholdFaults]
  generalize s.lamps = l
  induction l generalizing s with
  | nil => exact ⟨rfl, fun _ _ => rfl⟩
  | cons p l ih =>
    rw [List.foldl_cons, List.filter_cons]
    by_cases newly : p.2.failed < old ∧ new ≤ p.2.failed
    · obtain ⟨nine, others⟩ := ih (raiseLampFault p.1 p.2.zone p.2.failed s)
      rw [if_pos newly, if_pos (decide_eq_true newly), List.foldl_cons]
      refine ⟨nine.trans ?_, fun m hm => (others m hm).trans ?_⟩
      · rw [raiseLampFault, State.source_raise]
        rfl
      · rw [raiseLampFault, State.source_raise]
        exact if_neg fun h => hm h.1
    · rw [if_neg newly, if_neg (by simpa using newly)]
      exact ih s

theorem amends_faultThreshold (hx : x < 256) (hr : Reaches 1 client (number 1 0x0E ++ number 1 1 ++ number 1 x) s) :
    ∃ t, exec (.amend client tag (number 1 0x0E ++ number 1 1 ++ number 1 x)) s = .next t ∧
      SameExcept (portFields ++ [.faultThreshold, .sources]) s t ∧ t.faultThreshold = max 1 (min 32 x) ∧
      Answers tag (if 1 ≤ x ∧ x ≤ 32 then .done else .clamped) 0 (number 1 s.faultThreshold) t ∧
      t.source 9 = (s.lamps.filter fun q => q.2.failed < s.faultThreshold ∧ max 1 (min 32 x) ≤ q.2.failed).foldl
        (fun r q => r.raise s.partTime (maskOf [q.2.zone]) (number 1 q.1 ++ number 1 q.2.failed)) (s.source 9) ∧
      ∀ m, m ≠ 9 → t.source m = s.source m := by
  obtain ⟨t, step, same, answer⟩ :=
    amends_number (tag := tag) takes_faultThreshold rfl hx hr
  have frame : SameExcept [.sources] (s.setFaultThreshold (max 1 (min 32 x))) _ :=
    (thresholdFaults_frame (List.Subset.refl _) s.faultThreshold (max 1 (min 32 x))).2 (.refl _ _)
  have threshold : t.faultThreshold = _ := same .faultThreshold (by decide)
  have sources : t.sources = _ := same .sources (by decide)
  obtain ⟨nine, others⟩ :=
    thresholdFaults_source s.faultThreshold (max 1 (min 32 x)) (s.setFaultThreshold (max 1 (min 32 x)))
  refine ⟨t, step, ?_, ?_, answer, ?_, fun m hm => ?_⟩
  · refine SameExcept.trans ?_ (same.mono (by decide))
    simp (disch := decide)
  · exact Eq.trans threshold (frame .faultThreshold (by decide))
  · exact (congrArg (fixedAt · 9 _) sources).trans nine
  · exact (congrArg (fixedAt · m _) sources).trans (others m hm)

/-! ### The pattern table (R71) -/

theorem reads_pattern (word : Half) (flag : Bool) :
    Reads readPattern (halfBytes word ++ flagByte flag) { word := word, showCount := flag } := fun rest => by
  rw [List.append_assoc, readPattern, reads_halfBytes]
  show (readFlag (flagByte flag ++ rest) >>= fun _ => _) = _
  rw [reads_flagByte]
  rfl

theorem amendPattern_refuses (h : 32 ≤ v) (small : v < 256) (c : Nat) (bytes : List Byte) (s : State) :
    amendClass 9 c (number 1 v ++ bytes) s = .error (Reply.refuse .range) := by
  have high : decide (v < 32) = false := decide_eq_false (by omega)
  simp only [amendClass, amendPattern, (reads_number_one small).fields, bind, Except.bind, high, require_false]

theorem amendPattern_takes (h : v < 32) (allowed : Allowed client 1 s) (word : Half) (flag : Bool) (m : List Byte) :
    amendClass 9 client.toNat (number 1 v ++ (number 1 1 ++ (halfBytes word ++ flagByte flag))) (s.setMiso m) =
      .ok (Reply.of .done (halfBytes (s.pattern v).word ++ flagByte (s.pattern v).showCount),
        (s.setMiso m).setPatterns (s.patterns.setIfInBounds v { word := word, showCount := flag })) := by
  simp only [amendClass, amendPattern, (reads_number_one (show v < 256 by omega)).fields, bind, Except.bind, h,
    decide_true, require_true, (reads_number_one (n := 1) (by decide)).fields, allowed m,
    (reads_pattern word flag).fields_last]
  rfl

theorem amends_pattern {word : Half} {flag : Bool} (h : v < 32)
    (hr : Reaches 1 client (number 1 9 ++ number 1 v ++ number 1 1 ++ halfBytes word ++ flagByte flag) s) :
    ∃ t, exec (.amend client tag (number 1 9 ++ number 1 v ++ number 1 1 ++ halfBytes word ++ flagByte flag)) s =
        .next t ∧
      SameExcept (.patterns :: portFields) s t ∧
      Answers tag .done 0 (halfBytes (s.pattern v).word ++ flagByte (s.pattern v).showCount) t ∧
      t.pattern v = { word := word, showCount := flag } ∧ ∀ m, m ≠ v → t.pattern m = s.pattern m := by
  have allowed := allowed_of_reaches hr
  simp only [List.append_assoc] at hr ⊢
  refine ⟨_, amended (by decide) hr (amendPattern_takes h allowed word flag _), by simp (disch := decide), rfl, ?_,
    fun m hm => ?_⟩
  · exact (fixedAt_set _ _ _ _ _).trans (if_pos ⟨rfl, h⟩)
  · exact (fixedAt_set _ _ _ _ _).trans (if_neg fun e => hm e.1)

/-! ### Attention sources (R188) -/

theorem amendAttention_refuses (h : 16 ≤ v) (small : v < 256) (c : Nat) (bytes : List Byte) (s : State) :
    amendClass 0x15 c (number 1 v ++ bytes) s = .error (Reply.refuse .range) := by
  have high : decide (v < 16) = false := decide_eq_false (by omega)
  simp only [amendClass, amendAttention, (reads_number_one small).fields, bind, Except.bind, high, require_false]

/-- The level field of a source below 16. -/
theorem amendAttention_level {level : Nat} (h : v < 16) (hl : level < 256) (allowed : Allowed client 0 s)
    (m : List Byte) :
    amendClass 0x15 client.toNat (number 1 v ++ (number 1 1 ++ number 1 level)) (s.setMiso m) =
      setSource v level (s.source v).enabled (s.setMiso m) := by
  simp only [amendClass, amendAttention, (reads_number_one (show v < 256 by omega)).fields, bind, Except.bind, h,
    decide_true, require_true, (reads_number_one (n := 1) (by decide)).fields, allowed m,
    (reads_number_one hl).fields_last]
  rfl

/-- The enable flag of a source below 16. -/
theorem amendAttention_enabled {flag : Bool} (h : v < 16) (allowed : Allowed client 0 s) (m : List Byte) :
    amendClass 0x15 client.toNat (number 1 v ++ (number 1 2 ++ flagByte flag)) (s.setMiso m) =
      setSource v (s.source v).level flag (s.setMiso m) := by
  simp only [amendClass, amendAttention, (reads_number_one (show v < 256 by omega)).fields, bind, Except.bind, h,
    decide_true, require_true, (reads_number_one (n := 2) (by decide)).fields, allowed m,
    (reads_flagByte flag).fields_last]
  rfl

theorem setSource_refuses {level : Nat} (h : 3 < level) (n : Nat) (flag : Bool) (s : State) :
    setSource n level flag s = .error (Reply.refuse .range) := by
  have high : decide (level ≤ 3) = false := decide_eq_false (by omega)
  simp only [setSource, high, require_false, bind, Except.bind]

theorem setSource_takes {level : Nat} (h : level ≤ 3) (n : Nat) (flag : Bool) (s : State) :
    setSource n level flag s = .ok (Reply.of .done (number 1 (s.source n).level ++ flagByte (s.source n).enabled),
      s.setSources (s.sources.setIfInBounds n { s.source n with level := level, enabled := flag })) := by
  simp only [setSource, h, decide_true, require_true, bind, Except.bind]
  rfl

/-- An AMEND of either field of a source, served. -/
theorem amends_source {rest : List Byte} {level : Nat} {flag : Bool} (h : v < 16) (hl : level ≤ 3)
    (hr : Reaches 0 client (number 1 0x15 ++ rest) s)
    (rule : ∀ m, amendClass 0x15 client.toNat rest (s.setMiso m) = setSource v level flag (s.setMiso m)) :
    ∃ t, exec (.amend client tag (number 1 0x15 ++ rest)) s = .next t ∧ SameExcept (.sources :: portFields) s t ∧
      Answers tag .done 0 (number 1 (s.source v).level ++ flagByte (s.source v).enabled) t ∧
      t.source v = { s.source v with level := level, enabled := flag } ∧ ∀ m, m ≠ v → t.source m = s.source m := by
  refine ⟨_, amended (by decide) hr ((rule _).trans (setSource_takes hl v flag _)), by simp (disch := decide), rfl, ?_,
    fun m hm => ?_⟩
  · exact (fixedAt_set _ _ _ _ _).trans (if_pos ⟨rfl, h⟩)
  · exact (fixedAt_set _ _ _ _ _).trans (if_neg fun e => hm e.1)

/-! ### The numbers, as the obligation states them -/

theorem ordered_iff {c : AirSettings} : c.ordered = true ↔
    c.watchCO < c.actCO ∧ c.actCO < c.barCO ∧ c.watchNO < c.actNO ∧ c.actNO < c.barNO := by
  simp [AirSettings.ordered, and_assoc]

/-- A setting of the evaluator is taken where the thresholds stay in order, and refused where they do not. -/
theorem amends_airField (field w lo hi : Nat) {f : AirField} (code : airField field = some f)
    (read : f.read = readNumber w) (clamp : f.clamp = clampTo lo hi)
    (bytes : f.bytes s.airSettings = number w (f.get s.airSettings)) (small : field < 256 := by decide)
    (hw : w = 1 ∨ w = 2 := by decide) (range : lo ≤ hi := by decide) :
    let n := f.set (max lo (min hi x)) s.airSettings
    let ordered := n.watchCO < n.actCO ∧ n.actCO < n.barCO ∧ n.watchNO < n.actNO ∧ n.actNO < n.barNO
    let body := number 1 0x0A ++ number 1 field ++ number w x
    (ordered → x < 256 ^ w → Reaches 1 client body s →
      Amends client tag body s (s.setAirSettings n) (if lo ≤ x ∧ x ≤ hi then .done else .clamped)
        (number w (f.get s.airSettings))) ∧
    (¬ordered → x < 256 ^ w → Reaches 1 client body s → Amends client tag body s s .combination []) := by
  have takes := fun allowed : Allowed client 1 s => takes_airField allowed code small read clamp bytes
  refine ⟨fun ord hx hr => amends_number takes (ordered_iff.2 ord) hx hr (by decide) hw range, fun ord hx hr => ?_⟩
  exact refuses_number takes (Bool.eq_false_iff.2 fun e => ord (ordered_iff.1 e)) hx hr (by decide) hw range

theorem setLost_eq (s : State) (x : Nat) :
    setLost x s = if x < s.lostTime then
      s.heads.keys.foldl (fun t k => match exec (.lostTimeReached (k / 32) (k % 32)) t with
        | .next u => u
        | _ => t) (s.setLostTime x)
    else s.setLostTime x := by
  have late : loseLate = fun (t : State) (k : Nat) => match exec (.lostTimeReached (k / 32) (k % 32)) t with
      | .next u => u
      | _ => t := by
    funext t k
    rw [loseLate_eq_exec]
  exact congrArg (fun f => if x < s.lostTime then s.heads.keys.foldl f (s.setLostTime x) else s.setLostTime x) late

end Sys2Proof.Machine

open Sys2Proof Sys2Proof.Machine

/-- Settles O17: each field's rule is one change of a number, brought into its range and checked; the start gate and the
loss of late heads do not read the port. -/
theorem amendClampsTheTravelTime : Obligations.AmendClampsTheTravelTime := by
  unfold Obligations.AmendClampsTheTravelTime
  refine ⟨fun client tag n v z s hr hn hv hz => amends_travelTime hr hn hv hz, fun client tag v s => ?_⟩
  refine ⟨amends_number takes_settleTime rfl, fun fit => amends_number takes_carLimit (decide_eq_true fit),
    fun fit => refuses_number takes_carLimit (decide_eq_false (Nat.not_le.2 fit)),
    fun fit => amends_number takes_vanLimit (decide_eq_true fit),
    fun fit => refuses_number takes_vanLimit (decide_eq_false (Nat.not_le.2 fit)),
    amends_airField 1 2 5 500 rfl rfl rfl rfl, amends_airField 2 2 5 500 rfl rfl rfl rfl,
    amends_airField 3 2 5 500 rfl rfl rfl rfl, amends_airField 4 2 100 10000 rfl rfl rfl rfl,
    amends_airField 5 2 100 10000 rfl rfl rfl rfl, amends_airField 6 2 100 10000 rfl rfl rfl rfl,
    amends_airField 7 1 0 16 rfl rfl rfl rfl, amends_airField 8 1 0 8 rfl rfl rfl rfl,
    amends_airField 9 2 30 600 rfl rfl rfl rfl,
    fun fit => amends_number takes_startLimit (decide_eq_true fit),
    fun fit => refuses_number takes_startLimit (decide_eq_false (Nat.not_le.2 fit)),
    amends_number takes_startTime rfl, amends_number takes_minOffTime rfl, amends_faultThreshold,
    amends_number takes_keepalive rfl, amends_number takes_warmTime rfl, fun hv hr => ?_,
    fun word flag => ⟨fun high hv hr => ?_, fun h hr => amends_pattern h hr⟩,
    fun level flag hl => ⟨fun high hv => ?_, fun h => ⟨fun high hr => ?_, fun low hr => ?_, fun low hr => ?_⟩⟩⟩
  · have lost := amends_number (tag := tag) takes_lostTime rfl hv hr
    rw [setLost_eq] at lost
    exact lost
  · simp only [List.append_assoc] at hr ⊢
    exact amends_of_error (by decide) hr (amendPattern_refuses high hv _ _ _)
  · simp only [List.append_assoc]
    exact ⟨fun hr => amends_of_error (by decide) hr (amendAttention_refuses high hv _ _ _),
      fun hr => amends_of_error (by decide) hr (amendAttention_refuses high hv _ _ _)⟩
  · have allowed := allowed_of_reaches hr
    simp only [List.append_assoc] at hr ⊢
    exact amends_of_error (by decide) hr ((amendAttention_level h hl allowed _).trans (setSource_refuses high _ _ _))
  · have allowed := allowed_of_reaches hr
    simp only [List.append_assoc] at hr ⊢
    exact amends_source h low hr (amendAttention_level h hl allowed)
  · have allowed := allowed_of_reaches hr
    simp only [List.append_assoc] at hr ⊢
    exact amends_source h low hr (amendAttention_enabled h allowed)
end

section
/-!
What RESTART keeps and what it sets (O11).
-/
namespace Sys2Proof.Machine

variable {s : State}

/-! ### The units (R54, R140, R159, R174, R188) -/

/-- The part as a soft restart leaves it before the lamps are settled. -/
def restartStarted (s : State) : State :=
  enterStarting (restartUnits (restartRecords ((s.setPartTime 0).setResetCause .restart)))

theorem softRestart_started (s : State) : SameExcept [.lamps] (restartStarted s) (softRestart s) := by
  rw [softRestart, settleAllLamps_frame (by decide), State.setLamps_frame (by decide)]
  exact .refl _ _

theorem softRestart_source (s : State) {n : Nat} (h : n < 16) :
    (softRestart s).source n = Source.clear (s.source n).level (s.source n).enabled := by
  have sources : (softRestart s).sources = s.sources.map Source.clearLatch :=
    softRestart_started s .sources (by decide)
  rw [State.source, State.source, sources]
  simp [fixedAt, h, Source.clearLatch]

/-- Every segment poller after a pass over all of them that does not look at the state. -/
theorem forSegments_const (g : Segment) (s : State) {i : Nat} (h : i < 4) :
    (forSegments (fun _ _ _ => g) s).segment i = g := by
  simp only [forSegments, List.foldl_cons, List.foldl_nil, State.segment_putSegment]
  grind

theorem enterStarting_segment (s : State) {i : Nat} (h : i < 4) : (enterStarting s).segment i = Segment.restarted := by
  have segments : (enterStarting s).segments = (forSegments (fun _ _ _ => Segment.restarted)
      ((s.setStartTime s.partTime).setNextEvaluation (some (s.partTime + evaluationInterval)))).segments := by
    simp only [enterStarting, State.setDevice_segments]
  rw [State.segment, segments]
  exact forSegments_const Segment.restarted _ h

theorem softRestart_segment (s : State) {i : Nat} (h : i < 4) :
    (softRestart s).segment i = { sweepCount := 0, sweep := .awaitingStart, keepaliveTail := false, exchange := none } := by
  have segments : (softRestart s).segments = (restartStarted s).segments := softRestart_started s .segments (by decide)
  rw [State.segment, segments]
  exact enterStarting_segment _ h

theorem softRestart_fireLine (s : State) : (softRestart s).fireLine =
    { alarm := false, asserted := s.fireLine.asserted
      changeSince := if s.fireLine.asserted = true then some 0 else none } :=
  softRestart_started s .fireLine (by decide)

theorem softRestart_quiet (s : State) : (softRestart s).quiet =
    { mode := .noMode, line := s.quiet.line, enteredAt := none, wakeTime := none, wakeCause := none, warmUntil := none
      warmSet := [], keepalive := s.quiet.keepalive, warmTime := s.quiet.warmTime } :=
  softRestart_started s .quiet (by decide)

/-! ### The records (R21, R48, R75, R118, R177) -/

theorem softRestart_zone (s : State) (n : Nat) :
    (softRestart s).zone n = (s.zone n).map fun z => z.restarted (softRestart s).bays := by
  rw [State.zone, softRestart_zones, Table.find_mapWith]
  rfl

/-- No bay carries a hold after a soft restart, and none is HELD. -/
theorem softRestart_held (s : State) (c : ZoneConfig) (k : BayKind) :
    countBays (baysIn c (softRestart s).bays) k .held = 0 := by
  rw [countBays_baysIn, softRestart_bays, List.countP_eq_zero]
  intro q hq
  obtain ⟨p, _, rfl⟩ := List.mem_map.1 hq
  have : p.2.restarted.category ≠ .held := by
    unfold Bay.category Bay.restarted
    grind
  simp [counted, this]

theorem softRestart_bay (s : State) (g : Nat) :
    (softRestart s).bays.find g = (s.bays.find g).map fun b =>
      { b with sense := if b.binding = none then .sensed else .unsensed, occupancy := .vacant, pendingSince := none,
               lastChange := 0, hold := none } := by
  rw [softRestart_bays, Table.find_mapWith]
  refine congrArg (Option.map · _) (funext fun b => ?_)
  cases hb : b.binding <;> simp [Bay.restarted, hb]

theorem softRestart_passage (s : State) (n : Nat) :
    (softRestart s).passages.find n = (s.passages.find n).map fun p => Passage.fresh p.config := by
  have passages : (softRestart s).passages = s.passages.mapWith fun _ p => Passage.fresh p.config :=
    softRestart_frame s .passages (by decide)
  rw [passages, Table.find_mapWith]

theorem softRestart_sign (s : State) (n : Nat) :
    (softRestart s).signs.find n = (s.signs.find n).map fun r => Sign.fresh r.config := by
  have signs : (softRestart s).signs = s.signs.mapWith fun _ r => Sign.fresh r.config :=
    softRestart_frame s .signs (by decide)
  rw [signs, Table.find_mapWith]

theorem softRestart_fan (s : State) (n : Nat) : (softRestart s).fans.find n = (s.fans.find n).map Fan.restarted := by
  have fans : (softRestart s).fans = s.fans.mapWith fun _ f => f.restarted := softRestart_frame s .fans (by decide)
  rw [fans, Table.find_mapWith]

theorem softRestart_head (s : State) (i a : Nat) :
    (softRestart s).head i a = (s.head i a).map fun h => Head.listed h.kind h.wake := by
  have heads : (softRestart s).heads = s.heads.mapWith fun _ h => Head.listed h.kind h.wake :=
    softRestart_frame s .heads (by decide)
  rw [State.head, State.head, heads, Table.find_mapWith]

/-- A zone as a soft restart leaves it, clause by clause. -/
theorem softRestart_zone_some {n : Nat} {z y : Zone} (hz : s.zone n = some z) (hy : (softRestart s).zone n = some y) :
    y.config = z.config ∧ y.stack = [] ∧ y.demand = 0 ∧ y.air = ZoneAir.start ∧
      (∀ k, (y.counts.of k).inTransit = 0 ∧ (y.counts.of k).held = 0) ∧ y.lineFlag = false ∧ y.declaredFlag = false ∧
      (∀ k c, (y.counts.of k).of c = countBays (baysIn z.config (softRestart s).bays) k c) ∧
      (z.fire = .noFire → y.fire = .noFire ∧ y.guidance = .closedStart) ∧
      (z.fire ≠ .noFire → y.fire = .held ∧ y.guidance = .closedFire) := by
  rw [softRestart_zone, hz] at hy
  obtain rfl : z.restarted (softRestart s).bays = y := Option.some.inj hy
  refine ⟨rfl, rfl, rfl, rfl, fun k => ⟨inTransit_recount_zero _ k, ?_⟩, rfl, rfl, fun k c => of_recount _ _ k c,
    fun none_ => ?_, fun some_ => ?_⟩
  · exact (of_recount _ Counts.zero k .held).trans (softRestart_held s z.config k)
  · simp [Zone.restarted, none_, FireState.restarted]
  · cases hf : z.fire <;> simp_all [Zone.restarted, FireState.restarted]

/-! ### The lamp groups (R131) -/

/-- The level of a group at the entry to STARTING: that of fire in a HELD zone, else that of STARTING. -/
theorem settleGroup_restarted (zone : Option Zone) (bays : Table Bay) (g : LampGroup) :
    settleGroup .starting (zone.map fun z => z.restarted bays) g.restarted =
      { g with bright := false, brightUntil := none, effective := 100, commanded := 100, observed := 0, failed := 0
               motionSeen := false, reportTime := none
               reason := match zone with
                 | none => .starting
                 | some z => if z.fire = .noFire then .starting else .fire } := by
  cases zone with
  | none => simp [settleGroup, lampLevel, LampGroup.restarted, LampGroup.dim]
  | some z =>
    cases hf : z.fire <;>
      simp [settleGroup, lampLevel, LampGroup.restarted, LampGroup.dim, Zone.restarted, hf, FireState.restarted,
        ZoneAir.start, effectiveLight, lightEntry, governing]

/-- Every group changed and then settled. -/
theorem settleAllLamps_changed (u : State) (f : LampGroup → LampGroup) (n : Nat) :
    (settleAllLamps (u.setLamps (u.lamps.mapWith fun _ g => f g))).lamps.find n =
      (u.lamps.find n).map fun g => settleGroup u.device (u.zone (f g).zone) (f g) := by
  rw [settleAllLamps, settleLampsWhere_find, State.setLamps_lamps, Table.find_mapWith, Option.map_map]
  rfl

theorem softRestart_lamp (s : State) (n : Nat) :
    (softRestart s).lamps.find n = (s.lamps.find n).map fun g =>
      { g with bright := false, brightUntil := none, effective := 100, commanded := 100, observed := 0, failed := 0
               motionSeen := false, reportTime := none
               reason := match s.zone g.zone with
                 | none => .starting
                 | some z => if z.fire = .noFire then .starting else .fire } := by
  have zones : ∀ m, (restartStarted s).zone m = (s.zone m).map fun z => z.restarted (softRestart s).bays := fun m =>
    (congrArg (Table.find · m) (softRestart_started s .zones (by decide)).symm).trans (softRestart_zone s m)
  have lamps : (restartStarted s).lamps = s.lamps := by
    rw [restartStarted, TablesKept.restartUnits_lamps]
    simp [restartRecords]
  have device : (restartStarted s).device = .starting := enterStarting_device _
  refine (settleAllLamps_changed (restartStarted s) LampGroup.restarted n).trans ?_
  rw [lamps, device]
  refine congrArg (Option.map · _) (funext fun g => ?_)
  rw [zones]
  exact settleGroup_restarted _ _ _

/-! ### The request -/

/-- The fields that RESTART may write. -/
def restartFields : List Field := writes (.restart 0 0 [])

/-- What a soft restart may write (R187). -/
theorem softRestart_writes (s : State) : SameExcept restartFields s (softRestart s) := by
  refine SameExcept.trans ?_ ((softRestart_frame s).mono (by decide))
  simp (disch := decide) [restartRecords]

/-- The scalar fields that a soft restart sets. -/
theorem softRestart_scalars (s : State) : (softRestart s).partTime = 0 ∧ (softRestart s).resetCause = .restart ∧
    (softRestart s).startTime = 0 ∧ (softRestart s).nextEvaluation = some 15 ∧ (softRestart s).holdCount = 0 ∧
    (softRestart s).fetchMask = false :=
  ⟨softRestart_started s .partTime (by decide), softRestart_started s .resetCause (by decide),
    softRestart_started s .startTime (by decide), softRestart_started s .nextEvaluation (by decide),
    softRestart_started s .holdCount (by decide), softRestart_started s .fetchMask (by decide)⟩

end Sys2Proof.Machine

open Sys2Proof Sys2Proof.Machine

/-- Settles O11: each table is the one before with every record restarted; the lamp groups are settled last, over zones
that are HELD or calm. -/
theorem restartKeepsTheConfiguration : Obligations.RestartKeepsTheConfiguration := by
  unfold Obligations.RestartKeepsTheConfiguration
  intro client tag body s hr
  refine ⟨fun bare => answered_unchanged hr (if_pos bare), fun dev => ?_⟩
  have step : exec (.restart client tag body) s =
      .next (respond tag (Reply.done (u8 DeviceState.starting.code)) (softRestart (received body s))) :=
    congrArg Host.Outcome.next
      (request_of_rule hr (p := (Reply.done (u8 DeviceState.starting.code), softRestart (received body s))) (if_neg dev))
  have fields : portFields ++ restartFields ⊆ restartFields := by decide
  have frame := respond_except tag (Reply.done (u8 DeviceState.starting.code)) (softRestart_writes (received body s))
  obtain ⟨partTime, cause, startTime, evaluation, holds, mask⟩ := softRestart_scalars (received body s)
  have device := softRestart_device (received body s)
  have steers := softRestart_steers (received body s)
  have zone := fun n z y => softRestart_zone_some (s := received body s) (n := n) (z := z) (y := y)
  have zoneNone : ∀ n, (softRestart (received body s)).zone n = none ↔ (received body s).zone n = none := fun n => by
    rw [softRestart_zone, Option.map_eq_none_iff]
  have bay := softRestart_bay (received body s)
  have passage := softRestart_passage (received body s)
  have sign := softRestart_sign (received body s)
  have fan := softRestart_fan (received body s)
  have head := softRestart_head (received body s)
  have lamp := softRestart_lamp (received body s)
  have segment := fun i => softRestart_segment (received body s) (i := i)
  have source := fun n => softRestart_source (received body s) (n := n)
  have line := softRestart_fireLine (received body s)
  have quiet := softRestart_quiet (received body s)
  generalize softRestart (received body s) = w at *
  exact ⟨_, step, frame.mono fields, rfl, partTime, cause, device, startTime, evaluation, steers, holds, mask,
    fun n => ⟨zoneNone n, zone n⟩, bay, passage, sign, fan, head, lamp, segment, source, line, quiet⟩
end

section
/-!
SUPPORT. What a change keeps of the device-wide hold count (R36), of the settings that stand in order (R51, R93) and of the
fire states as their flags (R139): one lemma for each operation that writes a field these rest on. The frames say it of
every other operation.
-/
namespace Sys2Proof.Machine

variable {s t u : State}

/-! ### The fields that the three rest on -/

/-- The fields that none of the three rests on. -/
def besideLimits : List Field :=
  [.pending, .partTime, .resetCause, .settleTime, .steers, .passages, .signs, .patterns, .startTime, .nextEvaluation,
    .fans, .fanSettings, .lamps, .faultThreshold, .fireLine, .quiet, .heads, .segments, .lostTime, .clients, .sources,
    .fetchMask, .response, .miso]

/-- The fields beside the device state, the bays and the hold count. -/
def besideHolds : List Field := [.zones, .passageSettings, .airSettings] ++ besideLimits

/-- The fields beside the settings that stand in order. -/
def besideSettings : List Field := [.device, .zones, .bays, .holdCount] ++ besideLimits

/-! ### The hold count (R36) -/

/-- The hold count stays within its limit and, over a canonical bay table, at the number of holds. -/
structure HoldsKept (s t : State) : Prop where
  limit : HoldsWithinLimit s → HoldsWithinLimit t
  counted : HoldsCounted s → HoldsCounted t

namespace HoldsKept

theorem refl (s : State) : HoldsKept s s := ⟨id, id⟩

theorem trans (h : HoldsKept s t) (k : HoldsKept t u) : HoldsKept s u :=
  ⟨fun hs => k.limit (h.limit hs), fun hs => k.counted (h.counted hs)⟩

theorem foldl {α : Type} {f : State → α → State} (h : ∀ s x, HoldsKept s (f s x)) (l : List α) (s : State) :
    HoldsKept s (l.foldl f s) := by
  induction l generalizing s with
  | nil => exact refl s
  | cons x l ih => exact (h s x).trans (ih _)

/-- A change beside bays and hold count, into a device state that is not UNCONFIGURED or was there before. -/
theorem of_device (h : SameExcept (.device :: besideHolds) s t) (device : t.device = .unconfigured → s.device = .unconfigured) :
    HoldsKept s t where
  limit hs := by
    have count : t.holdCount = s.holdCount := h .holdCount (by decide)
    rwa [HoldsWithinLimit, count]
  counted hs := by
    obtain ⟨wf, counts, idle⟩ := hs
    have count : t.holdCount = s.holdCount := h .holdCount (by decide)
    have bays : t.bays = s.bays := h .bays (by decide)
    rw [HoldsCounted, count, bays]
    exact ⟨wf, counts, fun un => idle (device un)⟩

theorem of_frame (h : SameExcept besideHolds s t) : HoldsKept s t :=
  of_device (h.mono (by decide)) fun un => by rwa [show t.device = s.device from h .device (by decide)] at un

end HoldsKept

/-- A bay's part in the count of holds. -/
def Bay.holdUnit (b : Bay) : Nat := if b.hold.isSome then 1 else 0

theorem Bay.holdUnit_none {b : Bay} (h : b.hold = none) : b.holdUnit = 0 := by simp [Bay.holdUnit, h]

theorem Bay.holdUnit_some {b : Bay} (h : b.hold.isSome = true) : b.holdUnit = 1 := if_pos h

/-- A bay's hold is among those counted. -/
theorem HoldsCounted.unit_le {g : Nat} {b : Bay} (hs : HoldsCounted s) (hb : s.bays.find g = some b) :
    b.holdUnit ≤ s.holdCount := by
  obtain ⟨wf, counts, _⟩ := hs
  have there : _ + b.holdUnit = _ := Table.countP_del wf hb fun p => p.2.hold.isSome
  rw [← List.countP_eq_length_filter] at counts
  omega

/-- One bay record replaced, the hold count moved with its hold (R36). -/
theorem HoldsCounted.put {g : Nat} {b b' : Bay} (hs : HoldsCounted s) (hb : s.bays.find g = some b)
    (bays : t.bays = s.bays.put g b') (count : t.holdCount + b.holdUnit = s.holdCount + b'.holdUnit)
    (device : t.device = .unconfigured → s.device = .unconfigured ∧ (b.hold = none → b'.hold = none)) : HoldsCounted t := by
  obtain ⟨wf, counts, idle⟩ := hs
  have moved : _ + b.holdUnit = _ + b'.holdUnit := Table.countP_put wf hb b' fun p => p.2.hold.isSome
  rw [← List.countP_eq_length_filter] at counts
  rw [HoldsCounted, bays, ← List.countP_eq_length_filter]
  refine ⟨Table.wf_put wf g b', by omega, fun un => ?_⟩
  obtain ⟨un', none_⟩ := device un
  exact (idle un').put (none_ ((idle un').of_find hb))

theorem changeBay_of_none {g : Nat} (h : s.bays.find g = none) (f : Bay → Bay) : changeBay g f s = s := by
  rw [changeBay, h]

theorem changeBay_bays_put {g : Nat} {b : Bay} (hb : s.bays.find g = some b) (f : Bay → Bay) :
    (changeBay g f s).bays = s.bays.put g (f b) := by rw [changeBay_bays, hb]

/-- A change of a bay writes the bays and the zones alone. -/
theorem changeBay_except (g : Nat) (f : Bay → Bay) (s : State) : SameExcept [.bays, .zones] s (changeBay g f s) :=
  (changeBay_frame (by decide) g f).2 (.refl _ s)

theorem changeBay_holdCount (g : Nat) (f : Bay → Bay) (s : State) : (changeBay g f s).holdCount = s.holdCount :=
  changeBay_except g f s .holdCount (by decide)

theorem changeBay_device (g : Nat) (f : Bay → Bay) (s : State) : (changeBay g f s).device = s.device :=
  changeBay_except g f s .device (by decide)

/-- A hold taken off a bay, and the count of holds one lower (R43). -/
theorem HoldsCounted.endHold {g : Nat} {b : Bay} {f : Bay → Bay} (hs : HoldsCounted s) (hb : s.bays.find g = some b)
    (held : b.hold.isSome = true) (unheld : (f b).hold = none) (h : Nat × Nat) (e : HoldEnding) :
    HoldsCounted (reportEnding h e (changeBay g f s)) := by
  have reported : SameExcept [.holdCount, .sources] (changeBay g f s) (reportEnding h e (changeBay g f s)) :=
    (reportEnding_frame (by decide) h e).2 (.refl _ _)
  have bays : (reportEnding h e (changeBay g f s)).bays = s.bays.put g (f b) :=
    Eq.trans (reported .bays (by decide)) (changeBay_bays_put hb f)
  have device : (reportEnding h e (changeBay g f s)).device = s.device :=
    Eq.trans (reported .device (by decide)) (changeBay_device g f s)
  have pos := hs.unit_le hb
  refine hs.put hb bays ?_ fun un => ⟨device ▸ un, fun _ => unheld⟩
  rw [reportEnding_holdCount, changeBay_holdCount, Bay.holdUnit_none unheld]
  rw [Bay.holdUnit_some held] at pos ⊢
  omega

namespace HoldsKept

/-- A bay changed but for whether it carries a hold. -/
theorem changeBay (g : Nat) {f : Bay → Bay} (h : ∀ b, s.bays.find g = some b → (f b).hold.isSome = b.hold.isSome) :
    HoldsKept s (changeBay g f s) := by
  cases hb : s.bays.find g with
  | none =>
    rw [changeBay_of_none hb]
    exact refl s
  | some b =>
    have count := changeBay_holdCount g f s
    have same := h b hb
    refine ⟨fun hs => by rwa [HoldsWithinLimit, count], fun hs => ?_⟩
    refine hs.put hb (changeBay_bays_put hb f) (by rw [count, Bay.holdUnit, Bay.holdUnit, same]) fun un => ?_
    refine ⟨changeBay_device g f s ▸ un, fun none_ => ?_⟩
    rwa [none_, Option.isSome_none, Option.isSome_eq_false_iff, Option.isNone_iff_eq_none] at same

/-- A hold taken off a bay, and the count of holds one lower (R43). -/
theorem endHold {g : Nat} {b : Bay} {f : Bay → Bay} (hb : s.bays.find g = some b) (held : b.hold.isSome = true)
    (unheld : (f b).hold = none) (h : Nat × Nat) (e : HoldEnding) :
    HoldsKept s (reportEnding h e (Machine.changeBay g f s)) where
  limit hs := by
    rw [HoldsWithinLimit, reportEnding_holdCount, changeBay_holdCount]
    exact (Nat.sub_le _ _).trans hs
  counted hs := hs.endHold hb held unheld h e

/-- A bay changed in an event that ends its hold, by a change that puts no hold on it. -/
theorem changeBayEnding (g : Nat) (e : HoldEnding) {f : Bay → Bay} (unheld : ∀ b : Bay, b.hold = none → (f b).hold = none)
    (s : State) : HoldsKept s (changeBayEnding g e f s) := by
  unfold Machine.changeBayEnding
  split
  · next b h hb _ =>
    have off := unheld { b with hold := none } rfl
    dsimp only
    split
    · next held =>
      refine (endHold (f := fun x => f { x with hold := none }) hb held off h e).trans (of_frame ?_)
      simp (disch := decide)
    · next free =>
      refine changeBay g fun b' hb' => ?_
      obtain rfl := Option.some.inj (hb.symm.trans hb')
      rw [off, Bool.not_eq_true] at *
      exact free.symm
  · exact refl s

theorem releaseInRedirect (g : Nat) (h : Nat × Nat) (s : State) : HoldsKept s (releaseInRedirect g h s) := by
  unfold Machine.releaseInRedirect State.holdOn
  cases hb : s.bays.find g with
  | none => exact refl s
  | some b =>
    dsimp only
    split
    · next held => exact endHold hb held rfl h .released
    · exact refl s

/-- A hold made on a bay without one, where the limit leaves room and the device is configured (R36). -/
theorem makeHold {g : Nat} {b : Bay} (hb : s.bays.find g = some b) (free : b.hold = none) (x : Hold)
    (room : s.holdCount < Config.holdLimit) (configured : s.device ≠ .unconfigured) : HoldsKept s (makeHold g x s) := by
  let f : Bay → Bay := fun b => { b with hold := some x }
  have count : (Machine.makeHold g x s).holdCount = s.holdCount + 1 := congrArg (· + 1) (changeBay_holdCount g f s)
  have bays : (Machine.makeHold g x s).bays = s.bays.put g (f b) := changeBay_bays_put hb f
  have device : (Machine.makeHold g x s).device = s.device := changeBay_device g f s
  refine ⟨fun _ => by rw [HoldsWithinLimit, count]; exact room, fun hs => ?_⟩
  refine hs.put hb bays ?_ fun un => absurd (device ▸ un) configured
  rw [count, Bay.holdUnit_none free, Bay.holdUnit_some (b := f b) rfl]

theorem giveUpHold (id : Nat) (s : State) : HoldsKept s (giveUpHold id s) := by
  unfold Machine.giveUpHold
  repeat' split
  · exact refl s
  · exact refl s
  · exact of_frame (by simp (disch := decide))
  · exact (releaseInRedirect _ _ s).trans (of_frame ((steerBecomesPlain_frame (by decide) _).2 (.refl _ _)))

theorem redirectPass (closing : List Nat) (s : State) : HoldsKept s (redirectPass closing s) :=
  foldl (fun s id => (giveUpHold id s).trans (of_frame ((rechoose_frame (by decide) _ _).2 (.refl _ _)))) _ s

theorem arrival (g : Nat) (s : State) : HoldsKept s (arrival g s) := by
  unfold Machine.arrival
  split
  · refine (changeBayEnding (f := Bay.arrived s.partTime) g .taken (fun _ h => h) s).trans (of_frame ?_)
    dsimp only
    rw [presence_frame (by decide)]
    split <;> simp (disch := decide)
  · exact refl s

theorem headGone (segment address : Nat) (s : State) : HoldsKept s (headGone segment address s) :=
  (foldl (fun s (p : Nat × Bay) => changeBayEnding (f := Bay.unsensed) p.1 .lost (fun _ h => h) s) _ s).trans
    (of_frame ((fanUnreached_frame (by decide) _ _).2 (.refl _ _)))

end HoldsKept

/-! ### Fire states and flags (R139) -/

/-- A zone is in fire state ACTIVE exactly while one of its flags is set (R139). -/
def Zone.FireFits (z : Zone) : Prop := z.fire = .active ↔ z.lineFlag = true ∨ z.declaredFlag = true

/-- Zone records changed, each to one that fits where it fits. -/
theorem FireMatchesFlags.mapWith {f : Nat → Zone → Zone} (hs : FireMatchesFlags s) (zones : t.zones = s.zones.mapWith f)
    (fits : ∀ n z, z.FireFits → (f n z).FireFits) : FireMatchesFlags t := by
  obtain ⟨wf, each⟩ := hs
  rw [FireMatchesFlags, zones, EachRecord.mapWith_iff]
  exact ⟨Table.wf_mapWith wf f, each.imp fun q _ h => fits q.1 q.2 h⟩

theorem FireMatchesFlags.of_eq (hs : FireMatchesFlags s) (zones : t.zones = s.zones) : FireMatchesFlags t := by
  rwa [FireMatchesFlags, zones]

/-- A minor change writes no fire state and no flag. -/
theorem FireMatchesFlags.minors {ok : Nat → Prop} (h : Minors ok s t) (hs : FireMatchesFlags s) : FireMatchesFlags t := by
  obtain ⟨_, zones⟩ := h.zones
  exact hs.mapWith zones fun _ _ fits => fits

/-! ### The three together -/

/-- An event keeps the hold count, the settings in order and the fire states as their flags. -/
structure LimitsKept (s t : State) : Prop where
  holds : HoldsKept s t
  settings : SettingsOrdered s → SettingsOrdered t
  fire : FireMatchesFlags s → FireMatchesFlags t

theorem SettingsOrdered.of_frame (h : SameExcept besideSettings s t) (hs : SettingsOrdered s) : SettingsOrdered t := by
  have passages : t.passageSettings = s.passageSettings := h .passageSettings (by decide)
  have air : t.airSettings = s.airSettings := h .airSettings (by decide)
  rwa [SettingsOrdered, passages, air]

namespace LimitsKept

theorem refl (s : State) : LimitsKept s s := ⟨.refl s, id, id⟩

theorem trans (h : LimitsKept s t) (k : LimitsKept t u) : LimitsKept s u :=
  ⟨h.holds.trans k.holds, fun hs => k.settings (h.settings hs), fun hs => k.fire (h.fire hs)⟩

theorem foldl {α : Type} {f : State → α → State} (h : ∀ s x, LimitsKept s (f s x)) (l : List α) (s : State) :
    LimitsKept s (l.foldl f s) := by
  induction l generalizing s with
  | nil => exact refl s
  | cons x l ih => exact (h s x).trans (ih _)

theorem ite {c : Prop} [Decidable c] (h : LimitsKept s t) (k : LimitsKept s u) : LimitsKept s (if c then t else u) := by
  split
  exacts [h, k]

/-- A change of fields that none of the three rests on. -/
theorem beside (h : SameExcept besideLimits s t) : LimitsKept s t :=
  ⟨.of_frame (h.mono (by decide)), .of_frame (h.mono (by decide)), fun hs => hs.of_eq (h .zones (by decide))⟩

/-- A change into a device state that is configured, beside the other fields that they rest on. -/
theorem device (h : SameExcept (.device :: besideLimits) s t) (configured : t.device ≠ .unconfigured) : LimitsKept s t :=
  ⟨.of_device (h.mono (by decide)) fun un => absurd un configured, .of_frame (h.mono (by decide)),
    fun hs => hs.of_eq (h .zones (by decide))⟩

/-- A change of the zone records that keeps their fire states as their flags. -/
theorem zones (h : SameExcept (.zones :: besideLimits) s t) (fire : FireMatchesFlags s → FireMatchesFlags t) :
    LimitsKept s t :=
  ⟨.of_frame (h.mono (by decide)), .of_frame (h.mono (by decide)), fire⟩

/-- A change of bays and steers that keeps the hold count. -/
theorem minors {ok : Nat → Prop} (h : Minors ok s t) (frame : SameExcept besideSettings s t) (holds : HoldsKept s t) :
    LimitsKept s t := ⟨holds, .of_frame frame, .minors h⟩

/-- A bay changed but for whether it carries a hold. -/
theorem changeBay (g : Nat) {f : Bay → Bay} (h : ∀ b, s.bays.find g = some b → (f b).hold.isSome = b.hold.isSome) :
    LimitsKept s (changeBay g f s) :=
  minors (ok := fun _ => True) (.bay g f s) ((changeBay_except g f s).mono (by decide)) (.changeBay g h)

theorem changeBayEnding (g : Nat) (e : HoldEnding) {f : Bay → Bay} (unheld : ∀ b : Bay, b.hold = none → (f b).hold = none)
    (s : State) : LimitsKept s (changeBayEnding g e f s) :=
  minors (ok := fun _ => True) (changeBayEnding_minors g e f s) ((changeBayEnding_frame (by decide) g e f).2 (.refl _ s))
    (.changeBayEnding g e unheld s)

theorem arrival (g : Nat) (s : State) : LimitsKept s (arrival g s) :=
  minors (ok := fun _ => True) (arrival_minors g s) ((arrival_frame (by decide) g).2 (.refl _ s)) (.arrival g s)

theorem makeHold {g : Nat} {b : Bay} (hb : s.bays.find g = some b) (free : b.hold = none) (x : Hold)
    (room : s.holdCount < Config.holdLimit) (configured : s.device ≠ .unconfigured) : LimitsKept s (makeHold g x s) :=
  minors (ok := fun _ => True) (makeHold_minors g x s) ((makeHold_frame (by decide) g x).2 (.refl _ s))
    (.makeHold hb free x room configured)

theorem headGone (segment address : Nat) (s : State) : LimitsKept s (headGone segment address s) :=
  minors (ok := fun _ => True) (headGone_minors segment address s) ((headGone_frame (by decide) segment address).2 (.refl _ s))
    (.headGone segment address s)

/-- Guidance states derived again, with the redirect pass (R11, R12, R66). -/
theorem deriveAndRedirect (zs : List Nat) (s : State) : LimitsKept s (deriveAndRedirect zs s) := by
  have derived : LimitsKept s (refreshGuidance zs s) :=
    zones ((refreshGuidance_frame (by decide) zs).2 (.refl _ s)) fun hs =>
      hs.mapWith (State.setZones_zones _ _) fun n z fits => by split <;> exact fits
  exact derived.trans (minors (ok := fun _ => True) (redirectPass_minors _ _)
    ((redirectPass_frame (by decide) _).2 (.refl _ _)) (.redirectPass _ _))

/-- Demand steps stored, with what follows of the fans (R102). -/
theorem settleDemand (zs : List Nat) (s : State) : LimitsKept s (settleDemand zs s) :=
  zones ((settleDemand_frame (by decide) zs).2 (.refl _ s)) fun hs => by
    have frame : SameExcept [.fans] (storeDemand zs s) (Machine.settleDemand zs s) := by
      simp (disch := decide) [Machine.settleDemand]
    refine FireMatchesFlags.of_eq ?_ (frame .zones (by decide))
    exact hs.mapWith (State.setZones_zones _ _) fun n z fits => by split <;> exact fits

theorem creditAir (z amount : Nat) (s : State) : LimitsKept s (creditAir z amount s) :=
  zones ((creditAir_frame (by decide) z amount).2 (.refl _ s)) fun hs =>
    hs.mapWith (State.setZones_zones _ _) fun n y fits => by split <;> exact fits

end LimitsKept

end Sys2Proof.Machine
end

section
/-!
SUPPORT. The events of the part keep the hold count, the settings in order and the fire states as their flags.
-/
namespace Sys2Proof.Machine

variable {s t u : State}

namespace LimitsKept

/-! ### Quiet hours and the end of STARTING (R154, R157, R174) -/

theorem enterWarming (cause : WakeCause) (zones : List Nat) (s : State) : LimitsKept s (enterWarming cause zones s) :=
  device ((enterWarming_frame (by decide) cause zones).2 (.refl _ s)) (by
    rw [show (Machine.enterWarming cause zones s).device = .warming from rfl]
    decide)

theorem wakeEvent (cause : WakeCause) (zones : List Nat) (s : State) : LimitsKept s (wakeEvent cause zones s) :=
  ite (enterWarming cause zones s) (refl s)

theorem endWarming (s : State) : LimitsKept s (endWarming s) :=
  ite (device (by simp (disch := decide)) (by
    rw [show State.device _ = DeviceState.running from rfl]
    decide)) (refl s)

theorem takeQuiet (mode : QuietMode) (s : State) : LimitsKept s (takeQuiet mode s) :=
  ite (enterWarming _ _ s) (device ((enterQuiet_frame (by decide) mode).2 (.refl _ s)) (by
    rw [show (enterQuiet mode s).device = .quiet from rfl]
    decide))

theorem endStarting (s : State) : LimitsKept s (endStarting s) := by
  have running : LimitsKept s (s.setDevice .running) :=
    device (by simp (disch := decide)) (by simp)
  exact ite ((running.trans (deriveAndRedirect _ _)).trans (beside ((settleAllLamps_frame (by decide)).2 (.refl _ _))))
    (refl s)

theorem start (s : State) : LimitsKept s (start s) := by
  have started : LimitsKept s (takeUpFire (enterStarting s)) :=
    device (by simp (disch := decide)) (by
      rw [show (takeUpFire (enterStarting s)).device = .starting from rfl]
      decide)
  exact (started.trans (deriveAndRedirect _ _)).trans (beside ((settleAllLamps_frame (by decide)).2 (.refl _ _)))

/-! ### Passages (R52 to R58) -/

theorem entryGuidance (p : Nat) (r : Passage) (c : VehicleClass) (s : State) : LimitsKept s (entryGuidance p r c s) :=
  minors (ok := fun _ => True) (entryGuidance_minors p r c ⟨fun _ _ => trivial, fun _ _ => trivial⟩)
    ((entryGuidance_frame (by decide) p r c).2 (.refl _ s)) (.of_frame ((entryGuidance_frame (by decide) p r c).2 (.refl _ s)))

theorem creditPassage (z : Option Nat) (c : VehicleClass) (s : State) : LimitsKept s (creditPassage z c s) := by
  cases z with
  | none => exact refl s
  | some z => exact (creditAir z _ s).trans (beside ((presence_frame (by decide) _).2 (.refl _ _)))

theorem forwardPassage (p : Nat) (r : Passage) (c : VehicleClass) (s : State) : LimitsKept s (forwardPassage p r c s) :=
  (ite (entryGuidance p r c s) (refl s)).trans (ite (wakeEvent _ _ _) (refl _))

theorem takePassage (p : Nat) (gap : Int) (occupancy : Nat) (s : State) : LimitsKept s (takePassage p gap occupancy s) := by
  unfold Machine.takePassage
  split
  · exact refl s
  · next r _ =>
    dsimp only
    have counted (x : Passage) : LimitsKept s (s.setPassages (s.passages.put p x)) := beside (by simp (disch := decide))
    split
    · exact ((counted _).trans (creditPassage _ _ _)).trans (forwardPassage _ _ _ _)
    · exact ((counted _).trans (creditPassage _ _ _)).trans (beside ((reversePassage_frame (by decide) _ _ _).2 (.refl _ _)))

theorem loopReport (segment address : Nat) (payload : List Byte) (s : State) :
    LimitsKept s (loopReport segment address payload s) := by
  unfold Machine.loopReport
  split
  · exact (beside (by simp (disch := decide))).trans (foldl (fun u x => takePassage _ _ _ u) _ _)
  · exact refl s

/-! ### Bays (R27 to R35) -/

theorem departure (g : Nat) (s : State) : LimitsKept s (departure g s) := by
  unfold Machine.departure
  split
  · exact refl s
  · have departed : LimitsKept s (Machine.changeBay g (Bay.departed s.partTime) s) := changeBay g fun _ _ => rfl
    exact (departed.trans (creditAir _ _ _)).trans (beside ((presence_frame (by decide) _).2 (.refl _ _)))

theorem applyRaw (g : Nat) (raw : Raw) (s : State) : LimitsKept s (applyRaw g raw s) := by
  unfold Machine.applyRaw
  split
  · exact refl s
  · split
    · exact refl s
    · exact changeBayEnding (f := Bay.faulted) g .lost (fun _ h => h) s
    · exact changeBay g fun _ _ => rfl
    · exact ite (arrival g s) (refl s)
    · exact refl s
    · exact changeBay g fun _ _ => rfl
    · exact refl s
    · exact changeBay g fun _ _ => rfl
    · exact changeBay g fun _ _ => rfl
    · exact ite (departure g s) (refl s)
    · exact changeBay g fun _ _ => rfl
    · exact changeBay g fun _ _ => rfl

theorem bayReport (segment address : Nat) (payload : List Byte) (s : State) :
    LimitsKept s (bayReport segment address payload s) :=
  foldl (fun s p => by
    unfold takeRaw
    split
    · exact refl s
    · exact ite (applyRaw _ _ s) (refl s)) _ s

theorem hostSet (g : Nat) (b : Bay) (present : Bool) (s : State) : LimitsKept s (hostSet g b present s) := by
  refine ite (refl s) (ite (changeBay g fun b _ => ?_) (ite (arrival g s) (departure g s)))
  split <;> rfl

/-! ### Heads (R165 to R176) -/

theorem loseHead (segment address : Nat) (h : Head) (s : State) : LimitsKept s (loseHead segment address h s) :=
  (beside (by simp (disch := decide))).trans (headGone segment address _)

theorem missHead (segment address : Nat) (s : State) : LimitsKept s (missHead segment address s) := by
  unfold Machine.missHead
  split
  · exact refl s
  · exact ite (loseHead _ _ _ s) (beside (by simp (disch := decide)))

theorem mismatchHead (segment address : Nat) (h : Head) (r : Response) (s : State) :
    LimitsKept s (mismatchHead segment address h r s) :=
  ite (beside (by simp (disch := decide))) ((beside (by simp (disch := decide))).trans (headGone segment address _))

theorem lampReport (segment address : Nat) (wake : Bool) (payload : List Byte) (s : State) :
    LimitsKept s (lampReport segment address wake payload s) := by
  unfold Machine.lampReport
  split
  · next level failed flags =>
    have reported (o : Option (Nat × LampGroup)) : LimitsKept s
        (match o with | none => s | some (n, g) => groupReport n g level failed flags s) := by
      cases o with
      | none => exact refl s
      | some p => exact beside ((groupReport_frame (by decide) _ _ _ _ _).2 (.refl _ s))
    exact (reported _).trans (ite (wakeEvent _ _ _) (refl _))
  · exact refl s

theorem handReport (segment address : Nat) (h : Head) (payload : List Byte) (s : State) :
    LimitsKept s (handReport segment address h payload s) := by
  unfold Machine.handReport
  split
  · exact bayReport _ _ _ s
  · exact refl s
  · exact (loopReport _ _ _ s).trans (beside ((flipToggle_frame (by decide) _ _).2 (.refl _ _)))
  · exact beside (by simp (disch := decide))
  · exact lampReport _ _ _ _ s
  · exact beside (by simp (disch := decide))

theorem answerHead (segment address : Nat) (r : Response) (s : State) : LimitsKept s (answerHead segment address r s) := by
  unfold Machine.answerHead
  split
  · exact refl s
  · exact ite ((beside (by simp (disch := decide))).trans (handReport _ _ _ _ _)) (mismatchHead _ _ _ _ s)

/-- An exchange ends (R160). -/
theorem endExchange (segment : Nat) (x : Exchange) {settle : State → State} (h : ∀ u, LimitsKept u (settle u)) (s : State) :
    LimitsKept s (endExchange segment x settle s) := by
  have freed (g : Segment) : LimitsKept s (s.putSegment segment g) := beside (by simp (disch := decide))
  refine ite (freed _) (((freed { s.segment segment with exchange := none }).trans (h _)).trans ?_)
  exact (beside ((walkSegment_frame (by decide) _).2 ((warmPolled_frame (by decide) _ _ _).2 (.refl _ _)))).trans
    ((endWarming _).trans (endStarting _))

theorem configureHead (segment address : Nat) (kind : HeadKind) (wake : Bool) (s : State) :
    LimitsKept s (configureHead segment address kind wake s) := by
  have stored (x : Head) : LimitsKept s (s.setHeads (s.heads.put (headKey segment address) x)) :=
    beside (by simp (disch := decide))
  refine ((stored (Head.listed kind wake)).trans (headGone segment address _)).trans ?_
  have warm (u : State) :
      LimitsKept u (if u.device = .warming then joinWarmSet (headKey segment address) u else u) :=
    ite (beside ((joinWarmSet_frame (by decide) _).2 (.refl _ _))) (refl u)
  refine (warm _).trans ?_
  exact (beside ((State.putSegment_frame (by decide) _ _).2 (.refl _ _))).trans (endStarting _)

theorem removeHead (segment address : Nat) (s : State) : LimitsKept s (removeHead segment address s) :=
  (beside (by simp (disch := decide))).trans ((endWarming _).trans (endStarting _))

theorem loseLate (s : State) (key : Nat) : LimitsKept s (loseLate s key) := by
  unfold Machine.loseLate
  split
  · exact refl s
  · exact ite (loseHead _ _ _ s) (refl s)

theorem setLost (v : Nat) (s : State) : LimitsKept s (setLost v s) := by
  have set : LimitsKept s (s.setLostTime v) := beside (by simp (disch := decide))
  exact ite (set.trans (foldl loseLate _ _)) set

/-! ### Fire (R139 to R146) -/

/-- Fire states and flags moved so that they fit (R139). -/
theorem moveFire (cause : FireCause) {move : Nat → Zone → FireMove}
    (fits : ∀ n (z : Zone), z.FireFits → (z.withFire (move n z)).FireFits) (s : State) : LimitsKept s (moveFire cause move s) := by
  have stored : LimitsKept s (storeFire move s) :=
    zones ((storeFire_frame (by decide) move).2 (.refl _ s)) fun hs => hs.mapWith (State.setZones_zones _ _) fits
  have raised (zs : List Nat) (u : State) : LimitsKept u (zs.foldl (raiseFire cause) u) :=
    foldl (fun u z => beside ((raiseFire_frame (by decide) _ _).2 (.refl _ u))) zs u
  have driven (zs : List Nat) (u : State) : LimitsKept u (settleLampsOf zs (gate (retargetZones zs (Machine.settleDemand zs u)))) :=
    (settleDemand zs u).trans (beside (by simp (disch := decide)))
  exact ((stored.trans (raised _ _)).trans (driven _ _)).trans (deriveAndRedirect _ _)

theorem activationMove_fits (n : Nat) (z : Zone) (h : z.FireFits) : (z.withFire (activationMove n z)).FireFits := by
  unfold activationMove
  split
  · simp [Zone.FireFits, Zone.withFire]
  · exact h

theorem releaseMove_fits (n : Nat) (z : Zone) (h : z.FireFits) : (z.withFire (releaseMove n z)).FireFits := by
  unfold releaseMove
  split
  · next line =>
    have active : z.fire = .active := h.2 (.inl line)
    cases declared : z.declaredFlag <;> simp [Zone.FireFits, Zone.withFire, active]
  · exact h

theorem declareMove_fits (zs : List Nat) (n : Nat) (z : Zone) (h : z.FireFits) :
    (z.withFire (declareMove zs n z)).FireFits := by
  unfold declareMove
  split
  · simp [Zone.FireFits, Zone.withFire]
  · exact h

/-- A clearing leaves ACTIVE the zones whose line flag is set alone (R144). -/
theorem clearMove_fits (zs : List Nat) (n : Nat) (z : Zone) (h : z.FireFits) : (z.withFire (clearMove zs n z)).FireFits := by
  unfold clearMove
  split
  · cases hf : z.fire with
    | noFire | held => simpa [Zone.FireFits, Zone.withFire, hf] using h
    | active => cases line : z.lineFlag <;> simp [Zone.FireFits, Zone.withFire]
  · exact h

theorem activateFire (s : State) : LimitsKept s (activateFire s) := by
  have moved : LimitsKept s (Machine.moveFire .line activationMove (s.setFireLine (s.fireLine.settle true))) :=
    (beside (by simp (disch := decide))).trans (moveFire (move := activationMove) .line activationMove_fits _)
  exact ite moved (moved.trans (wakeEvent _ _ _))

theorem releaseFire (s : State) : LimitsKept s (releaseFire s) :=
  (beside (by simp (disch := decide))).trans (moveFire (move := releaseMove) _ releaseMove_fits _)

/-! ### Override stacks and the air evaluation (R77, R133) -/

theorem changeStack (z : Nat) (r : Zone) (stack : List StackEntry) (s : State) : LimitsKept s (changeStack z r stack s) := by
  have stacked : LimitsKept s (s.updZone z fun x => { x with stack := stack }) :=
    zones (by simp (disch := decide)) fun hs => hs.mapWith (State.setZones_zones _ _) fun n y fits => by
      split <;> exact fits
  have driven (u : State) : LimitsKept u (gate (Machine.settleDemand [z] u)) :=
    (settleDemand _ u).trans (beside ((gate_frame (by decide)).2 (.refl _ _)))
  have lit (u : State) : LimitsKept u (settleLampsOf [z] u) := beside ((settleLampsOf_frame (by decide) _).2 (.refl _ u))
  have settled := (stacked.trans (ite (c := effectiveVent stack ≠ effectiveVent r.stack ∨ ventLevel stack ≠ ventLevel r.stack)
    (driven _) (refl _))).trans (ite (c := effectiveLight stack ≠ effectiveLight r.stack) (lit _) (refl _))
  exact ite (settled.trans (deriveAndRedirect _ _)) settled

theorem airEvaluation (s : State) : LimitsKept s (airEvaluation s) := by
  have evaluated : LimitsKept s (evaluateZones s) :=
    zones ((evaluateZones_frame (by decide)).2 (.refl _ s)) fun hs => hs.mapWith (State.setZones_zones _ _) fun _ _ fits => fits
  have handed (u : State) : LimitsKept u (handOnAir u) :=
    ((settleDemand _ u).trans (beside ((settleLampsOf_frame (by decide) _).2 ((gate_frame (by decide)).2 (.refl _ _))))).trans
      (deriveAndRedirect _ _)
  have woken (u : State) : LimitsKept u (wakeByAir u) := ite (refl u) (wakeEvent _ _ u)
  have raised (l : List Raise) (u : State) (x : Option Nat) : LimitsKept u ((raiseAll l u).setNextEvaluation x) :=
    beside ((State.setNextEvaluation_frame (by decide) _).2 ((raiseAll_frame (by decide) _).2 (.refl _ u)))
  exact ((evaluated.trans (raised _ _ _)).trans (handed _)).trans (woken _)

end LimitsKept

end Sys2Proof.Machine
end

section
/-!
SUPPORT. The configuration of zones and the two resets keep the hold count, the settings in order and the fire states as
their flags.
-/
namespace Sys2Proof.Machine

variable {s t u : State}

/-! ### Records come and go in UNCONFIGURED (R6, R15, R16, R36) -/

/-- In UNCONFIGURED no bay carries a hold, so bay records without one may come and go. -/
theorem HoldsKept.of_idle (h : SameExcept (.bays :: .zones :: besideLimits) s t) (unconfigured : s.device = .unconfigured)
    (wf : s.bays.wf = true → t.bays.wf = true)
    (idle : EachRecord (fun _ b => b.hold = none) s.bays → EachRecord (fun _ b => b.hold = none) t.bays) :
    HoldsKept s t := by
  have count : t.holdCount = s.holdCount := h .holdCount (by decide)
  have none_held {bays : Table Bay} (each : EachRecord (fun _ b => b.hold = none) bays) :
      (bays.filter fun p => p.2.hold.isSome).length = 0 := by
    rw [List.length_eq_zero_iff, List.filter_eq_nil_iff]
    exact fun p hp => by simp [each p hp]
  refine ⟨fun hs => by rwa [HoldsWithinLimit, count], fun ⟨canonical, counts, none_⟩ => ?_⟩
  have each := none_ unconfigured
  exact ⟨wf canonical, by rw [count, counts, none_held each, none_held (idle each)], fun _ => idle each⟩

theorem LimitsKept.of_idle (h : SameExcept (.bays :: .zones :: besideLimits) s t) (unconfigured : s.device = .unconfigured)
    (wf : s.bays.wf = true → t.bays.wf = true)
    (idle : EachRecord (fun _ b => b.hold = none) s.bays → EachRecord (fun _ b => b.hold = none) t.bays)
    (fire : FireMatchesFlags s → FireMatchesFlags t) : LimitsKept s t :=
  ⟨.of_idle h unconfigured wf idle, .of_frame (h.mono (by decide)), fire⟩

/-- The records given to numbers without one carry no hold (R22). -/
theorem fillNumbers_unheld (now : Nat) (l : List Nat) {bays : Table Bay} (h : EachRecord (fun _ b => b.hold = none) bays) :
    EachRecord (fun _ b => b.hold = none) (fillNumbers now l bays) := by
  induction l generalizing bays with
  | nil => exact h
  | cons g l ih =>
    refine ih ?_
    dsimp only
    split
    · exact h
    · exact h.put rfl

theorem EachRecord.filter {α : Type} {p : Nat → α → Prop} {t : Table α} (h : EachRecord p t) (keep : Nat × α → Bool) :
    EachRecord p (t.filter keep) := fun q hq => h q (List.mem_filter.1 hq).1

theorem FireMatchesFlags.put {n : Nat} {z : Zone} (hs : FireMatchesFlags s) (zones : t.zones = s.zones.put n z)
    (fits : z.FireFits) : FireMatchesFlags t := by
  obtain ⟨wf, each⟩ := hs
  rw [FireMatchesFlags, zones]
  exact ⟨Table.wf_put wf n z, each.put fits⟩

namespace LimitsKept

theorem addZone (n : Nat) (c : ZoneConfig) (unconfigured : s.device = .unconfigured) : LimitsKept s (addZone n c s) :=
  of_idle ((addZone_frame (by decide) n c).2 (.refl _ s)) unconfigured (fillRange_wf s.partTime c)
    (fillNumbers_unheld s.partTime c.range) fun hs => hs.put rfl (by simp [Zone.FireFits, Zone.fresh])

/-- A configuration replaced keeps the zone's fire state and flags; where the range moves, the device is UNCONFIGURED. -/
theorem replaceZone {n : Nat} {z : Zone} (c : ZoneConfig) (hz : s.zone n = some z)
    (range : (z.config.bayBase = c.bayBase ∧ z.config.bayCount = c.bayCount) ∨ s.device = .unconfigured) :
    LimitsKept s (replaceZone n z c s) := by
  have fire : FireMatchesFlags s → FireMatchesFlags (Machine.replaceZone n z c s) := fun hs => by
    obtain ⟨x, zones, _⟩ := replaceZone_zones n z c s
    have fits : z.FireFits := hs.2.of_find hz
    exact hs.put zones fits
  by_cases same : z.config.bayBase = c.bayBase ∧ z.config.bayCount = c.bayCount
  · refine zones ?_ fire
    rw [Machine.replaceZone, if_pos same]
    exact (State.setZones_frame (by decide) _).2 (.refl _ s)
  · have bays : (Machine.replaceZone n z c s).bays = fillNumbers s.partTime c.range (dropRange z.config c s.bays) := by
      rw [Machine.replaceZone, if_neg same]
      rfl
    refine of_idle ((replaceZone_frame (by decide) n z c).2 (.refl _ s)) (range.resolve_left same) ?_ ?_ fire
    · exact fun wf => bays ▸ fillRange_wf s.partTime c (Table.wf_filter wf _)
    · exact fun each => bays ▸ fillNumbers_unheld s.partTime c.range (each.filter _)

theorem settleZone (n : Nat) (s : State) : LimitsKept s (settleZone n s) :=
  beside ((settleZone_frame (by decide) n).2 (.refl _ s))

theorem setZoneConfig (n : Nat) (c : ZoneConfig) (unconfigured : s.device = .unconfigured) :
    LimitsKept s (setZoneConfig n c s) := by
  refine LimitsKept.trans ?_ (settleZone n _)
  split
  · exact addZone n c unconfigured
  · next hz => exact replaceZone c hz (.inr unconfigured)

theorem removeZone (n : Nat) (z : Zone) (unconfigured : s.device = .unconfigured) : LimitsKept s (removeZone n z s) := by
  refine LimitsKept.trans (t := dropZone n z s) ?_ (settleZone n _)
  refine of_idle (by simp (disch := decide) [dropZone]) unconfigured (fun wf => Table.wf_filter wf _)
    (fun each => each.filter _) fun ⟨wf, each⟩ =>
      ⟨Table.wf_del wf n, fun q hq => each q (Table.mem_del hq)⟩

/-! ### The two resets (R187) -/

/-- A soft restart ends every hold and leaves no zone ACTIVE (R48, R148). -/
theorem softRestart (s : State) : LimitsKept s (softRestart s) := by
  obtain ⟨_, _, _, _, count, _⟩ := softRestart_scalars s
  refine ⟨⟨fun _ => by rw [HoldsWithinLimit, count]; exact Nat.zero_le _, fun ⟨wf, _, _⟩ => ?_⟩,
    .of_frame ((softRestart_writes s).mono (by decide)), fun hs => ?_⟩
  · have unheld : EachRecord (fun _ (b : Bay) => b.hold = none) (Machine.softRestart s).bays := by
      rw [softRestart_bays, EachRecord.mapWith_iff]
      exact fun _ _ => rfl
    refine ⟨softRestart_bays s ▸ Table.wf_mapWith wf _, ?_, fun _ => unheld⟩
    rw [count, eq_comm, List.length_eq_zero_iff, List.filter_eq_nil_iff]
    exact fun p hp => by simp [unheld p hp]
  · refine hs.mapWith (softRestart_zones s) fun _ z _ => ?_
    cases hf : z.fire <;> simp [Zone.FireFits, Zone.restarted, FireState.restarted, hf]

/-- A cold reset takes what it keeps from the state before it, and nothing of that carries a limit. -/
theorem coldReset (cause : ColdCause) (s : State) : LimitsKept s (coldReset cause s) := by
  have zones : (Machine.coldReset cause s).zones = [] := rfl
  have bays : (Machine.coldReset cause s).bays = [] := rfl
  have count : (Machine.coldReset cause s).holdCount = 0 := rfl
  refine ⟨⟨fun _ => ?_, fun _ => ?_⟩, fun _ => ?_, fun _ => ?_⟩
  · rw [HoldsWithinLimit, count]
    exact Nat.zero_le _
  · rw [HoldsCounted, bays, count]
    exact ⟨rfl, rfl, fun _ _ h => nomatch h⟩
  · exact SettingsOrdered.of_frame (s := State.reset) (by simp (disch := decide) [Machine.coldReset]) reset_ordered
  · rw [FireMatchesFlags, zones]
    exact ⟨rfl, fun _ h => nomatch h⟩

end LimitsKept

end Sys2Proof.Machine
end

section
/-!
SUPPORT. Every AMEND and every CONFIGURE keeps the hold count, the settings in order and the fire states as their flags,
class by class (R183).
-/
namespace Sys2Proof.Machine

variable {s t u : State}

/-- The accepted cases of a serving rule keep the limits. -/
abbrev KeepsLimits (s : State) : Check Served → Prop := Gives fun p => LimitsKept s p.2

theorem LimitsKept.served {c : Check Served} (h : KeepsLimits s c) : LimitsKept s (served s c).2 := by
  cases c with
  | error r => exact .refl s
  | ok p => exact h p rfl

theorem LimitsKept.same_range {n : Nat} {z : Zone} {c : ZoneConfig} (hz : s.zone n = some z)
    (base : z.config.bayBase = c.bayBase) (count : z.config.bayCount = c.bayCount) : LimitsKept s (Machine.replaceZone n z c s) :=
  .replaceZone c hz (.inl ⟨base, count⟩)

/-! ### AMEND: zones and bays (R18 to R20, R26, R33, R46) -/

theorem amendNumber_keepsLimits {r : Reader Nat} {enc : Nat → List Byte} {clamp : Nat → Nat} {prior : Nat}
    {put : Nat → State} (h : ∀ v, LimitsKept s (put v)) (body : List Byte) :
    KeepsLimits s (amendNumber r enc clamp prior put body) :=
  Gives.bind fun ⟨_, _⟩ _ => Gives.pure (h _)

theorem amendStructure_keepsLimits {client n : Nat} {z : Zone} {r : Reader Nat} {prior : List Byte}
    {set : Nat → ZoneConfig → ZoneConfig} (hz : s.zone n = some z) (body : List Byte) :
    KeepsLimits s (amendStructure client n z r prior set body s) :=
  Gives.bind fun _ _ => Gives.bind fun _ hu => Gives.bind fun ⟨_, _⟩ _ => Gives.bind fun _ _ =>
    Gives.pure (.replaceZone _ hz (.inr (needUnconfigured_ok hu)))

theorem amendSetting_keepsLimits {client n : Nat} {z : Zone} {r : Reader Nat} {enc : Nat → List Byte} {clamp : Nat → Nat}
    {prior : Nat} {set : Nat → ZoneConfig → ZoneConfig} (hz : s.zone n = some z)
    (base : ∀ v c, c.bayBase = (set v c).bayBase) (count : ∀ v c, c.bayCount = (set v c).bayCount) (body : List Byte) :
    KeepsLimits s (amendSetting client n z r enc clamp prior set body s) :=
  Gives.bind fun _ _ => amendNumber_keepsLimits (fun _ => .same_range hz (base _ _) (count _ _)) body

theorem amendZoneFlags_keepsLimits {client n : Nat} {z : Zone} (hz : s.zone n = some z) (body : List Byte) :
    KeepsLimits s (amendZoneFlags client n z body s) := by
  refine Gives.bind fun _ _ => Gives.bind fun ⟨⟨value, mask⟩, _⟩ _ => Gives.pure ?_
  have replaced : LimitsKept s (replaceZone n z (z.config.withFlags value mask) s) := .same_range hz rfl rfl
  dsimp only
  split
  · exact replaced
  · exact (replaced.trans (.settleDemand _ _)).trans (.settleZone n _)

theorem amendZone_keepsLimits (client : Nat) (body : List Byte) : KeepsLimits s (amendZone client body s) := by
  refine Gives.bind fun ⟨n, body⟩ _ => Gives.bind fun z hz => Gives.bind fun ⟨field, body⟩ _ => ?_
  obtain ⟨_, hz⟩ := needZone_ok hz
  dsimp only
  split
  · exact amendStructure_keepsLimits hz _
  · exact amendStructure_keepsLimits hz _
  · exact amendStructure_keepsLimits hz _
  · exact Gives.bind fun _ _ => Gives.bind fun ⟨_, _⟩ _ => Gives.bind fun _ _ => Gives.bind fun _ _ =>
      Gives.pure (.same_range hz rfl rfl)
  · refine amendSetting_keepsLimits hz ?_ ?_ _
    exacts [fun _ _ => rfl, fun _ _ => rfl]
  · refine amendSetting_keepsLimits hz ?_ ?_ _
    exacts [fun _ _ => rfl, fun _ _ => rfl]
  · refine amendSetting_keepsLimits hz ?_ ?_ _
    exacts [fun _ _ => rfl, fun _ _ => rfl]
  · refine amendSetting_keepsLimits hz ?_ ?_ _
    exacts [fun _ _ => rfl, fun _ _ => rfl]
  · exact amendZoneFlags_keepsLimits hz _
  · exact Gives.error _

theorem amendBay_keepsLimits (client : Nat) (body : List Byte) : KeepsLimits s (amendBay client body s) := by
  refine Gives.bind fun ⟨⟨z, i⟩, body⟩ _ => Gives.bind fun ⟨g, b⟩ _ => Gives.bind fun ⟨field, body⟩ _ => ?_
  dsimp only
  split
  · exact Gives.bind fun _ _ => Gives.bind fun ⟨_, _⟩ _ => Gives.pure (.changeBay g fun _ _ => rfl)
  · exact Gives.bind fun _ _ => Gives.bind fun _ _ => Gives.bind fun ⟨_, _⟩ _ => Gives.bind fun _ _ =>
      Gives.pure (.changeBay g fun _ _ => rfl)
  · exact Gives.bind fun _ _ => Gives.bind fun _ _ => Gives.bind fun ⟨_, _⟩ _ => Gives.bind fun _ _ =>
      Gives.pure (.changeBay g fun _ _ => rfl)
  · exact Gives.bind fun _ _ => Gives.bind fun ⟨_, _⟩ _ => Gives.bind fun _ _ => Gives.bind fun _ _ =>
      Gives.bind fun _ _ => Gives.pure (.hostSet _ _ _ s)
  · exact Gives.error _

/-! ### AMEND: the settings records -/

/-- Passage settings set in order (R51). -/
theorem LimitsKept.setPassageSettings {c : PassageSettings} (ordered : c.ordered = true) :
    LimitsKept s (s.setPassageSettings c) :=
  ⟨.of_frame (by simp (disch := decide)), fun ⟨_, air⟩ => ⟨of_decide_eq_true ordered, air⟩, fun hs => hs.of_eq rfl⟩

/-- Air settings set in order (R93). -/
theorem LimitsKept.setAirSettings {c : AirSettings} (ordered : c.ordered = true) : LimitsKept s (s.setAirSettings c) :=
  ⟨.of_frame (by simp (disch := decide)), fun ⟨limits, _⟩ => ⟨limits, by simpa [AirSettings.ordered, and_assoc] using ordered⟩,
    fun hs => hs.of_eq rfl⟩

theorem amendBaySettings_keepsLimits (client : Nat) (body : List Byte) :
    KeepsLimits s (amendBaySettings client body s) := by
  refine Gives.bind fun ⟨field, body⟩ _ => ?_
  dsimp only
  split
  · exact Gives.bind fun _ _ => amendNumber_keepsLimits (fun _ => .beside (by simp (disch := decide))) _
  · exact Gives.error _

theorem amendPassageSettings_keepsLimits (client : Nat) (body : List Byte) :
    KeepsLimits s (amendPassageSettings client body s) := by
  have limit {clamp : Nat → Nat} {prior : Nat} {c : Nat → PassageSettings} {body : List Byte} :
      KeepsLimits s (amendLimit client clamp prior c body s) :=
    Gives.bind fun _ _ => Gives.bind fun ⟨_, _⟩ _ => Gives.bind fun _ ordered =>
      Gives.pure (.setPassageSettings (require_ok.1 ordered))
  refine Gives.bind fun ⟨field, body⟩ _ => ?_
  dsimp only
  split
  · exact limit
  · exact limit
  · exact Gives.error _

theorem setPattern_keepsLimits (code : Nat) (p : Pattern) (s : State) : LimitsKept s (setPattern code p s) :=
  .beside (by simp (disch := decide) [setPattern])

theorem amendPattern_keepsLimits (client : Nat) (body : List Byte) : KeepsLimits s (amendPattern client body s) := by
  refine Gives.bind fun ⟨code, body⟩ _ => Gives.bind fun _ _ => Gives.bind fun ⟨field, body⟩ _ => ?_
  dsimp only
  split
  · exact Gives.bind fun _ _ => Gives.bind fun ⟨_, _⟩ _ => Gives.pure (setPattern_keepsLimits _ _ s)
  · exact Gives.error _

theorem amendEvaluator_keepsLimits (client : Nat) (body : List Byte) : KeepsLimits s (amendEvaluator client body s) :=
  Gives.bind fun ⟨_, _⟩ _ => Gives.bind fun _ _ => Gives.bind fun _ _ => Gives.bind fun ⟨_, _⟩ _ =>
    Gives.bind fun _ ordered => Gives.pure (.setAirSettings (require_ok.1 ordered))

theorem amendFanDrive_keepsLimits (client : Nat) (body : List Byte) : KeepsLimits s (amendFanDrive client body s) := by
  refine Gives.bind fun ⟨field, body⟩ _ => ?_
  dsimp only
  split
  · exact Gives.bind fun _ _ => Gives.bind fun ⟨_, _⟩ _ => Gives.bind fun _ _ =>
      Gives.pure (.beside (by simp (disch := decide)))
  · exact Gives.bind fun _ _ => amendNumber_keepsLimits (fun _ => .beside (by simp (disch := decide))) _
  · exact Gives.bind fun _ _ => amendNumber_keepsLimits (fun _ => .beside (by simp (disch := decide))) _
  · exact Gives.error _

theorem amendLampControl_keepsLimits (client : Nat) (body : List Byte) :
    KeepsLimits s (amendLampControl client body s) := by
  refine Gives.bind fun ⟨field, body⟩ _ => ?_
  dsimp only
  split
  · exact Gives.bind fun _ _ => amendNumber_keepsLimits (fun _ => .beside (by simp (disch := decide))) _
  · exact Gives.error _

theorem amendQuiet_keepsLimits (client : Nat) (body : List Byte) : KeepsLimits s (amendQuiet client body s) := by
  refine Gives.bind fun ⟨field, body⟩ _ => ?_
  dsimp only
  split
  · exact Gives.bind fun _ _ => amendNumber_keepsLimits (fun _ => .beside (by simp (disch := decide))) _
  · exact Gives.bind fun _ _ => amendNumber_keepsLimits (fun _ => .beside (by simp (disch := decide))) _
  · exact Gives.error _

theorem amendLanePoller_keepsLimits (client : Nat) (body : List Byte) : KeepsLimits s (amendLanePoller client body s) := by
  refine Gives.bind fun ⟨field, body⟩ _ => ?_
  dsimp only
  split
  · exact Gives.bind fun _ _ => amendNumber_keepsLimits (fun _ => .setLost _ s) _
  · exact Gives.error _

theorem setClientLevel_keepsLimits (slot level : Nat) (s : State) : KeepsLimits s (setClientLevel slot level s) :=
  Gives.bind fun _ _ => Gives.bind fun _ _ => Gives.pure (.beside (by simp (disch := decide)))

theorem setSource_keepsLimits (n level : Nat) (enabled : Bool) (s : State) : KeepsLimits s (setSource n level enabled s) :=
  Gives.bind fun _ _ => Gives.pure (.beside (by simp (disch := decide)))

theorem amendClient_keepsLimits (client : Nat) (body : List Byte) : KeepsLimits s (amendClient client body s) := by
  refine Gives.bind fun _ _ => Gives.bind fun ⟨slot, body⟩ _ => Gives.bind fun _ _ => Gives.bind fun ⟨field, body⟩ _ => ?_
  dsimp only
  split
  · exact Gives.bind fun ⟨_, _⟩ _ => setClientLevel_keepsLimits _ _ s
  · exact Gives.error _

theorem amendAttention_keepsLimits (client : Nat) (body : List Byte) : KeepsLimits s (amendAttention client body s) := by
  refine Gives.bind fun ⟨n, body⟩ _ => Gives.bind fun _ _ => Gives.bind fun ⟨field, body⟩ _ => ?_
  dsimp only
  split
  · exact Gives.bind fun _ _ => Gives.bind fun ⟨_, _⟩ _ => setSource_keepsLimits _ _ _ s
  · exact Gives.bind fun _ _ => Gives.bind fun ⟨_, _⟩ _ => setSource_keepsLimits _ _ _ s
  · exact Gives.error _

/-! ### AMEND: passages, signs, fans, lamp groups, heads -/

theorem amendPassage_keepsLimits (client : Nat) (body : List Byte) : KeepsLimits s (amendPassage client body s) := by
  have set (n : Nat) (c : PassageConfig) : LimitsKept s (setPassageConfig n c s) :=
    .beside (by simp (disch := decide) [setPassageConfig])
  have number {level n : Nat} {clamp : Nat → Nat} {prior : Nat} {c : Nat → PassageConfig} {body : List Byte} :
      KeepsLimits s (amendPassageNumber client level n clamp prior c body s) :=
    Gives.bind fun _ _ => amendNumber_keepsLimits (fun _ => set _ _) _
  have structure_ {α : Type} {n : Nat} {r : Reader α} {prior : List Byte} {c : α → PassageConfig} {body : List Byte} :
      KeepsLimits s (amendPassageStructure client n r prior c body s) :=
    Gives.bind fun _ _ => Gives.bind fun _ _ => Gives.bind fun ⟨_, _⟩ _ => Gives.bind fun _ _ => Gives.pure (set _ _)
  refine Gives.bind fun ⟨n, body⟩ _ => Gives.bind fun p _ => Gives.bind fun ⟨field, body⟩ _ => ?_
  dsimp only
  split
  · exact Gives.bind fun _ _ => Gives.bind fun ⟨_, _⟩ _ => Gives.bind fun _ _ => Gives.bind fun _ _ =>
      Gives.bind fun _ _ => Gives.bind fun _ _ => Gives.pure (set _ _)
  · exact Gives.bind fun _ _ => Gives.bind fun ⟨_, _⟩ _ => Gives.pure (set _ _)
  · exact number
  · exact number
  · exact number
  · exact structure_
  · exact structure_
  · exact structure_
  · exact structure_
  · exact structure_
  · exact Gives.error _

theorem amendSign_keepsLimits (client : Nat) (body : List Byte) : KeepsLimits s (amendSign client body s) := by
  have set (n : Nat) (c : SignConfig) : LimitsKept s (setSignConfig n c s) :=
    .beside (by simp (disch := decide) [setSignConfig])
  have field_ {α : Type} {level n : Nat} {r : Reader α} {prior : List Byte} {c : α → SignConfig} {names : α → List Nat}
      {body : List Byte} : KeepsLimits s (amendSignField client level n r prior c names body s) :=
    Gives.bind fun _ _ => Gives.bind fun _ _ => Gives.bind fun ⟨_, _⟩ _ => Gives.bind fun _ _ => Gives.bind fun _ _ =>
      Gives.pure (set _ _)
  refine Gives.bind fun ⟨n, body⟩ _ => Gives.bind fun p _ => Gives.bind fun ⟨field, body⟩ _ => ?_
  dsimp only
  split
  · exact field_
  · exact field_
  · exact Gives.bind fun _ _ => amendNumber_keepsLimits (fun _ => set _ _) _
  · exact field_
  · exact field_
  · exact Gives.error _

theorem fanField_keepsLimits {client n : Nat} {f : Fan} (body : List Byte) :
    Gives (LimitsKept s) (fanField client n f body s).2 := by
  unfold fanField
  split
  · exact Gives.bind fun _ _ => Gives.bind fun _ _ => Gives.bind fun ⟨_, _⟩ _ => Gives.bind fun _ _ =>
      Gives.bind fun _ _ => Gives.pure (.beside (by simp (disch := decide)))
  · exact Gives.bind fun _ _ => Gives.bind fun ⟨_, _⟩ _ => Gives.bind fun _ _ => Gives.bind fun _ _ =>
      Gives.bind fun _ _ => Gives.pure (.beside (by simp (disch := decide) [retargetFan]))
  · exact Gives.bind fun _ _ => Gives.bind fun _ _ => Gives.bind fun ⟨_, _⟩ _ => Gives.bind fun _ _ =>
      Gives.pure (.beside (by simp (disch := decide)))
  · exact Gives.bind fun _ _ => Gives.bind fun _ _ => Gives.bind fun ⟨_, _⟩ _ => Gives.bind fun _ _ =>
      Gives.pure (.beside (by simp (disch := decide) [changeFans, retargetFan]))
  · exact Gives.error _

theorem amendFan_keepsLimits (client : Nat) (body : List Byte) : KeepsLimits s (amendFan client body s) := by
  refine Gives.bind fun ⟨n, body⟩ _ => Gives.bind fun f _ => Gives.pure ?_
  have changed := fanField_keepsLimits (s := s) (client := client) (n := n) (f := f) body
  generalize (fanField client n f body s).2 = c at changed
  cases c with
  | error r => exact .refl s
  | ok t => exact changed t rfl

theorem lampField_keepsLimits {client n : Nat} {g : LampGroup} (body : List Byte) :
    Gives (fun p => LimitsKept s p.2) (lampField client n g body s).2 := by
  have put (x : LampGroup) : LimitsKept s (s.setLamps (s.lamps.put n x)) := .beside (by simp (disch := decide))
  have settled (x : LampGroup) : LimitsKept s (putGroup n x s) := .beside (by simp (disch := decide))
  unfold lampField
  split
  · exact Gives.bind fun _ _ => Gives.bind fun ⟨_, _⟩ _ => Gives.bind fun _ _ => Gives.pure (settled _)
  · exact Gives.bind fun _ _ => Gives.bind fun ⟨_, _⟩ _ => Gives.pure (settled _)
  · exact Gives.bind fun _ _ => Gives.bind fun ⟨_, _⟩ _ => Gives.pure (put _)
  · exact Gives.bind fun _ _ => Gives.bind fun ⟨⟨_, _⟩, _⟩ _ => Gives.pure (settled _)
  · exact Gives.bind fun _ _ => Gives.bind fun _ _ => Gives.bind fun ⟨_, _⟩ _ => Gives.bind fun _ _ =>
      Gives.pure (put _)
  · exact Gives.bind fun _ _ => Gives.bind fun _ _ => Gives.bind fun ⟨_, _⟩ _ => Gives.bind fun _ _ =>
      Gives.pure (settled _)
  · exact Gives.error _

theorem amendLamp_keepsLimits (client : Nat) (body : List Byte) : KeepsLimits s (amendLamp client body s) := by
  refine Gives.bind fun ⟨n, body⟩ _ => Gives.bind fun g _ => ?_
  have changed := lampField_keepsLimits (s := s) (client := client) (n := n) (g := g) body
  dsimp only
  split
  · next c t hc => exact Gives.pure (changed _ hc)
  · exact Gives.pure (.refl s)

theorem amendHead_keepsLimits (client : Nat) (body : List Byte) : KeepsLimits s (amendHead client body s) := by
  refine Gives.bind fun ⟨id, body⟩ _ => Gives.bind fun h _ => Gives.bind fun ⟨field, body⟩ _ => ?_
  dsimp only
  split
  · exact Gives.bind fun _ _ => Gives.bind fun ⟨_, _⟩ _ => Gives.bind fun _ _ =>
      Gives.pure (.beside (by simp (disch := decide)))
  · exact Gives.bind fun _ _ => Gives.bind fun ⟨_, _⟩ _ => Gives.bind fun _ _ => Gives.bind fun _ _ =>
      Gives.pure (.configureHead _ _ _ _ s)
  · exact Gives.error _

theorem serveAmend_keepsLimits (client : Nat) (body : List Byte) (s : State) :
    LimitsKept s (serveAmend client body s).2 := by
  refine .served (Gives.bind fun ⟨cls, body⟩ _ => ?_)
  dsimp only
  unfold amendClass
  split
  · exact amendZone_keepsLimits _ _
  · exact amendBay_keepsLimits _ _
  · exact amendBaySettings_keepsLimits _ _
  · exact Gives.bind fun ⟨_, _⟩ _ => Gives.bind fun _ _ => Gives.error _
  · exact Gives.error _
  · exact amendPassage_keepsLimits _ _
  · exact amendPassageSettings_keepsLimits _ _
  · exact amendSign_keepsLimits _ _
  · exact amendPattern_keepsLimits _ _
  · exact amendEvaluator_keepsLimits _ _
  · exact amendFan_keepsLimits _ _
  · exact amendFanDrive_keepsLimits _ _
  · exact amendLamp_keepsLimits _ _
  · exact amendLampControl_keepsLimits _ _
  · exact Gives.bind fun ⟨_, _⟩ _ => Gives.bind fun _ _ => Gives.error _
  · exact Gives.error _
  · exact amendQuiet_keepsLimits _ _
  · exact amendHead_keepsLimits _ _
  · exact amendLanePoller_keepsLimits _ _
  · exact amendClient_keepsLimits _ _
  · exact amendAttention_keepsLimits _ _
  · exact Gives.error _

/-! ### CONFIGURE -/

theorem configureZone_keepsLimits (body : List Byte) : KeepsLimits s (configureZone body s) := by
  refine Gives.bind fun ⟨n, body⟩ _ => Gives.bind fun _ hdev => Gives.bind fun _ _ => ?_
  have unconfigured := needUnconfigured_ok hdev
  exact Gives.ite (fun _ => Gives.bind fun z _ => Gives.pure (.removeZone n z unconfigured)) fun _ =>
    Gives.bind fun ⟨_, _⟩ _ => Gives.bind fun _ _ => Gives.bind fun _ _ => Gives.pure (.setZoneConfig n _ unconfigured)

theorem configureBay_keepsLimits (body : List Byte) : KeepsLimits s (configureBay body s) :=
  Gives.bind fun ⟨⟨_, _⟩, _⟩ _ => Gives.bind fun _ _ => Gives.bind fun ⟨g, _⟩ _ => Gives.bind fun ⟨_, _⟩ _ =>
    Gives.bind fun _ _ => Gives.bind fun _ _ => Gives.bind fun _ _ => Gives.pure (.changeBay g fun _ _ => rfl)

theorem configureBaySettings_keepsLimits (body : List Byte) : KeepsLimits s (configureBaySettings body s) :=
  Gives.bind fun _ _ => Gives.bind fun ⟨_, _⟩ _ => Gives.pure (.beside (by simp (disch := decide)))

theorem configurePassage_keepsLimits (body : List Byte) : KeepsLimits s (configurePassage body s) := by
  refine Gives.bind fun ⟨n, body⟩ _ => Gives.bind fun _ _ => Gives.bind fun _ _ => ?_
  refine Gives.ite (fun _ => Gives.bind fun _ _ => ?_) fun _ => ?_
  · exact Gives.pure (.beside (by simp (disch := decide)))
  · exact Gives.bind fun ⟨_, _⟩ _ => Gives.bind fun _ _ => Gives.bind fun _ _ =>
      Gives.pure (.beside (by simp (disch := decide)))

theorem configurePassageSettings_keepsLimits (body : List Byte) : KeepsLimits s (configurePassageSettings body s) :=
  Gives.bind fun _ _ => Gives.bind fun ⟨_, _⟩ _ => Gives.bind fun ⟨_, _⟩ _ => Gives.bind fun _ ordered =>
    Gives.pure (.setPassageSettings (require_ok.1 ordered))

theorem configureSign_keepsLimits (body : List Byte) : KeepsLimits s (configureSign body s) := by
  refine Gives.bind fun ⟨n, body⟩ _ => Gives.bind fun _ _ => Gives.bind fun _ _ => ?_
  refine Gives.ite (fun _ => Gives.bind fun _ _ => ?_) fun _ => ?_
  · exact Gives.pure (.beside (by simp (disch := decide)))
  · exact Gives.bind fun ⟨_, _⟩ _ => Gives.bind fun _ _ => Gives.pure (.beside (by simp (disch := decide)))

theorem configurePatterns_keepsLimits (body : List Byte) : KeepsLimits s (configurePatterns body s) :=
  Gives.bind fun _ _ => Gives.bind fun ⟨_, _⟩ _ => Gives.bind fun _ _ => Gives.bind fun _ _ =>
    Gives.pure (.foldl (fun u _ => setPattern_keepsLimits _ _ u) _ s)

theorem configureEvaluator_keepsLimits (body : List Byte) : KeepsLimits s (configureEvaluator body s) :=
  Gives.bind fun _ _ => Gives.bind fun ⟨_, _⟩ _ => Gives.bind fun _ ordered =>
    Gives.pure (.setAirSettings (require_ok.1 ordered))

theorem configureFan_keepsLimits (body : List Byte) : KeepsLimits s (configureFan body s) := by
  refine Gives.bind fun ⟨n, body⟩ _ => Gives.bind fun _ _ => Gives.bind fun _ _ => ?_
  refine Gives.ite (fun _ => Gives.bind fun f _ => ?_) fun _ => ?_
  · exact Gives.pure (.beside (by simp (disch := decide) [changeFans]))
  · exact Gives.bind fun ⟨⟨_, _, _⟩, _⟩ _ => Gives.bind fun _ _ =>
      Gives.pure (.beside (by simp (disch := decide) [changeFans]))

theorem configureFanDrive_keepsLimits (body : List Byte) : KeepsLimits s (configureFanDrive body s) :=
  Gives.bind fun _ _ => Gives.bind fun ⟨_, _⟩ _ => Gives.bind fun ⟨_, _⟩ _ => Gives.bind fun ⟨_, _⟩ _ =>
    Gives.pure (.beside (by simp (disch := decide)))

theorem configureLamp_keepsLimits (body : List Byte) : KeepsLimits s (configureLamp body s) := by
  refine Gives.bind fun ⟨n, body⟩ _ => Gives.bind fun _ _ => Gives.bind fun _ _ => ?_
  refine Gives.ite (fun _ => Gives.bind fun _ _ => ?_) fun _ => ?_
  · exact Gives.pure (.beside (by simp (disch := decide)))
  · exact Gives.bind fun ⟨_, _⟩ _ => Gives.bind fun _ _ => Gives.pure (.beside (by simp (disch := decide)))

theorem configureLampControl_keepsLimits (body : List Byte) : KeepsLimits s (configureLampControl body s) :=
  Gives.bind fun _ _ => Gives.bind fun ⟨_, _⟩ _ => Gives.pure (.beside (by simp (disch := decide)))

theorem configureQuiet_keepsLimits (body : List Byte) : KeepsLimits s (configureQuiet body s) :=
  Gives.bind fun _ _ => Gives.bind fun ⟨_, _⟩ _ => Gives.bind fun ⟨_, _⟩ _ =>
    Gives.pure (.beside (by simp (disch := decide)))

theorem configureHeadRecord_keepsLimits (body : List Byte) : KeepsLimits s (configureHeadRecord body s) := by
  refine Gives.bind fun ⟨id, body⟩ _ => Gives.bind fun _ _ => ?_
  refine Gives.ite (fun _ => ?_) fun _ => ?_
  · exact Gives.bind fun _ _ => Gives.bind fun _ _ => Gives.bind fun _ _ => Gives.pure (.removeHead _ _ s)
  · exact Gives.bind fun ⟨⟨_, _⟩, _⟩ _ => Gives.bind fun _ _ => Gives.bind fun _ _ =>
      Gives.pure (.configureHead _ _ _ _ s)

theorem configureLanePoller_keepsLimits (body : List Byte) : KeepsLimits s (configureLanePoller body s) :=
  Gives.bind fun _ _ => Gives.bind fun ⟨_, _⟩ _ => Gives.pure (.beside (by simp (disch := decide)))

theorem configureClient_keepsLimits (client : Nat) (body : List Byte) : KeepsLimits s (configureClient client body s) :=
  Gives.bind fun _ _ => Gives.bind fun ⟨_, _⟩ _ => Gives.bind fun _ _ => Gives.bind fun ⟨_, _⟩ _ =>
    setClientLevel_keepsLimits _ _ s

theorem configureAttention_keepsLimits (body : List Byte) : KeepsLimits s (configureAttention body s) :=
  Gives.bind fun ⟨_, _⟩ _ => Gives.bind fun _ _ => Gives.bind fun ⟨_, _⟩ _ => Gives.bind fun ⟨_, _⟩ _ =>
    setSource_keepsLimits _ _ _ s

theorem serveConfigure_keepsLimits (client : Nat) (body : List Byte) (s : State) :
    LimitsKept s (serveConfigure client body s).2 := by
  refine .served (Gives.bind fun ⟨cls, body⟩ _ => ?_)
  dsimp only
  unfold configureClass
  split
  · exact configureZone_keepsLimits _
  · exact configureBay_keepsLimits _
  · exact configureBaySettings_keepsLimits _
  · exact configurePassage_keepsLimits _
  · exact configurePassageSettings_keepsLimits _
  · exact configureSign_keepsLimits _
  · exact configurePatterns_keepsLimits _
  · exact configureEvaluator_keepsLimits _
  · exact configureFan_keepsLimits _
  · exact configureFanDrive_keepsLimits _
  · exact configureLamp_keepsLimits _
  · exact configureLampControl_keepsLimits _
  · exact configureQuiet_keepsLimits _
  · exact configureHeadRecord_keepsLimits _
  · exact configureLanePoller_keepsLimits _
  · exact configureClient_keepsLimits _ _
  · exact configureAttention_keepsLimits _
  · exact Gives.error _

end Sys2Proof.Machine
end

section
/-!
SUPPORT. Every other request, every event and the step keep the hold count, the settings in order and the fire states as
their flags (R36, R51, R93, R139).
-/
namespace Sys2Proof.Machine

variable {s t u : State}

/-! ### Holds and service (R36 to R45) -/

theorem Bay.hold_of_free {b : Bay} (h : b.category = .free) : b.hold = none := by
  cases hold : b.hold with
  | none => rfl
  | some x => simp [Bay.category, hold] at h; split at h <;> cases h

theorem LimitsKept.steers {ok : Nat → Prop} (h : Minors ok s t) (frame : SameExcept (.zones :: besideLimits) s t) :
    LimitsKept s t := .minors h (frame.mono (by decide)) (.of_frame (frame.mono (by decide)))

theorem LimitsKept.retireSteer (id : Nat) (o : SteerOutcome) (s : State) : LimitsKept s (retireSteer id o s) :=
  .steers (ok := fun _ => True) (retireSteer_minors id o s) ((retireSteer_frame (by decide) id o).2 (.refl _ s))

theorem LimitsKept.renewHold {g : Nat} (h : Nat × Nat) {b : Bay} (hb : s.bays.find g = some b) (held : b.hold.isSome = true)
    (x : Hold) : LimitsKept s (renewHold g h x s) := by
  refine (LimitsKept.changeBay g fun b' hb' => ?_).trans (.beside ((renewSteer_frame (by decide) _ _).2 (.refl _ _)))
  obtain rfl := Option.some.inj (hb.symm.trans hb')
  exact held.symm

theorem claimBay_keepsLimits {z i g : Nat} {b : Bay} (hb : s.bays.find g = some b) (configured : s.device ≠ .unconfigured)
    (x : Hold) : Gives (fun p => LimitsKept s p.2) (claimBay z i g b x s) := by
  unfold claimBay
  dsimp only
  split
  · next free =>
    refine Gives.ite (fun _ => Gives.ite (fun room => ?_) fun _ => Gives.error _) fun _ => Gives.accepted (.refl s)
    exact Gives.accepted (.makeHold hb (Bay.hold_of_free free) x room configured)
  · split
    · next hold =>
      refine Gives.ite (fun _ => Gives.accepted (.renewHold _ hb ?_ x)) fun _ => Gives.accepted (.refl s)
      rw [hold]
      rfl
    · exact Gives.accepted (.refl s)
  · exact Gives.accepted (.refl s)
  · exact Gives.accepted (.refl s)

/-- The bay that a claim of any bay takes is there and carries no hold (R38). -/
theorem claimIndex_some {r : Zone} {k : BayKind} {level i : Nat} (h : claimIndex r k level s = some i) :
    ∃ b, s.bays.find (r.config.bayBase + i) = some b ∧ b.hold = none := by
  obtain ⟨⟨j, b⟩, found, rfl⟩ := Option.map_eq_some_iff.1 h
  obtain ⟨j', _, listed⟩ := List.mem_filterMap.1 (List.mem_of_find?_eq_some found)
  obtain ⟨b', hb, ⟨⟩⟩ := Option.map_eq_some_iff.1 listed
  have claimable := List.find?_some found
  simp only [Bay.claimable, Bool.and_eq_true, decide_eq_true_eq] at claimable
  obtain ⟨⟨⟨_, free⟩, _⟩, _⟩ := claimable
  exact ⟨b, hb, Bay.hold_of_free free⟩

theorem claimAny_keepsLimits (r : Zone) (k : BayKind) (level : Nat) (x : Hold) (configured : s.device ≠ .unconfigured) :
    Gives (fun p => LimitsKept s p.2) (claimAny r k level x s) := by
  unfold claimAny
  split
  · next i hi =>
    obtain ⟨b, hb, free⟩ := claimIndex_some hi
    exact Gives.ite (fun room => Gives.accepted (.makeHold hb free x room configured)) fun _ => Gives.error _
  · exact Gives.accepted (.refl s)

theorem needBay_found {z i g : Nat} {b : Bay} (h : needBay z i s = .ok (g, b)) : s.bays.find g = some b := by
  obtain ⟨_, _, h⟩ := Check.bind_ok h
  obtain ⟨_, _, h⟩ := Check.bind_ok h
  obtain ⟨b', hb, h⟩ := Check.bind_ok h
  cases h
  exact need_ok.1 hb

theorem needClaimTarget_found {form z second i g : Nat} {b : Bay} (h : needClaimTarget form z second s = .ok (.bay i g b)) :
    s.bays.find g = some b := by
  unfold needClaimTarget at h
  split at h
  · obtain ⟨⟨g', b'⟩, hb, h⟩ := Check.bind_ok h
    cases h
    exact needBay_found hb
  · obtain ⟨_, _, h⟩ := Check.bind_ok h
    cases h
  · cases h

theorem serveClaim_keepsLimits (client : Nat) (body : List Byte) (s : State) :
    LimitsKept s (serveClaim client body s).2 := by
  refine .served (Gives.bind fun _ hd => Gives.bind fun _ _ => Gives.bind fun ⟨_, _⟩ _ => Gives.bind fun _ _ =>
    Gives.bind fun ⟨_, _⟩ _ => Gives.bind fun a ha => Gives.bind fun ⟨⟨_, _⟩, _⟩ _ => Gives.bind fun _ _ =>
      Gives.bind fun ⟨c, t⟩ hc => Gives.pure ?_)
  have configured : s.device ≠ .unconfigured := of_decide_eq_true (require_ok.1 hd)
  cases a with
  | bay i g b => exact claimBay_keepsLimits (needClaimTarget_found ha) configured _ _ hc
  | anyOf k => exact claimAny_keepsLimits _ _ _ _ configured _ hc

theorem LimitsKept.release (g : Nat) (s : State) : LimitsKept s (Machine.changeBayEnding g .released id s) :=
  .changeBayEnding g .released (fun _ h => h) s

theorem serveRelease_keepsLimits (client : Nat) (body : List Byte) (s : State) :
    LimitsKept s (serveRelease client body s).2 := by
  refine .served (Gives.bind fun ⟨⟨_, _⟩, _⟩ _ => Gives.bind fun ⟨_, _⟩ _ => Gives.bind fun ⟨_, _⟩ _ =>
    Gives.bind fun _ _ => ?_)
  exact Gives.ite (fun _ => Gives.bind fun _ _ => Gives.pure (.release _ s)) fun _ => Gives.bind fun _ _ =>
    Gives.pure (.release _ s)

theorem serveRetire_keepsLimits (client : Nat) (body : List Byte) (s : State) :
    LimitsKept s (serveRetire client body s).2 := by
  refine .served (Gives.bind fun ⟨⟨_, _⟩, _⟩ _ => Gives.bind fun ⟨_, _⟩ _ => Gives.bind fun _ _ => ?_)
  exact Gives.ite (fun _ => Gives.pure (.refl s)) fun _ =>
    Gives.pure (.changeBayEnding (f := Bay.retired s.partTime) _ .lost (fun _ h => h) s)

theorem Bay.commissioned_hold (now : Nat) (s : State) (b : Bay) : (b.commissioned now s).hold = b.hold := by
  unfold Bay.commissioned
  dsimp only
  repeat' split
  all_goals rfl

theorem serveCommission_keepsLimits (client : Nat) (body : List Byte) (s : State) :
    LimitsKept s (serveCommission client body s).2 := by
  refine .served (Gives.bind fun ⟨⟨_, _⟩, _⟩ _ => Gives.bind fun ⟨_, _⟩ _ => Gives.bind fun _ _ => ?_)
  refine Gives.ite (fun _ => Gives.pure (.refl s)) fun _ => Gives.pure (.changeBay _ fun b _ => ?_)
  rw [Bay.commissioned_hold]

/-! ### Steers (R59 to R66) -/

theorem LimitsKept.takeSlot {id : Nat} (h : takeSlot s = some (id, t)) : LimitsKept s t := by
  unfold Machine.takeSlot at h
  repeat' split at h
  all_goals cases h
  · exact .refl s
  · exact .retireSteer _ _ s

theorem DeviceState.configured_of_guides {d : DeviceState} (h : d.guides = true) : d ≠ .unconfigured := by
  rintro rfl
  cases h

theorem LimitsKept.makeHoldClaimed {r : Zone} {k : BayKind} {level i : Nat} (h : claimIndex r k level s = some i) (x : Hold)
    (room : s.holdCount < Config.holdLimit) (configured : s.device ≠ .unconfigured) :
    LimitsKept s (Machine.makeHold (r.config.bayBase + i) x s) := by
  obtain ⟨b, hb, free⟩ := claimIndex_some h
  exact .makeHold hb free x room configured

/-- A steer stored, with its place in the in-transit count where it is plain (R8). -/
theorem LimitsKept.issueSteer (id : Nat) (x : Steer) (s : State) : LimitsKept s (issueSteer id x s) := by
  have stored : LimitsKept s (s.setSteers (s.steers.put id x)) := beside (by simp (disch := decide))
  refine ite (c := x.plain = true) (stored.trans ?_) stored
  exact zones (by simp (disch := decide) [transitUp]) fun hs =>
    hs.mapWith (State.setZones_zones _ _) fun n z fits => by split <;> exact fits

theorem LimitsKept.issueKiosk {client p z id : Nat} {f : SteerFields} (configured : s.device ≠ .unconfigured) :
    LimitsKept s (issueKiosk client p f z id s).2 := by
  have issued (x : Steer) (u : State) : LimitsKept u (afterSteer p z (Machine.issueSteer id x u)) :=
    (LimitsKept.issueSteer id x u).trans (.beside ((afterSteer_frame (by decide) _ _).2 (.refl _ _)))
  unfold Machine.issueKiosk
  dsimp only
  split
  · next h =>
    obtain ⟨r, _, _, claimed, room, _, rfl⟩ := steerHold_some h
    exact (LimitsKept.makeHoldClaimed claimed _ room configured).trans (issued _ _)
  · exact issued _ s

theorem serveSteer_keepsLimits (client : Nat) (body : List Byte) (s : State) :
    LimitsKept s (serveSteer client body s).2 := by
  have full (p : Nat) (r : Passage) : LimitsKept s (steerFull p r s).2 :=
    .beside (by simp (disch := decide) [steerFull])
  refine .served (Gives.bind fun _ hg => Gives.bind fun ⟨p, _⟩ _ => Gives.bind fun r _ =>
    Gives.bind fun _ _ => Gives.bind fun ⟨f, _⟩ _ => ?_)
  have configured := DeviceState.configured_of_guides (require_ok.1 hg)
  dsimp only
  split
  · exact Gives.pure (full _ _)
  · split
    · exact Gives.pure (full _ _)
    · next id u hslot =>
      have taken : u.device = s.device := takeSlot_frame hslot .device (by decide)
      exact Gives.pure ((LimitsKept.takeSlot hslot).trans (.issueKiosk (taken ▸ configured)))

theorem LimitsKept.cancelSteer (id : Nat) (x : Steer) (s : State) : LimitsKept s (cancelSteer id x s) := by
  unfold Machine.cancelSteer
  split
  · exact .retireSteer _ _ s
  · split
    · exact .retireSteer _ _ s
    · exact .release _ s

/-! ### The other requests -/

theorem servePush_keepsLimits (client : Nat) (body : List Byte) (s : State) : LimitsKept s (servePush client body s).2 :=
  .served (Gives.bind fun _ _ => Gives.bind fun ⟨_, _⟩ _ => Gives.bind fun _ _ =>
    Gives.bind fun ⟨_, _⟩ _ => Gives.bind fun _ _ => Gives.bind fun _ _ => Gives.bind fun _ _ => Gives.bind fun _ _ =>
      Gives.bind fun _ _ => Gives.bind fun _ _ => Gives.bind fun _ _ => Gives.pure (.changeStack _ _ _ s))

theorem servePop_keepsLimits (client : Nat) (body : List Byte) (s : State) : LimitsKept s (servePop client body s).2 :=
  .served (Gives.bind fun ⟨_, _⟩ _ => Gives.bind fun _ _ => Gives.bind fun _ _ =>
    Gives.bind fun _ _ => Gives.pure (.changeStack _ _ _ s))

theorem serveDeclareFire_keepsLimits (client : Nat) (body : List Byte) (s : State) :
    LimitsKept s (serveDeclareFire client body s).2 :=
  .served (Gives.bind fun _ _ => Gives.pure
    ((LimitsKept.moveFire (move := declareMove _) _ (LimitsKept.declareMove_fits _) s).trans (.wakeEvent _ _ _)))

theorem serveClearFire_keepsLimits (client : Nat) (body : List Byte) (s : State) :
    LimitsKept s (serveClearFire client body s).2 :=
  .served (Gives.bind fun _ _ => Gives.pure (.moveFire (move := clearMove _) _ (LimitsKept.clearMove_fits _) s))

theorem serveQuiet_keepsLimits (client : Nat) (body : List Byte) (s : State) :
    LimitsKept s (serveQuiet client body s).2 :=
  .served (Gives.bind fun ⟨_, _⟩ _ => Gives.bind fun _ _ => Gives.bind fun _ _ => Gives.bind fun _ _ =>
    Gives.bind fun _ _ => Gives.bind fun _ _ => Gives.pure (.takeQuiet _ s))

theorem serveWake_keepsLimits (client : Nat) (body : List Byte) (s : State) : LimitsKept s (serveWake client body s).2 := by
  unfold serveWake
  split
  · exact .wakeEvent _ _ s
  · exact .refl s
  · exact .refl s

theorem serveFetch_keepsLimits (client : Nat) (body : List Byte) (s : State) :
    LimitsKept s (serveFetch client body s).2 := by
  unfold serveFetch
  split
  · exact .refl s
  · exact .beside (by simp (disch := decide))

theorem serveGo_keepsLimits (client : Nat) (body : List Byte) (s : State) : LimitsKept s (serveGo client body s).2 := by
  unfold serveGo
  split
  · exact .refl s
  · split
    · exact .refl s
    · exact .start s

theorem serveRestart_keepsLimits (client : Nat) (body : List Byte) (s : State) :
    LimitsKept s (serveRestart client body s).2 := by
  unfold serveRestart
  split
  · exact .refl s
  · exact .softRestart s

/-- A request keeps what its serving rule keeps: reading a frame and answering one write the two buffers alone (R179). -/
theorem LimitsKept.request {m : Option Nat} {rule : Rule} {c : Byte} {g : Half} {b : List Byte}
    (h : LimitsKept (received b s) (rule c.toNat b (received b s)).2) : LimitsKept s (request m rule c g b s) := by
  have readOut_ (n : Nat) (r : List Byte) : LimitsKept s (readOut n r s) := by
    unfold readOut
    dsimp only
    split <;> exact .beside (by simp (disch := decide))
  have respond_ (r : Reply) (u : State) : LimitsKept u (respond g r u) := .beside (by simp (disch := decide) [respond])
  have received_ : LimitsKept s (received b s) := .beside (by simp (disch := decide) [received])
  unfold Machine.request
  split
  · exact readOut_ _ _
  · dsimp only
    split
    · exact received_
    · split
      · exact received_.trans (respond_ _ _)
      · split
        · exact received_.trans (respond_ _ _)
        · exact (received_.trans h).trans (respond_ _ _)

/-! ### The events -/

theorem LimitsKept.raise (n : Nat) (zones : List Nat) (detail : List Byte) (s : State) : LimitsKept s (raise n zones detail s) :=
  .beside ((raise_frame (by decide) _ _ _).2 (.refl _ s))

theorem LimitsKept.quietInChange (asserted : Bool) (s : State) :
    LimitsKept s (if asserted = s.quiet.line then s else if asserted then quietInRises s else quietInFalls s) := by
  have line (q : Quiet) : LimitsKept s (s.setQuiet q) := beside (by simp (disch := decide))
  refine ite (refl s) (ite ?_ ?_)
  · unfold quietInRises
    dsimp only
    split
    · exact (line _).trans (.beside ((raiseQuietChange_frame (by decide) _ _).2 (.refl _ _)))
    · exact line _
  · unfold quietInFalls
    dsimp only
    split
    · exact (line _).trans (.wakeEvent _ _ _)
    · exact line _

theorem LimitsKept.when (c : Prop) [Decidable c] (h : LimitsKept s t) : LimitsKept s (if c then t else s) := .ite h (.refl s)

theorem exec_keepsLimits {c : Instr} (h : exec c s = .next t) : LimitsKept s t := by
  have aside {v : State} (same : SameExcept besideLimits s v) : LimitsKept s v := .beside same
  cases c with
  | stackEntryExpiry zone position =>
    cases h
    split
    · exact .refl s
    · split
      · exact .refl s
      · split
        · exact .refl s
        · exact .when _ ((LimitsKept.changeStack _ _ _ s).trans (.raise _ _ _ _))
  | identify client tag body => cases h; exact .request (.refl _)
  | look client tag body => cases h; exact .request (.refl _)
  | amend client tag body => cases h; exact .request (serveAmend_keepsLimits _ _ _)
  | claim client tag body => cases h; exact .request (serveClaim_keepsLimits _ _ _)
  | release client tag body => cases h; exact .request (serveRelease_keepsLimits _ _ _)
  | retire client tag body => cases h; exact .request (serveRetire_keepsLimits _ _ _)
  | commission client tag body => cases h; exact .request (serveCommission_keepsLimits _ _ _)
  | steer client tag body => cases h; exact .request (serveSteer_keepsLimits _ _ _)
  | cancelSteer client tag body =>
    cases h
    exact .request (.served (Gives.bind fun ⟨_, _⟩ _ => Gives.bind fun _ _ => Gives.pure (.cancelSteer _ _ _)))
  | push client tag body => cases h; exact .request (servePush_keepsLimits _ _ _)
  | pop client tag body => cases h; exact .request (servePop_keepsLimits _ _ _)
  | declareFire client tag body => cases h; exact .request (serveDeclareFire_keepsLimits _ _ _)
  | clearFire client tag body => cases h; exact .request (serveClearFire_keepsLimits _ _ _)
  | quiet client tag body => cases h; exact .request (serveQuiet_keepsLimits _ _ _)
  | wake client tag body => cases h; exact .request (serveWake_keepsLimits _ _ _)
  | fetch client tag body => cases h; exact .request (serveFetch_keepsLimits _ _ _)
  | fetchDone client tag body =>
    cases h
    exact .request (.beside (by simp (disch := decide) [serveFetchDone]))
  | configure client tag body => cases h; exact .request (serveConfigure_keepsLimits _ _ _)
  | go client tag body => cases h; exact .request (serveGo_keepsLimits _ _ _)
  | restart client tag body => cases h; exact .request (serveRestart_keepsLimits _ _ _)
  | requestKindUnknown client kind tag body => cases h; exact .request (.refl _)
  | discardedFrame mosi =>
    cases h
    refine aside ?_
    dsimp only [readOut]
    repeat' split
    all_goals simp (disch := decide)
  | readTransfer clocks =>
    cases h
    refine aside ?_
    dsimp only [readOut]
    repeat' split
    all_goals simp (disch := decide)
  | coldReset cause => cases h; exact .coldReset cause s
  | partTimeTick => cases h; exact aside (by simp (disch := decide))
  | fireLineChange asserted => cases h; exact aside (by simp (disch := decide))
  | fireLineActivation => cases h; exact .when _ (.activateFire s)
  | fireLineRelease => cases h; exact .when _ (.releaseFire s)
  | quietInChange asserted => cases h; exact .quietInChange asserted s
  | airEvaluation => cases h; exact .when _ (.airEvaluation s)
  | holdExpiry bay =>
    cases h
    split
    · exact .refl s
    · exact .when _ (.changeBayEnding (f := id) _ .expired (fun _ h => h) s)
  | steerExpiry steer =>
    cases h
    split
    · exact .refl s
    · exact .when _ ((LimitsKept.retireSteer _ _ s).trans (.raise _ _ _ _))
  | kioskWaitExpiry passage => cases h; exact aside (by simp (disch := decide))
  | showUntil sign => cases h; exact aside (by simp (disch := decide))
  | startEnds fan =>
    cases h
    split
    · exact .refl s
    · exact .when _ (aside (by simp (disch := decide)))
  | rundownEnds fan =>
    cases h
    split
    · exact .refl s
    · exact .when _ (aside (by simp (disch := decide)))
  | brightUntil group =>
    cases h
    split
    · exact .refl s
    · exact .when _ (aside (by simp (disch := decide)))
  | warmUntil => cases h; exact .endWarming s
  | lostTimeReached segment address =>
    cases h
    split
    · exact .refl s
    · exact .when _ (.loseHead _ _ _ s)
  | pollBuild segment =>
    cases h
    split
    · exact .refl s
    · exact aside (by simp (disch := decide))
  | responseAccepted segment bytes =>
    cases h
    split
    · exact .refl s
    · split
      · exact aside (by simp (disch := decide))
      · exact .endExchange _ _ (fun u => .answerHead _ _ _ u) s
  | miss segment =>
    cases h
    split
    · exact .refl s
    · exact .endExchange _ _ (fun u => .missHead _ _ u) s
  | sweepResume segment => cases h; exact .when _ (aside (by simp (disch := decide)))
  | startupSweepBegin segment => cases h; exact .when _ (aside (by simp (disch := decide)))

theorem step_keepsLimits (h : step s = .next t) : LimitsKept s t := by
  rcases step_next h with ⟨_, rfl⟩ | ⟨c, rest, _, h⟩
  · exact .refl t
  · have taken : LimitsKept s (s.setPending rest) := .beside (by simp (disch := decide))
    exact taken.trans (exec_keepsLimits h)

end Sys2Proof.Machine

open Sys2Proof Sys2Proof.Machine

/-- Settles O60: each operation that makes or ends a hold moves the count with the bay's record, the settings are checked
for their order before they are stored, and a fire state moves with its flags. -/
theorem limitsAndOrdersAreKept : Obligations.LimitsAndOrdersAreKept := by
  intro s t h
  obtain ⟨⟨limit, counted⟩, settings, fire⟩ := step_keepsLimits h
  exact ⟨fun ⟨hl, ho⟩ => ⟨limit hl, settings ho⟩, counted, fire⟩
end

section
/-!
SUPPORT. A state whose steer table is not canonical: two steers stand under one id, first a plain steer to zone 0, then the
held steer of its one bay. The end of the bay's hold finds the held steer by its hold bay and retires it by its id (R43,
R63), which takes the plain steer, so that the zone's in-transit count falls too. The statements refuted below claim the
zone's record after the end of a hold for every steer table. Over a canonical one `changeBayEnding_holdEnded` has it.
-/
namespace Sys2Proof.Machine

/-- The hold of client 0 with tag 7 until 50. -/
def strayHold : Hold := { client := 0, tag := 7, expiry := 50 }

/-- A held bay whose arrival waits to settle since 0. -/
def strayBay : Bay where
  kind := .standard
  binding := none
  service := .inService
  locked := false
  sense := .sensed
  occupancy := .arriving
  pendingSince := some 0
  lastChange := 0
  hold := some strayHold

/-- An open zone of that one bay, with one plain steer on its way. -/
def strayZone : Zone :=
  { Zone.fresh
      { level := 1, bayBase := 0, bayCount := 1, airHeads := [], travelTime := 180, baseStep := 1, quietBase := 0,
        blindStep := 2, longAllowed := false, fireGroup := true, haltRole := false } with
    guidance := .opened
    counts :=
      { Counts.zero with standard := { free := 0, occupied := 0, held := 1, unavailable := 0, inTransit := 1 } } }

/-- A steer to zone 0 with the hold bay given. -/
def straySteer (holdBay : Option (Nat × Nat)) : Steer where
  state := .inTransit
  origin := 0
  kind := .standard
  long := false
  vclass := .car
  target := 0
  firstTarget := none
  issued := 0
  deadline := 500
  holdBay := holdBay

/-- The state at part time 100: a plain steer and the held steer of bay 0 both stand under id 0. -/
def strayState : State :=
  { State.reset with
    partTime := 100
    device := .running
    zones := [(0, strayZone)]
    bays := [(0, strayBay)]
    holdCount := 1
    steers := [(0, straySteer none), (0, straySteer (some (0, 0)))] }

theorem strayState_names : Names strayState 0 0 0 strayZone strayBay := by
  refine ⟨?_, ?_, rfl, ?_, rfl, ?_, rfl⟩ <;> decide

theorem strayState_steers_wf : strayState.steers.wf = false := by decide

/-- The in-transit count of zone 0's standard bays. -/
def transitOfZone0 (s : State) : Option Nat := (s.zone 0).map fun z => z.counts.standard.inTransit

/-- A RELEASE of bay 0 takes the plain steer of the same id off the in-transit count. -/
theorem stray_release {t : State} (h : exec (.release 0 0 (number 1 0 ++ number 1 0 ++ halfBytes 7)) strayState = .next t) :
    transitOfZone0 t = some 0 := by
  cases h
  decide

theorem stray_retire {t : State} (h : exec (.retire 0 0 (number 1 0 ++ number 1 0)) strayState = .next t) :
    transitOfZone0 t = some 0 := by
  cases h
  decide

theorem stray_holdExpiry {t : State} (h : exec (.holdExpiry 0) strayState = .next t) : transitOfZone0 t = some 0 := by
  cases h
  decide

theorem stray_arrival : transitOfZone0 (applyRaw 0 .present strayState) = some 0 := by decide

/-- No record of zone 0 that keeps its in-transit count is the one after those events. -/
theorem transitOfZone0_kept {t : State} {y : Zone} (after : transitOfZone0 t = some 0) (zone : t.zone 0 = some y)
    (kept : y.counts.standard.inTransit = 1) : False := by
  rw [transitOfZone0, zone, Option.map_some, kept] at after
  cases after

end Sys2Proof.Machine

open Sys2Proof Sys2Proof.Machine

/-- Refutes O22: in a state whose steer table holds two steers under one id, the RELEASE of a hold retires the plain steer
that stands first under the held steer's id, and the zone's record has its in-transit count one lower. -/
theorem not_releaseEndsAHold : ¬ Obligations.ReleaseEndsAHold := by
  intro h
  have reaches : Reaches 2 0 (number 1 0 ++ number 1 0 ++ halfBytes 7) strayState := by
    refine ⟨rfl, ?_, ?_, ?_⟩ <;> decide
  obtain ⟨_, held⟩ := h 0 0 7 0 0 0 strayZone strayBay strayState reaches strayState_names
  obtain ⟨_, _, ended⟩ := held strayHold rfl
  obtain ⟨t, step, _, ⟨_, _, _, zone, _⟩, _⟩ := ended (.inl ⟨rfl, rfl⟩) rfl
  exact transitOfZone0_kept (stray_release step) zone rfl

/-- Refutes O23: in a state whose steer table holds two steers under one id, the expiry of a hold retires the plain steer
that stands first under the held steer's id, and the zone's record has its in-transit count one lower. -/
theorem not_aHoldExpiresAtItsUntil : ¬ Obligations.AHoldExpiresAtItsUntil := by
  rintro ⟨h, _⟩
  obtain ⟨_, expires⟩ := h 0 0 0 strayZone strayBay strayHold strayState strayState_names rfl
  obtain ⟨t, step, _, _, _, _, zone, _⟩ := expires (by decide) rfl (.inr rfl)
  exact transitOfZone0_kept (stray_holdExpiry step) zone rfl

/-- Refutes O24: in a state whose steer table holds two steers under one id, the RETIRE of a held bay retires the plain steer
that stands first under the held steer's id, and the zone's record has its in-transit count one lower. -/
theorem not_retireTakesABayOut : ¬ Obligations.RetireTakesABayOut := by
  intro h
  have reaches : Reaches 1 0 (number 1 0 ++ number 1 0) strayState := by
    refine ⟨rfl, ?_, ?_, ?_⟩ <;> decide
  obtain ⟨_, _, _, ended⟩ := h 0 0 0 0 0 strayZone strayBay strayState reaches strayState_names
  obtain ⟨t, step, _, ⟨_, _, _, zone, _⟩, _⟩ := ended (.inl rfl) rfl
  exact transitOfZone0_kept (stray_retire step) zone rfl

/-- Refutes O26: in a state whose steer table holds two steers under one id, the arrival at a held bay retires the plain
steer that stands first under the held steer's id, and the zone's record has its in-transit count one lower. -/
theorem not_aSensorChangeWaitsToSettle : ¬ Obligations.ASensorChangeWaitsToSettle := by
  rintro ⟨_, h⟩
  obtain ⟨_, _, _, _, settles⟩ := h 0 0 0 strayZone strayBay strayState strayState_names
  obtain ⟨arrives, _⟩ := settles 0 rfl rfl rfl (by decide)
  obtain ⟨_, _, held, _⟩ := arrives rfl
  obtain ⟨_, _, zone, _⟩ := held strayHold rfl
  exact transitOfZone0_kept stray_arrival zone rfl
end

section
/-!
SUPPORT. COMMISSION (R45): what a head's last report says of a sensor, and the bay it leaves.
-/
namespace Sys2Proof.Machine

variable {s t u : State}

/-! ### The last report of a sensor (R27, R32) -/

theorem Raw.ofPayload_vacant {payload : List Byte} {n : Nat} (h : payload[n]? = some 0x00) :
    Raw.ofPayload payload n = .vacant := by
  rw [Raw.ofPayload, h]
  rfl

theorem Raw.ofPayload_present {payload : List Byte} {n : Nat} (h : payload[n]? = some 0x01) :
    Raw.ofPayload payload n = .present := by
  rw [Raw.ofPayload, h]
  rfl

/-- Any other byte, or none, is a fault (R27). -/
theorem Raw.ofPayload_fault {payload : List Byte} {n : Nat} (h0 : payload[n]? ≠ some 0x00) (h1 : payload[n]? ≠ some 0x01) :
    Raw.ofPayload payload n = .fault := by
  unfold Raw.ofPayload
  split
  · rfl
  · next b hb =>
    rw [hb] at h0 h1
    rw [Raw.ofByte, if_neg fun e => h0 (congrArg some e), if_neg fun e => h1 (congrArg some e)]

theorem lastRaw_reported {x : Binding} {h : Head} {y : HeadReport} (found : s.head x.segment x.address = some h)
    (kind : h.kind = .bay) (answers : h.state = .live ∨ h.state = .silent) (report : h.report = some y) :
    lastRaw x s = some (Raw.ofPayload y.payload x.sensor) := by
  have reports : (h.kind = .bay && (h.state = .live || h.state = .silent)) = true := by simp [kind, answers]
  simp only [lastRaw, found]
  rw [if_pos reports, report, Option.map_some]

theorem lastRaw_none {x : Binding} {h : Head} (found : s.head x.segment x.address = some h)
    (unreported : h.state = .listed ∨ h.state = .lost ∨ h.state = .mismatch ∨ h.report = none) : lastRaw x s = none := by
  rcases unreported with e | e | e | e <;> simp [lastRaw, found, e]

/-! ### A bay commissioned (R45) -/

/-- COMMISSION writes service, sense, occupancy, pending change and last change. -/
theorem Bay.commissioned_eq (now : Nat) (s : State) (b : Bay) : b.commissioned now s =
    { b with service := .inService, pendingSince := none, lastChange := now, sense := (b.commissioned now s).sense,
             occupancy := (b.commissioned now s).occupancy } := by
  unfold Bay.commissioned
  dsimp only
  repeat' split
  all_goals rfl

theorem Bay.commissioned_sensorless (now : Nat) (s : State) {b : Bay} (h : b.binding = none) :
    (b.commissioned now s).sense = .sensed ∧ (b.commissioned now s).occupancy = b.occupancy := by
  simp [Bay.commissioned, h]

/-- Sense and occupancy of a bound bay as its head's last report has its sensor (R32, R45). -/
def Bay.senseOf (b : Bay) : Option Raw → Sense × Occupancy
  | some .vacant => (.sensed, .vacant)
  | some .present => (.sensed, .present)
  | some .fault => (.fault, b.occupancy)
  | none => (.unsensed, b.occupancy)

theorem Bay.commissioned_bound (now : Nat) (s : State) {b : Bay} {x : Binding} (h : b.binding = some x) :
    ((b.commissioned now s).sense, (b.commissioned now s).occupancy) = b.senseOf (lastRaw x s) := by
  unfold Bay.commissioned
  simp only [h]
  split
  all_goals
    next last =>
    rw [last]
    rfl

/-! ### The request -/

theorem reads_handle {z i : Nat} (hz : z < 256) (hi : i < 256) : Reads readHandle (number 1 z ++ number 1 i) (z, i) :=
  fun rest => by
    rw [List.append_assoc]
    simp only [readHandle, reads_number_one hz _, reads_number_one hi _, Option.bind_eq_bind, Option.bind_some]
    rfl

theorem Names.reads {z i g : Nat} {r : Zone} {b : Bay} (names : Names s z i g r b) :
    Reads readHandle (number 1 z ++ number 1 i) (z, i) := by
  obtain ⟨hz, hi, _⟩ := names
  exact reads_handle (by omega) hi

/-- COMMISSION of a bay out of service that is open to the client (R45). -/
theorem serveCommission_takes {client z i g : Nat} {r : Zone} {b : Bay} (names : Names s z i g r b)
    (out : b.service = .outOfService) (opened : b.locked = false ∨ s.clientLevel client = 0) :
    serveCommission client (number 1 z ++ number 1 i) s =
      ({ result := .done, detail := 0, body := [0x01] }, changeBay g (Bay.commissioned s.partTime s) s) := by
  have lock : (!b.locked || decide (s.clientLevel client = 0)) = true := by simpa using opened
  rw [serveCommission, names.reads.fields_last, Check.ok_bind]
  simp only [needBay_names names, Check.ok_bind, lock, require_true, out]
  rfl

/-- A zone with a bay moved between categories differs in its counts alone. -/
theorem Zone.recategorized_counts (k : BayKind) (a a' : Category) (y : Zone) :
    ∃ c, y.recategorized k a a' = { y with counts := c } := by
  unfold Zone.recategorized
  split
  · exact ⟨y.counts, rfl⟩
  · exact ⟨_, rfl⟩

end Sys2Proof.Machine

open Sys2Proof Sys2Proof.Machine

/-- Settles O25: the bay's record is the one that its head's last report gives, and its zone moves one bay between two
categories. -/
theorem commissionResyncsABay : Obligations.CommissionResyncsABay := by
  intro client tag z i g r b s hr names out opened
  let u := received (number 1 z ++ number 1 i) s
  let f := Bay.commissioned s.partTime u
  obtain ⟨_, _, hz, _, _, hh, hb⟩ := id names
  have written : f b = _ := Bay.commissioned_eq s.partTime u b
  have serve := serveCommission_takes (s := u) (client := client.toNat) names out opened
  have changed : SameExcept [.bays, .zones] u (changeBay g f u) := (changeBay_frame (by decide) g f).2 (.refl _ u)
  have kind : (f b).kind = b.kind := by rw [written]
  have zone (n : Nat) : (changeBay g f u).zone n = (s.zone n).map _ :=
    changeBay_zone_find (s := u) hb hh kind n
  have bays (n : Nat) : (changeBay g f u).bays.find n = if n = g then (s.bays.find n).map f else s.bays.find n :=
    changeBay_find g n f u
  refine ⟨respond tag _ (changeBay g f u), f b, congrArg Host.Outcome.next (request_of_rule hr serve),
    respond_except tag _ changed, ?_, fun n hn => ?_, fun n hn => ?_, ?_, rfl, written, Bay.commissioned_sensorless _ _,
    fun x h bound found bay => ?_⟩
  · exact (bays g).trans (by rw [if_pos rfl, hb, Option.map_some])
  · exact (bays n).trans (if_neg hn)
  · exact (zone n).trans (by simp [hn])
  · obtain ⟨c, counts⟩ := Zone.recategorized_counts b.kind b.category (f b).category r
    exact ⟨c, (zone z).trans (by rw [hz, Option.map_some, if_pos rfl, counts])⟩
  · have resynced := Bay.commissioned_bound s.partTime u bound
    refine ⟨fun y answers report => ?_, fun unreported => ?_⟩
    · rw [lastRaw_reported (s := u) found bay answers report] at resynced
      refine ⟨fun h0 => ?_, fun h1 => ?_, fun h0 h1 => ?_⟩
      · rw [Raw.ofPayload_vacant h0] at resynced
        exact Prod.mk.inj resynced
      · rw [Raw.ofPayload_present h1] at resynced
        exact Prod.mk.inj resynced
      · rw [Raw.ofPayload_fault h0 h1] at resynced
        exact Prod.mk.inj resynced
    · rw [lastRaw_none (s := u) found unreported] at resynced
      exact Prod.mk.inj resynced
end

section
/-!
SUPPORT. CONFIGURE of a settings record: each setting that is present is brought into its range, each that is absent keeps
its value, and the record's order is checked before it is stored (R26, R51, R93, R101, R120, R149, R176, R183).
-/
namespace Sys2Proof.Machine

variable {s u v : State} {client : Byte} {tag : Half}

/-! ### What a CONFIGURE answers (R183) -/

/-- A served CONFIGURE leaves the state u but for the port, and answers so. -/
def Configures (client : Byte) (tag : Half) (body : List Byte) (s u : State) (result : Result) (answer : List Byte) : Prop :=
  ∃ t, exec (.configure client tag body) s = .next t ∧ SameExcept portFields u t ∧ Answers tag result 0 answer t

theorem serveConfigure_class {cls : Nat} (h : cls < 256) (c : Nat) (rest : List Byte) (s : State) :
    serveConfigure c (number 1 cls ++ rest) s = served s (configureClass cls c rest s) := by
  rw [serveConfigure, (reads_number_one h).fields]
  rfl

/-- A CONFIGURE that its class accepts. -/
theorem configured {cls : Nat} {rest answer : List Byte} {result : Result} (small : cls < 256)
    (hr : Reaches 0 client (number 1 cls ++ rest) s)
    (rule : configureClass cls client.toNat rest (received (number 1 cls ++ rest) s) = .ok (Reply.of result answer, v)) :
    exec (.configure client tag (number 1 cls ++ rest)) s = .next (respond tag (Reply.of result answer) v) := by
  have serve : serveConfigure client.toNat (number 1 cls ++ rest) (received (number 1 cls ++ rest) s) =
      (Reply.of result answer, v) := by rw [serveConfigure_class small, rule, served_ok]
  exact congrArg Host.Outcome.next (request_of_rule hr serve)

theorem configures_of_ok {cls : Nat} {rest answer : List Byte} {result : Result} (small : cls < 256)
    (hr : Reaches 0 client (number 1 cls ++ rest) s)
    (rule : configureClass cls client.toNat rest (received (number 1 cls ++ rest) s) = .ok (Reply.of result answer, v))
    (same : SameExcept portFields u v) : Configures client tag (number 1 cls ++ rest) s u result answer :=
  ⟨_, configured small hr rule, (respond_frame (by decide) _ _).2 same, rfl⟩

/-- A refused CONFIGURE changes no record. -/
theorem configures_of_error {cls : Nat} {rest : List Byte} {result : Result} (small : cls < 256)
    (hr : Reaches 0 client (number 1 cls ++ rest) s)
    (rule : configureClass cls client.toNat rest (received (number 1 cls ++ rest) s) = .error (Reply.refuse result)) :
    Configures client tag (number 1 cls ++ rest) s s result [] :=
  answered_unchanged hr (by rw [serveConfigure_class small, rule, served_error]; rfl)

/-! ### A setting that may be absent (R4) -/

/-- The value that a setting takes: its own where it is absent, the one given, brought into its range, where it is not. -/
def settingValue (lo hi old : Nat) (v : Option Nat) : Nat :=
  match v with
  | none => old
  | some x => max lo (min hi x)

/-- The value given lies outside the setting's range. -/
def settingOut (lo hi : Nat) (v : Option Nat) : Bool := v.any fun x => decide (x < lo ∨ hi < x)

/-- The value given fits its field. -/
def SettingFits (w : Nat) (v : Option Nat) : Prop := ∀ x, v = some x → x < 256 ^ w

theorem clampedOr_eq {lo hi : Nat} (range : lo ≤ hi) (old : Nat) (v : Option Nat) :
    clampedOr (clampTo lo hi) old v = (settingValue lo hi old v, settingOut lo hi v) := by
  cases v with
  | none => rfl
  | some x =>
    have moved : (max lo (min hi x) ≠ x) = (x < lo ∨ hi < x) := propext (by omega)
    simp only [clampedOr, clamped, clampTo_eq range, moved]
    rfl

theorem reads_byteSetting {v : Option Nat} (h : SettingFits 1 v) : Reads (readOpt readU8) (optBytes (number 1) v) v :=
  reads_optBytes fun x hx => reads_number_one (h x hx)

theorem reads_pairSetting {v : Option Nat} (h : SettingFits 2 v) : Reads (readOpt readU16) (optBytes (number 2) v) v :=
  reads_optBytes fun x hx => reads_number_two (h x hx)

/-! ### A settings record -/

/-- The rule of a settings record: UNCONFIGURED alone, the settings in order, and CLAMPED where one was brought in. -/
def settingsRule (s : State) (ordered outside : Bool) (t : State) : Check Served := do
  needUnconfigured s
  require ordered .combination
  return (Reply.clampedIf outside [], t)

/-- What O9 says of a settings record. -/
def TakesSettings (client : Byte) (tag : Half) (s : State) (body : List Byte) (ordered : Prop) (outside : Bool) (u : State) :
    Prop :=
  Reaches 0 client body s →
    (s.device ≠ .unconfigured → Configures client tag body s s .notNow []) ∧
    (s.device = .unconfigured →
      (ordered → Configures client tag body s u (if outside = true then .clamped else .done) []) ∧
      (¬ordered → Configures client tag body s s .combination []))

/-- A class whose rule is that of a settings record takes its settings. -/
theorem takesSettings {cls : Nat} {body rest : List Byte} {ordered : Prop} {fits outside : Bool} {u : State}
    (shape : body = number 1 cls ++ rest)
    (rule : configureClass cls client.toNat rest (received body s) =
      settingsRule (received body s) fits outside (received body u))
    (order : fits = true ↔ ordered) (small : cls < 256 := by decide) :
    TakesSettings client tag s body ordered outside u := by
  subst shape
  intro hr
  rw [settingsRule, needUnconfigured, show (received (number 1 cls ++ rest) s).device = s.device from rfl] at rule
  refine ⟨fun late => ?_, fun idle => ⟨fun ord => ?_, fun ord => ?_⟩⟩
  · rw [decide_eq_false late, require_false, Check.error_bind] at rule
    exact configures_of_error small hr rule
  · rw [decide_eq_true idle, require_true, Check.ok_bind, order.2 ord, require_true, Check.ok_bind] at rule
    exact configures_of_ok small hr rule (by simp (disch := decide))
  · rw [decide_eq_true idle, require_true, Check.ok_bind, Bool.eq_false_iff.2 fun e => ord (order.1 e), require_false,
      Check.error_bind] at rule
    exact configures_of_error small hr rule

/-! ### The records class by class -/

theorem configureClass_baySettings {a : Option Nat} (ha : SettingFits 1 a) (c : Nat) (s : State) :
    configureClass 0x03 c (optBytes (number 1) a) s =
      settingsRule s true (settingOut 2 60 a) (s.setSettleTime (settingValue 2 60 s.settleTime a)) := by
  have settle : clampedOr clampSettle s.settleTime a = _ := clampedOr_eq (lo := 2) (hi := 60) (by decide) _ a
  simp only [configureClass, configureBaySettings, (reads_byteSetting ha).fields_last, Check.ok_bind, settle]
  rfl

theorem configureClass_passageSettings {a b : Option Nat} (ha : SettingFits 2 a) (hb : SettingFits 2 b) (c : Nat)
    (s : State) :
    let n : PassageSettings :=
      { carLimit := settingValue 200 1500 s.passageSettings.carLimit a
        vanLimit := settingValue 200 3000 s.passageSettings.vanLimit b }
    configureClass 0x07 c (optBytes (number 2) a ++ optBytes (number 2) b) s =
      settingsRule s n.ordered (settingOut 200 1500 a || settingOut 200 3000 b) (s.setPassageSettings n) := by
  have car : clampedOr clampCar s.passageSettings.carLimit a = _ := clampedOr_eq (lo := 200) (hi := 1500) (by decide) _ a
  have van : clampedOr clampVan s.passageSettings.vanLimit b = _ := clampedOr_eq (lo := 200) (hi := 3000) (by decide) _ b
  simp only [configureClass, configurePassageSettings, (reads_pairSetting ha).fields, (reads_pairSetting hb).fields_last,
    Check.ok_bind, car, van]
  rfl

theorem configureClass_fanDrive {a b d : Option Nat} (ha : SettingFits 1 a) (hb : SettingFits 1 b) (hd : SettingFits 1 d)
    (c : Nat) (s : State) :
    configureClass 0x0C c (optBytes (number 1) a ++ (optBytes (number 1) b ++ optBytes (number 1) d)) s =
      settingsRule s true (settingOut 1 4 a || settingOut 2 30 b || settingOut 5 120 d)
        (s.setFanSettings
          { startLimit := settingValue 1 4 s.fanSettings.startLimit a
            startTime := settingValue 2 30 s.fanSettings.startTime b
            minOffTime := settingValue 5 120 s.fanSettings.minOffTime d }) := by
  have limit : clampedOr clampLimit s.fanSettings.startLimit a = _ := clampedOr_eq (lo := 1) (hi := 4) (by decide) _ a
  have time : clampedOr clampStart s.fanSettings.startTime b = _ := clampedOr_eq (lo := 2) (hi := 30) (by decide) _ b
  have off : clampedOr clampOff s.fanSettings.minOffTime d = _ := clampedOr_eq (lo := 5) (hi := 120) (by decide) _ d
  simp only [configureClass, configureFanDrive, (reads_byteSetting ha).fields, (reads_byteSetting hb).fields,
    (reads_byteSetting hd).fields_last, Check.ok_bind, limit, time, off]
  rfl

theorem configureClass_lampControl {a : Option Nat} (ha : SettingFits 1 a) (c : Nat) (s : State) :
    configureClass 0x0E c (optBytes (number 1) a) s =
      settingsRule s true (settingOut 1 32 a) (s.setFaultThreshold (settingValue 1 32 s.faultThreshold a)) := by
  have threshold : clampedOr clampFault s.faultThreshold a = _ := clampedOr_eq (lo := 1) (hi := 32) (by decide) _ a
  simp only [configureClass, configureLampControl, (reads_byteSetting ha).fields_last, Check.ok_bind, threshold]
  rfl

theorem configureClass_quiet {a b : Option Nat} (ha : SettingFits 2 a) (hb : SettingFits 2 b) (c : Nat) (s : State) :
    configureClass 0x11 c (optBytes (number 2) a ++ optBytes (number 2) b) s =
      settingsRule s true (settingOut 10 600 a || settingOut 5 120 b)
        (s.setQuiet { s.quiet with keepalive := settingValue 10 600 s.quiet.keepalive a
                                   warmTime := settingValue 5 120 s.quiet.warmTime b }) := by
  have keepalive : clampedOr clampKeepalive s.quiet.keepalive a = _ := clampedOr_eq (lo := 10) (hi := 600) (by decide) _ a
  have warm : clampedOr clampWarm s.quiet.warmTime b = _ := clampedOr_eq (lo := 5) (hi := 120) (by decide) _ b
  simp only [configureClass, configureQuiet, (reads_pairSetting ha).fields, (reads_pairSetting hb).fields_last,
    Check.ok_bind, keepalive, warm]
  rfl

theorem configureClass_lanePoller {a : Option Nat} (ha : SettingFits 1 a) (c : Nat) (s : State) :
    configureClass 0x13 c (optBytes (number 1) a) s =
      settingsRule s true (settingOut 5 120 a) (s.setLostTime (settingValue 5 120 s.lostTime a)) := by
  have lost : clampedOr clampLost s.lostTime a = _ := clampedOr_eq (lo := 5) (hi := 120) (by decide) _ a
  simp only [configureClass, configureLanePoller, (reads_byteSetting ha).fields_last, Check.ok_bind, lost]
  rfl

/-! ### The evaluator's settings (R93) -/

/-- One setting of the evaluator read and taken. -/
theorem readAirSettings_cons {code w lo hi : Nat} {f : AirField} (codes : List Nat) (found : airField code = some f)
    (read : f.read = readNumber w) (clamp : f.clamp = clampTo lo hi) (own : ∀ c, f.set (f.get c) c = c) {v : Option Nat}
    (fits : SettingFits w v) (rest : List Byte) (c : AirSettings) (o : Bool) (hw : w = 1 ∨ w = 2 := by decide)
    (range : lo ≤ hi := by decide) :
    readAirSettings (code :: codes) (optBytes (number w) v ++ rest) (c, o) =
      readAirSettings codes rest (f.set (settingValue lo hi (f.get c) v) c, o || settingOut lo hi v) := by
  have reads : Reads (readOpt (readNumber w)) (optBytes (number w) v) v :=
    reads_optBytes fun x hx => reads_number hw (fits x hx)
  rw [readAirSettings, found]
  simp only [Option.bind_eq_bind, Option.bind_some, read, clamp, reads rest]
  cases v with
  | none => simp [settingValue, settingOut, own]
  | some x =>
    have moved : (max lo (min hi x) ≠ x) = (x < lo ∨ hi < x) := propext (by omega)
    simp only [clampTo_eq range, moved]
    rfl

/-- The nine settings of the evaluator in field order. -/
structure AirValues where
  watchCO : Option Nat
  actCO : Option Nat
  barCO : Option Nat
  watchNO : Option Nat
  actNO : Option Nat
  barNO : Option Nat
  coldCredit : Option Nat
  passCredit : Option Nat
  staleHold : Option Nat

namespace AirValues

/-- Each value fits its field. -/
def Fits (a : AirValues) : Prop :=
  SettingFits 2 a.watchCO ∧ SettingFits 2 a.actCO ∧ SettingFits 2 a.barCO ∧ SettingFits 2 a.watchNO ∧
    SettingFits 2 a.actNO ∧ SettingFits 2 a.barNO ∧ SettingFits 1 a.coldCredit ∧ SettingFits 1 a.passCredit ∧
    SettingFits 2 a.staleHold

/-- The bytes of the nine settings. -/
def bytes (a : AirValues) : List Byte :=
  optBytes (number 2) a.watchCO ++ (optBytes (number 2) a.actCO ++ (optBytes (number 2) a.barCO ++
    (optBytes (number 2) a.watchNO ++ (optBytes (number 2) a.actNO ++ (optBytes (number 2) a.barNO ++
      (optBytes (number 1) a.coldCredit ++ (optBytes (number 1) a.passCredit ++ optBytes (number 2) a.staleHold)))))))

/-- The settings that they give. -/
def settings (a : AirValues) (c : AirSettings) : AirSettings where
  watchCO := settingValue 5 500 c.watchCO a.watchCO
  actCO := settingValue 5 500 c.actCO a.actCO
  barCO := settingValue 5 500 c.barCO a.barCO
  watchNO := settingValue 100 10000 c.watchNO a.watchNO
  actNO := settingValue 100 10000 c.actNO a.actNO
  barNO := settingValue 100 10000 c.barNO a.barNO
  coldCredit := settingValue 0 16 c.coldCredit a.coldCredit
  passCredit := settingValue 0 8 c.passCredit a.passCredit
  staleHold := settingValue 30 600 c.staleHold a.staleHold

/-- Some value lies outside its range. -/
def out (a : AirValues) : Bool :=
  settingOut 5 500 a.watchCO || settingOut 5 500 a.actCO || settingOut 5 500 a.barCO || settingOut 100 10000 a.watchNO ||
    settingOut 100 10000 a.actNO || settingOut 100 10000 a.barNO || settingOut 0 16 a.coldCredit ||
    settingOut 0 8 a.passCredit || settingOut 30 600 a.staleHold

end AirValues

theorem readAirSettings_eq {a : AirValues} (fits : a.Fits) (c : AirSettings) :
    readAirSettings [1, 2, 3, 4, 5, 6, 7, 8, 9] a.bytes (c, false) = some (a.settings c, a.out) := by
  obtain ⟨h1, h2, h3, h4, h5, h6, h7, h8, h9⟩ := fits
  rw [AirValues.bytes, ← List.append_nil (optBytes (number 2) a.staleHold),
    readAirSettings_cons (lo := 5) (hi := 500) _ rfl rfl rfl (fun _ => rfl) h1,
    readAirSettings_cons (lo := 5) (hi := 500) _ rfl rfl rfl (fun _ => rfl) h2,
    readAirSettings_cons (lo := 5) (hi := 500) _ rfl rfl rfl (fun _ => rfl) h3,
    readAirSettings_cons (lo := 100) (hi := 10000) _ rfl rfl rfl (fun _ => rfl) h4,
    readAirSettings_cons (lo := 100) (hi := 10000) _ rfl rfl rfl (fun _ => rfl) h5,
    readAirSettings_cons (lo := 100) (hi := 10000) _ rfl rfl rfl (fun _ => rfl) h6,
    readAirSettings_cons (lo := 0) (hi := 16) _ rfl rfl rfl (fun _ => rfl) h7,
    readAirSettings_cons (lo := 0) (hi := 8) _ rfl rfl rfl (fun _ => rfl) h8,
    readAirSettings_cons (lo := 30) (hi := 600) _ rfl rfl rfl (fun _ => rfl) h9]
  rfl

theorem configureClass_evaluator {a : AirValues} (fits : a.Fits) (c : Nat) (s : State) :
    configureClass 0x0A c a.bytes s =
      settingsRule s (a.settings s.airSettings).ordered a.out (s.setAirSettings (a.settings s.airSettings)) := by
  simp only [configureClass, configureEvaluator, readAirSettings_eq fits, need_some, Check.ok_bind]
  rfl

end Sys2Proof.Machine
end

section
/-!
SUPPORT. CONFIGURE of the pattern table, of an attention source and of a client slot (R71, R182, R188), and O9.
-/
namespace Sys2Proof.Machine

variable {s u v : State} {client : Byte} {tag : Half}

/-! ### The pattern table (R71) -/

/-- Records of one form are read back from their bytes, one after another. -/
theorem reads_many {α β : Type} {r : Reader β} {bytes : α → List Byte} {x : α → β} {l : List α}
    (h : ∀ e ∈ l, Reads r (bytes e) (x e)) : Reads (readMany r l.length) (l.flatMap bytes) (l.map x) := by
  induction l with
  | nil => exact fun _ => rfl
  | cons e l ih =>
    intro rest
    have first := h e List.mem_cons_self
    have others := ih fun e' he => h e' (List.mem_cons_of_mem _ he)
    rw [List.flatMap_cons, List.append_assoc, List.length_cons, readMany]
    simp only [Option.bind_eq_bind, first _, Option.bind_some, others rest]
    rfl

theorem reads_list {α β : Type} {r : Reader β} {bytes : α → List Byte} {x : α → β} {l : List α}
    (h : ∀ e ∈ l, Reads r (bytes e) (x e)) (short : l.length < 256) :
    Reads (readList r) (number 1 l.length ++ l.flatMap bytes) (l.map x) := fun rest => by
  rw [List.append_assoc, readList]
  simp only [Option.bind_eq_bind, reads_number_one short _, Option.bind_some]
  exact reads_many h rest

/-- An entry of the pattern table: code, word and flag. -/
def patternEntry (e : Nat × Half × Bool) : Nat × Pattern := (e.1, { word := e.2.1, showCount := e.2.2 })

theorem reads_patternEntry {e : Nat × Half × Bool} (h : e.1 < 256) :
    Reads readPatternEntry (number 1 e.1 ++ halfBytes e.2.1 ++ flagByte e.2.2) (patternEntry e) := fun rest => by
  rw [List.append_assoc, List.append_assoc]
  simp only [readPatternEntry, reads_number_one h _, Option.bind_eq_bind, Option.bind_some, reads_halfBytes _ _,
    reads_flagByte _ _]
  rfl

theorem setPattern_pattern (code n : Nat) (p : Pattern) (s : State) :
    (setPattern code p s).pattern n = if n = code ∧ code < 32 then p else s.pattern n := fixedAt_set _ _ _ _ _

/-- Some entries set one after another. -/
def setPatternEntries (l : List (Nat × Pattern)) (s : State) : State := l.foldl (fun s e => setPattern e.1 e.2 s) s

theorem setPatternEntries_frame (l : List (Nat × Pattern)) (s : State) :
    SameExcept [.patterns] s (setPatternEntries l s) := by
  induction l generalizing s with
  | nil => exact .refl _ s
  | cons e l ih => exact SameExcept.trans (by simp (disch := decide) [setPattern]) (ih (setPattern e.1 e.2 s))

theorem setPatternEntries_other {l : List (Nat × Pattern)} {n : Nat} (h : ∀ e ∈ l, e.1 ≠ n) (s : State) :
    (setPatternEntries l s).pattern n = s.pattern n := by
  induction l generalizing s with
  | nil => rfl
  | cons e l ih =>
    have first := h e List.mem_cons_self
    refine (ih (fun e' he => h e' (List.mem_cons_of_mem _ he)) (setPattern e.1 e.2 s)).trans ?_
    rw [setPattern_pattern, if_neg fun same => first same.1.symm]

theorem setPatternEntries_mem {l : List (Nat × Pattern)} {e : Nat × Pattern} (low : e.1 < 32)
    (nodup : (l.map Prod.fst).Nodup) (he : e ∈ l) (s : State) : (setPatternEntries l s).pattern e.1 = e.2 := by
  induction l generalizing s with
  | nil => cases he
  | cons e' l ih =>
    obtain ⟨fresh, nodup⟩ := List.nodup_cons.1 nodup
    rcases List.mem_cons.1 he with rfl | he
    · have other : ∀ q ∈ l, q.1 ≠ e.1 := fun q hq same => fresh (same ▸ List.mem_map_of_mem hq)
      refine (setPatternEntries_other other (setPattern e.1 e.2 s)).trans ?_
      rw [setPattern_pattern, if_pos ⟨rfl, low⟩]
    · exact ih nodup he _

/-- Different codes below 32 are no more than 32. -/
theorem codes_length {l : List (Nat × Half × Bool)} (low : ∀ e ∈ l, e.1 < 32) (nodup : (l.map Prod.fst).Nodup) :
    l.length ≤ 32 := by
  have within : l.map Prod.fst ⊆ List.range 32 := fun n hn => by
    obtain ⟨e, he, rfl⟩ := List.mem_map.1 hn
    exact List.mem_range.2 (low e he)
  simpa using (nodup.subperm within).length_le

theorem configureClass_patterns {l : List (Nat × Half × Bool)} (some_ : l ≠ []) (low : ∀ e ∈ l, e.1 < 32)
    (nodup : (l.map Prod.fst).Nodup) (idle : s.device = .unconfigured) (c : Nat) :
    configureClass 0x09 c
        (number 1 l.length ++ l.flatMap fun e => number 1 e.1 ++ halfBytes e.2.1 ++ flagByte e.2.2) s =
      .ok (Reply.of .done [], setPatternEntries (l.map patternEntry) s) := by
  have short := codes_length low nodup
  have read := reads_list (fun e he => reads_patternEntry ((low e he).trans (by decide))) (Nat.lt_of_le_of_lt short (by decide))
  have filled : (!(l.map patternEntry).isEmpty) = true := by simpa using some_
  have codes : ((l.map patternEntry).all fun e => decide (e.1 < 32)) = true := by
    rw [List.all_map, List.all_eq_true]
    exact fun e he => decide_eq_true (low e he)
  simp only [configureClass, configurePatterns, needUnconfigured, idle, decide_true, require_true, Check.ok_bind,
    read.fields_last, filled, codes]
  rfl

theorem configureClass_patterns_late (late : s.device ≠ .unconfigured) (c : Nat) (rest : List Byte) :
    configureClass 0x09 c rest s = .error (Reply.refuse .notNow) := by
  simp only [configureClass, configurePatterns, needUnconfigured, decide_eq_false late, require_false, Check.error_bind]

/-- CONFIGURE of the pattern table (R71). -/
theorem configures_patterns {l : List (Nat × Half × Bool)} (some_ : l ≠ []) (low : ∀ e ∈ l, e.1 < 32)
    (nodup : (l.map Prod.fst).Nodup)
    (hr : Reaches 0 client (number 1 0x09 ++ number 1 l.length ++
      l.flatMap fun e => number 1 e.1 ++ halfBytes e.2.1 ++ flagByte e.2.2) s) :
    let body := number 1 0x09 ++ number 1 l.length ++
      l.flatMap fun e => number 1 e.1 ++ halfBytes e.2.1 ++ flagByte e.2.2
    (s.device ≠ .unconfigured → Configures client tag body s s .notNow []) ∧
    (s.device = .unconfigured →
      ∃ t, exec (.configure client tag body) s = .next t ∧ SameExcept (.patterns :: portFields) s t ∧
        Answers tag .done 0 [] t ∧ (∀ e ∈ l, t.pattern e.1 = { word := e.2.1, showCount := e.2.2 }) ∧
        ∀ n, (∀ e ∈ l, e.1 ≠ n) → t.pattern n = s.pattern n) := by
  rw [List.append_assoc] at hr ⊢
  refine ⟨fun late => configures_of_error (by decide) hr (configureClass_patterns_late (s := received _ s) late _ _),
    fun idle => ?_⟩
  have set (u : State) : SameExcept [.patterns] u (setPatternEntries (l.map patternEntry) u) := setPatternEntries_frame _ u
  refine ⟨_, configured (by decide) hr (configureClass_patterns (s := received _ s) some_ low nodup idle _), ?_, rfl,
    fun e he => ?_, fun n hn => ?_⟩
  · exact (respond_except tag _ (set _)).mono (by decide)
  · refine setPatternEntries_mem (e := patternEntry e) (low e he) ?_ (List.mem_map_of_mem he) _
    rwa [List.map_map]
  · refine setPatternEntries_other (fun q hq => ?_) _
    obtain ⟨e, he, rfl⟩ := List.mem_map.1 hq
    exact hn e he

/-! ### Attention sources (R188) -/

theorem configureClass_source_refused {n : Nat} (high : 16 ≤ n) (small : n < 256) (c : Nat) (rest : List Byte) (s : State) :
    configureClass 0x15 c (number 1 n ++ rest) s = .error (Reply.refuse .range) := by
  have out : decide (n < 16) = false := decide_eq_false (by omega)
  simp only [configureClass, configureAttention, (reads_number_one small).fields, Check.ok_bind, out, require_false,
    Check.error_bind]

theorem configureClass_source {n : Nat} {level : Option Nat} (flag : Option Bool) (low : n < 16) (fits : SettingFits 1 level)
    (c : Nat) (s : State) :
    configureClass 0x15 c (number 1 n ++ (optBytes (number 1) level ++ optBytes flagByte flag)) s =
      setSource n (level.getD (s.source n).level) (flag.getD (s.source n).enabled) s := by
  have read : Reads (readOpt readFlag) (optBytes flagByte flag) flag := reads_optBytes fun b _ => reads_flagByte b
  simp only [configureClass, configureAttention, (reads_number_one (show n < 256 by omega)).fields, Check.ok_bind, low,
    decide_true, require_true, (reads_byteSetting fits).fields, read.fields_last]

/-- CONFIGURE of an attention source (R188). -/
theorem configures_source {n : Nat} {level : Option Nat} (flag : Option Bool) (small : n < 256) (fits : SettingFits 1 level)
    (hr : Reaches 0 client (number 1 0x15 ++ number 1 n ++ optBytes (number 1) level ++ optBytes flagByte flag) s) :
    let body := number 1 0x15 ++ number 1 n ++ optBytes (number 1) level ++ optBytes flagByte flag
    (16 ≤ n ∨ 3 < level.getD (s.source n).level → Configures client tag body s s .range []) ∧
    (n < 16 → level.getD (s.source n).level ≤ 3 →
      ∃ t, exec (.configure client tag body) s = .next t ∧ SameExcept (.sources :: portFields) s t ∧
        Answers tag .done 0 (number 1 (s.source n).level ++ flagByte (s.source n).enabled) t ∧
        t.source n =
          { s.source n with level := level.getD (s.source n).level, enabled := flag.getD (s.source n).enabled } ∧
        ∀ m, m ≠ n → t.source m = s.source m) := by
  simp only [List.append_assoc] at hr ⊢
  refine ⟨fun bad => configures_of_error (by decide) hr ?_, fun low within => ?_⟩
  · by_cases high : 16 ≤ n
    · exact configureClass_source_refused high small _ _ _
    · exact (configureClass_source flag (by omega) fits _ _).trans (setSource_refuses (bad.resolve_left high) _ _ _)
  · refine ⟨_, configured (by decide) hr ((configureClass_source flag low fits _ _).trans (setSource_takes within _ _ _)),
      by simp (disch := decide), rfl, ?_, fun m hm => ?_⟩
    · exact (fixedAt_set _ _ _ _ _).trans (if_pos ⟨rfl, low⟩)
    · exact (fixedAt_set _ _ _ _ _).trans (if_neg fun e => hm e.1)

/-! ### Client slots (R182) -/

/-- The bytes of a CONFIGURE of a client slot. -/
theorem clientBody_eq (slot level : Byte) :
    [0x14, slot, level] = number 1 0x14 ++ (number 1 slot.toNat ++ number 1 level.toNat) := by
  rw [number_one (by decide), number_one slot.isLt, number_one level.isLt, BitVec.ofNat_toNat, BitVec.ofNat_toNat,
    BitVec.setWidth_eq, BitVec.setWidth_eq]
  rfl

theorem configureClass_client_authority {c : Nat} (other : c ≠ 0) (rest : List Byte) (s : State) :
    configureClass 0x14 c rest s = .error (Reply.refuse .authority) := by
  simp only [configureClass, configureClient, decide_eq_false other, require_false, Check.error_bind]

theorem configureClass_client_range {slot : Nat} (high : 8 ≤ slot) (small : slot < 256) (rest : List Byte) (s : State) :
    configureClass 0x14 0 (number 1 slot ++ rest) s = .error (Reply.refuse .range) := by
  have out : decide (slot < 8) = false := decide_eq_false (by omega)
  simp only [configureClass, configureClient, decide_true, require_true, Check.ok_bind, (reads_number_one small).fields,
    out, require_false, Check.error_bind]

theorem configureClass_client {slot level : Nat} (low : slot < 8) (fits : level < 256) (s : State) :
    configureClass 0x14 0 (number 1 slot ++ number 1 level) s = setClientLevel slot level s := by
  simp only [configureClass, configureClient, decide_true, require_true, Check.ok_bind,
    (reads_number_one (show slot < 256 by omega)).fields, low, (reads_number_one fits).fields_last]

theorem setClientLevel_high {level : Nat} (high : 4 ≤ level) (slot : Nat) (s : State) :
    setClientLevel slot level s = .error (Reply.refuse .range) := by
  have out : decide (level ≤ 3) = false := decide_eq_false (by omega)
  simp only [setClientLevel, out, require_false, Check.error_bind]

theorem setClientLevel_zero {level : Nat} (low : level < 4) (s : State) :
    setClientLevel 0 level s = .error (Reply.refuse .combination) := by
  have within : level ≤ 3 := by omega
  simp [setClientLevel, within]

theorem setClientLevel_takes {slot level : Nat} (one : slot ≠ 0) (low : level < 4) (s : State) :
    setClientLevel slot level s = .ok (Reply.of .done (number 1 (s.clientLevel slot)),
      s.setClients (s.clients.setIfInBounds slot level)) := by
  have within : level ≤ 3 := by omega
  simp only [setClientLevel, within, one, ne_eq, not_false_eq_true, decide_true, require_true, Check.ok_bind]
  rfl

/-- CONFIGURE of a client slot (R182). -/
theorem configures_client (slot level : Byte) (hr : Reaches 0 client [0x14, slot, level] s) :
    (client ≠ 0 → Configures client tag [0x14, slot, level] s s .authority []) ∧
    (client = 0 → 8 ≤ slot.toNat ∨ 4 ≤ level.toNat → Configures client tag [0x14, slot, level] s s .range []) ∧
    (client = 0 → slot = 0 → level.toNat < 4 → Configures client tag [0x14, slot, level] s s .combination []) ∧
    (client = 0 → slot ≠ 0 → slot.toNat < 8 → level.toNat < 4 →
      ∃ t, exec (.configure client tag [0x14, slot, level]) s = .next t ∧ SameExcept (.clients :: portFields) s t ∧
        Answers tag .done 0 (number 1 (s.clientLevel slot.toNat)) t ∧ t.clientLevel slot.toNat = level.toNat ∧
        ∀ n, n ≠ slot.toNat → t.clientLevel n = s.clientLevel n) := by
  rw [clientBody_eq] at hr ⊢
  refine ⟨fun other => ?_, ?_, ?_, ?_⟩
  · refine configures_of_error (by decide) hr (configureClass_client_authority (fun e => other ?_) _ _)
    exact BitVec.eq_of_toNat_eq e
  · rintro rfl high
    refine configures_of_error (by decide) hr ?_
    by_cases out : 8 ≤ slot.toNat
    · exact configureClass_client_range out slot.isLt _ _
    · exact (configureClass_client (by omega) level.isLt _).trans (setClientLevel_high (high.resolve_left out) _ _)
  · rintro rfl rfl low
    exact configures_of_error (by decide) hr ((configureClass_client (by decide) level.isLt _).trans (setClientLevel_zero low _))
  · rintro rfl one slot8 low
    have one' : slot.toNat ≠ 0 := fun e => one (BitVec.eq_of_toNat_eq e)
    refine ⟨_, configured (by decide) hr ((configureClass_client slot8 level.isLt _).trans (setClientLevel_takes one' low _)),
      by simp (disch := decide), rfl, ?_, fun n hn => ?_⟩
    · exact (fixedAt_set _ _ _ _ _).trans (if_pos ⟨rfl, slot8⟩)
    · exact (fixedAt_set _ _ _ _ _).trans (if_neg fun e => hn e.1)

/-- A record whose settings stand in no order takes all of them. -/
theorem unordered : true = true ↔ True := ⟨fun _ => trivial, fun _ => rfl⟩

end Sys2Proof.Machine

open Sys2Proof Sys2Proof.Machine

/-- Settles O9: each settings record has one rule of its values and its order, and the other three classes set one slot. -/
theorem clientLevelsAreSetForClientZero : Obligations.ClientLevelsAreSetForClientZero := by
  unfold Obligations.ClientLevelsAreSetForClientZero
  refine ⟨fun client slot level tag s hr => configures_client slot level hr, fun client tag s => ?_⟩
  refine ⟨fun a ha => ?_, fun a b ha hb => ?_, fun a₁ a₂ a₃ b₁ b₂ b₃ d e h h₁ h₂ h₃ h₄ h₅ h₆ h₇ h₈ h₉ => ?_,
    fun a b d ha hb hd => ?_, fun a ha => ?_, fun a b ha hb => ?_, fun a ha => ?_, fun l some_ low nodup hr => ?_,
    fun n level flag hn hl hr => ?_⟩
  · exact takesSettings rfl (configureClass_baySettings ha _ _) unordered
  · exact takesSettings (List.append_assoc _ _ _) (configureClass_passageSettings ha hb _ _) decide_eq_true_iff
  · let a : AirValues := ⟨a₁, a₂, a₃, b₁, b₂, b₃, d, e, h⟩
    exact takesSettings (by simp only [List.append_assoc]; rfl)
      (configureClass_evaluator (a := a) ⟨h₁, h₂, h₃, h₄, h₅, h₆, h₇, h₈, h₉⟩ _ _) ordered_iff
  · exact takesSettings (by simp only [List.append_assoc]) (configureClass_fanDrive ha hb hd _ _) unordered
  · exact takesSettings rfl (configureClass_lampControl ha _ _) unordered
  · exact takesSettings (List.append_assoc _ _ _) (configureClass_quiet ha hb _ _) unordered
  · exact takesSettings rfl (configureClass_lanePoller ha _ _) unordered
  · exact configures_patterns some_ low nodup hr
  · exact configures_source flag hn hl hr
end

section
/-!
SUPPORT. A passage, record by record, whatever its kind and direction (R53 to R55, R58, R73, R74), with O27 and O34.
-/
namespace Sys2Proof.Machine

variable {s t u v : State}

/-! ### Direction, length and class (R53) -/

theorem vehicleLength_some {gap : Int} {occupancy : Nat} (spacing loopLength : Nat) (hg : gap ≠ 0) (ho : occupancy ≠ 0) :
    vehicleLength spacing loopLength gap occupancy =
      some (min 3000 (spacing * occupancy / gap.natAbs - loopLength)) := if_neg (by simp [hg, ho])

/-- The subtraction that stops at 0, and the clamp, as R53 says them of whole numbers. -/
theorem clampedLength_eq (spacing loopLength occupancy : Nat) (gap : Int) :
    ((min 3000 (spacing * occupancy / gap.natAbs - loopLength) : Nat) : Int) =
      max 0 (min 3000 ((spacing * occupancy : Int) / |gap| - loopLength)) := by
  have quotient : ((spacing * occupancy / gap.natAbs : Nat) : Int) = (spacing * occupancy : Int) / |gap| := by
    rw [Int.natCast_div, Int.natCast_mul, Int.natCast_natAbs]
  rw [← quotient]
  generalize spacing * occupancy / gap.natAbs = q
  omega

theorem vehicleClass_some (c : PassageSettings) (l : Nat) :
    vehicleClass c (some l) = if l < c.carLimit then .car else if l ≤ c.vanLimit then .van else .long := rfl

/-! ### The record and the credit of a passage (R54, R55) -/

theorem Passage.taken_eq (s : State) (gap : Int) (occupancy : Nat) (r : Passage) :
    r.taken s.partTime (passageDirection gap) (r.classOf s gap occupancy)
      (vehicleLength r.config.spacing r.config.loopLength gap occupancy) = r.passed s gap occupancy := by
  by_cases back : gap < 0
  · simp only [Passage.taken, Passage.passed, passageDirection, back, if_true]
    rfl
  · rw [passageDirection, if_neg back]
    exact r.taken_eq_passed (Int.not_lt.1 back) s occupancy

theorem creditZone_eq (c : PassageConfig) (gap : Int) : c.creditZone (passageDirection gap) = creditedZone c gap := by
  unfold passageDirection creditedZone
  by_cases back : gap < 0 <;> cases hk : c.kind <;> simp [PassageConfig.creditZone, back, hk]

/-- The part after a passage's record and credit are taken, before guidance, wake and WRONG_WAY. -/
def creditedPassage (p : Nat) (r : Passage) (gap : Int) (occupancy : Nat) (s : State) : State :=
  creditPassage (creditedZone r.config gap) (r.classOf s gap occupancy)
    (s.setPassages (s.passages.put p (r.passed s gap occupancy)))

theorem takePassage_forward {p occupancy : Nat} {gap : Int} {r : Passage} (hp : s.passages.find p = some r)
    (forward : 0 ≤ gap) :
    takePassage p gap occupancy s =
      forwardPassage p r (r.classOf s gap occupancy) (creditedPassage p r gap occupancy s) := by
  have direction : passageDirection gap = .forward := if_neg (by omega)
  have taken := r.taken_eq s gap occupancy
  rw [creditedPassage, ← creditZone_eq, ← taken, takePassage, hp, direction]
  rfl

theorem takePassage_reverse {p occupancy : Nat} {gap : Int} {r : Passage} (hp : s.passages.find p = some r)
    (back : gap < 0) :
    takePassage p gap occupancy s =
      reversePassage p r (r.classOf s gap occupancy) (creditedPassage p r gap occupancy s) := by
  have direction : passageDirection gap = .reverse := if_pos back
  have taken := r.taken_eq s gap occupancy
  rw [creditedPassage, ← creditZone_eq, ← taken, takePassage, hp, direction]
  rfl

/-- What the record and the credit of a passage leave of the records. -/
structure Credited (p : Nat) (r : Passage) (gap : Int) (occupancy : Nat) (s t : State) : Prop where
  frame : SameExcept [.passages, .zones, .lamps] s t
  own : t.passages.find p = some (r.passed s gap occupancy)
  others : ∀ m, m ≠ p → t.passages.find m = s.passages.find m
  zones : ZonesChanged (Zone.passCredited s (creditedZone r.config gap) (r.classOf s gap occupancy)) s t
  bright : Brightened (optList (creditedZone r.config gap)) s t

theorem creditedPassage_credited (p : Nat) (r : Passage) (gap : Int) (occupancy : Nat) (s : State) :
    Credited p r gap occupancy s (creditedPassage p r gap occupancy s) := by
  let s₁ := s.setPassages (s.passages.put p (r.passed s gap occupancy))
  have credited : SameExcept [.zones, .lamps] s₁ (creditedPassage p r gap occupancy s) :=
    (creditPassage_frame (by decide) _ _).2 (.refl _ s₁)
  have passages : (creditedPassage p r gap occupancy s).passages = s₁.passages := credited .passages (by decide)
  refine ⟨?_, ?_, fun m hm => ?_, creditPassage_zone _ _ s₁, creditPassage_brightened _ _ s₁⟩
  · exact SameExcept.trans ((State.setPassages_frame (by decide) _).2 (.refl _ s)) (credited.mono (by decide))
  · rw [passages]
    exact Table.find_put_same _ _ _
  · rw [passages]
    exact (Table.find_put _ _ _ _).trans (if_neg hm)

/-- What a later part of the event leaves of the records that it does not write. -/
theorem Credited.later {p : Nat} {r : Passage} {gap : Int} {occupancy : Nat} {fs : List Field}
    (h : Credited p r gap occupancy s t) (later : SameExcept fs t u) (passages : .passages ∉ fs) (zones : .zones ∉ fs) :
    u.passages.find p = some (r.passed s gap occupancy) ∧ (∀ m, m ≠ p → u.passages.find m = s.passages.find m) ∧
      ZonesChanged (Zone.passCredited s (creditedZone r.config gap) (r.classOf s gap occupancy)) s u := by
  have passages : u.passages = t.passages := later .passages passages
  have zones : u.zones = t.zones := later .zones zones
  refine ⟨passages ▸ h.own, fun m hm => passages ▸ h.others m hm, fun n => ?_⟩
  rw [State.zone, zones]
  exact h.zones n

/-! ### What a passage does beyond its credit (R55, R74, R154) -/

theorem reversePassage_ramp {p : Nat} {r : Passage} {c : VehicleClass} (h : r.config.kind = .ramp) (s : State) :
    reversePassage p r c s = s := if_pos h

theorem reversePassage_wrongWay {p : Nat} {r : Passage} {c : VehicleClass} (h : r.config.kind ≠ .ramp) (s : State) :
    reversePassage p r c s =
      raise 10 (optList (if r.config.kind = .entry then r.config.toZone else r.config.fromZone))
        (number 1 p ++ number 1 c.code) s := by
  have named : r.config.wrongWayZone = if r.config.kind = .entry then r.config.toZone else r.config.fromZone := by
    rw [PassageConfig.wrongWayZone]
    cases hk : r.config.kind
    case ramp => exact absurd hk h
    all_goals rfl
  rw [reversePassage, if_neg h, named]
  rfl

theorem forwardPassage_other {p : Nat} {r : Passage} {c : VehicleClass} (h : r.config.kind ≠ .entry) (s : State) :
    forwardPassage p r c s =
      if r.config.wakeFlag then wakeEvent .passage (optList (r.config.creditZone .forward)) s else s := by
  rw [forwardPassage, if_neg h]

theorem wakeIf_unwoken {c : Bool} {cause : WakeCause} {zs : List Nat} (h : s.device ≠ .quiet ∨ c = false) :
    (if c then wakeEvent cause zs s else s) = s := by
  rcases h with h | h
  · rw [wakeEvent_awake zs h, ite_self]
  · rw [h]
    rfl

/-- A wake taken after changes of fields that it does not read is a wake of the state before them. -/
theorem WakeTaken.of_before {cause : WakeCause} {zs : List Nat} {fs : List Field} (h : WakeTaken cause zs t u)
    (before : SameExcept fs s t) (source : t.source 15 = s.source 15)
    (kept : .quiet ∉ fs ∧ .partTime ∉ fs ∧ .heads ∉ fs) : WakeTaken cause zs s u := by
  have quiet : t.quiet = s.quiet := before .quiet kept.1
  have time : t.partTime = s.partTime := before .partTime kept.2.1
  have heads : t.heads = s.heads := before .heads kept.2.2
  unfold WakeTaken at h ⊢
  rwa [quiet, time, heads, source] at h

theorem source_of_frame {fs : List Field} (h : SameExcept fs s t) (kept : .sources ∉ fs) (n : Nat) :
    t.source n = s.source n := congrArg (fixedAt · n _) (h .sources kept)

/-! ### A forward ENTRY passage that is not guided, that uses up a kiosk wait, or that is counted full (R58, R73, R74) -/

theorem entryGuidance_unguided {p : Nat} {r : Passage} {c : VehicleClass} (h : s.device.guides = false) :
    entryGuidance p r c s = s := by
  rw [entryGuidance, h]
  rfl

theorem entryGuidance_waits {p : Nat} {r : Passage} {c : VehicleClass} (guides : s.device.guides = true)
    (wait : 0 < r.kioskWait) :
    entryGuidance p r c s = s.setPassages (s.passages.upd p fun x =>
      { x with kioskWait := x.kioskWait - 1, waitUntil := if x.kioskWait = 1 then none else x.waitUntil }) := by
  rw [entryGuidance, guides]
  simp only [Bool.not_true, Bool.false_eq_true, if_false, wait, if_true]

theorem entryGuidance_full {p : Nat} {r : Passage} {c : VehicleClass} (guides : s.device.guides = true)
    (wait : r.kioskWait = 0)
    (full : zoneChoice s r.config.preference .standard (c = .long) [] = none ∨ takeSlot s = none) :
    entryGuidance p r c s = entryFull p r s := by
  rw [entryGuidance, guides, wait]
  simp only [Bool.not_true, Bool.false_eq_true, if_false, lt_irrefl]
  split
  · rfl
  · next z hz =>
    rcases full with h | h
    · rw [h] at hz
      cases hz
    · rw [h]

theorem showFull_find (sign : Option Nat) (n : Nat) (s : State) :
    (showFull sign s).signs.find n = (s.signs.find n).map fun g =>
      if sign = some n then
        { g with shown := some { situation := 1, zone := none, expiry := s.partTime + g.config.showTime } }
      else g := by
  cases sign with
  | none => simp [showFull]
  | some m =>
    rw [showFull, setShow, State.setSigns_signs, Table.find_upd]
    by_cases e : n = m
    · simp [e]
    · simp [e, Ne.symm e]

/-- What a passage that is counted full leaves of the records (R58, R73, R74). -/
theorem entryFull_leaves (p : Nat) (r : Passage) (s : State) :
    SameExcept [.passages, .signs, .sources] s (entryFull p r s) ∧
      (∀ n, (entryFull p r s).passages.find n = (s.passages.find n).map fun q =>
        if n = p then { q with counters := { q.counters with full := q.counters.full + 1 } } else q) ∧
      (entryFull p r s).source 11 = (s.source 11).raise s.partTime (maskOf r.config.preference) (number 1 p) ∧
      (∀ n, n ≠ 11 → (entryFull p r s).source n = s.source n) ∧
      ∀ n, (entryFull p r s).signs.find n = (s.signs.find n).map fun g =>
        if r.config.entrySign = some n then
          { g with shown := some { situation := 1, zone := none, expiry := s.partTime + g.config.showTime } }
        else g := by
  let f : PassageCounters → PassageCounters := fun c => { c with full := c.full + 1 }
  let u := countPassage p f s
  let v := showFull r.config.entrySign u
  have counted : SameExcept [.passages] s u := (countPassage_frame (by decide) p f).2 (.refl _ s)
  have shown : SameExcept [.signs] u v := (showFull_frame (by decide) _).2 (.refl _ u)
  have all : SameExcept [.passages, .signs] s v := (counted.mono (by decide)).trans (shown.mono (by decide))
  have raised : SameExcept [.sources] v (entryFull p r s) := (raise_frame (by decide) 11 _ _).2 (.refl _ v)
  have time : v.partTime = s.partTime := all .partTime (by decide)
  have source (n : Nat) : (entryFull p r s).source n =
      if n = 11 then (s.source 11).raise s.partTime (maskOf r.config.preference) (number 1 p) else s.source n := by
    refine (State.source_raise 11 n r.config.preference (number 1 p) v).trans ?_
    rw [time, source_of_frame all (by decide), source_of_frame all (by decide)]
    simp only [Nat.reduceLT, and_true]
  refine ⟨(all.mono (by decide)).trans (raised.mono (by decide)), fun n => ?_, ?_, fun n hn => ?_, fun n => ?_⟩
  · have same : (entryFull p r s).passages = u.passages :=
      Eq.trans (raised .passages (by decide)) (shown .passages (by decide))
    rw [same]
    exact countPassage_find p n f s
  · rw [source, if_pos rfl]
  · rw [source, if_neg hn]
  · have signs : u.signs = s.signs := counted .signs (by decide)
    have same : (entryFull p r s).signs = v.signs := raised .signs (by decide)
    rw [same, showFull_find, signs]
    rfl

/-- Guidance at an ENTRY raises ENTRY_FULL alone (R74). -/
theorem entryGuidance_source {n : Nat} (hn : n ≠ 11) (p : Nat) (r : Passage) (c : VehicleClass) (s : State) :
    (entryGuidance p r c s).source n = s.source n := by
  have full : (entryFull p r s).source n = s.source n := (entryFull_leaves p r s).2.2.2.1 n hn
  unfold entryGuidance
  split
  · rfl
  · split
    · rfl
    · split
      · exact full
      · split
        · exact full
        · next id w slot =>
          have taken : SameExcept [.zones, .steers, .passages] s w := takeSlot_frame slot
          refine (source_of_frame (fs := [.steers, .zones, .passages, .signs, .lamps]) ?_ (by decide) n).trans
            (source_of_frame taken (by decide) n)
          exact (entryIssued r.config.entrySign p _ id (entrySteer w p _ c) w).1

/-! ### A passage taken (R53 to R55, R74, R154) -/

/-- A passage in reverse: its record and credit, and WRONG_WAY on an ENTRY or EXIT. -/
theorem takePassage_reverse_leaves {p occupancy : Nat} {gap : Int} {r : Passage} (hp : s.passages.find p = some r)
    (back : gap < 0) :
    ∃ u, Credited p r gap occupancy s u ∧ SameExcept [.sources] u (takePassage p gap occupancy s) ∧
      (r.config.kind = .ramp → takePassage p gap occupancy s = u) ∧
      (r.config.kind ≠ .ramp → ∀ n, (takePassage p gap occupancy s).source n = if n = 10 then
        (s.source 10).raise s.partTime
          (maskOf (optList (if r.config.kind = .entry then r.config.toZone else r.config.fromZone)))
          (number 1 p ++ number 1 (r.classOf s gap occupancy).code) else s.source n) := by
  have credited := creditedPassage_credited p r gap occupancy s
  have before (n : Nat) := source_of_frame credited.frame (by decide) n
  have time : (creditedPassage p r gap occupancy s).partTime = s.partTime := credited.frame .partTime (by decide)
  rw [takePassage_reverse hp back]
  refine ⟨_, credited, (reversePassage_frame (by decide) p r _).2 (.refl _ _), fun ramp => reversePassage_ramp ramp _,
    fun wrong n => ?_⟩
  rw [reversePassage_wrongWay wrong, State.source_raise, time, before, before]
  simp only [Nat.reduceLT, and_true]

/-- A forward passage of a RAMP or EXIT: its record and credit, and a wake where its wake flag is set. -/
theorem takePassage_through_leaves {p occupancy : Nat} {gap : Int} {r : Passage} (hp : s.passages.find p = some r)
    (forward : 0 ≤ gap) (other : r.config.kind ≠ .entry) :
    ∃ u, Credited p r gap occupancy s u ∧ SameExcept quietFields u (takePassage p gap occupancy s) ∧
      (s.device ≠ .quiet ∨ r.config.wakeFlag = false → takePassage p gap occupancy s = u) := by
  have credited := creditedPassage_credited p r gap occupancy s
  have device : (creditedPassage p r gap occupancy s).device = s.device := credited.frame .device (by decide)
  rw [takePassage_forward hp forward, forwardPassage_other other]
  refine ⟨_, credited, ?_, fun asleep => wakeIf_unwoken (asleep.imp_left fun awake => device ▸ awake)⟩
  split
  · exact (wakeEvent_except _ _ _).1
  · exact .refl _ _

/-- A forward passage of any kind with its wake flag set, in QUIET: the wake comes last. -/
theorem takePassage_woken {p occupancy : Nat} {gap : Int} {r : Passage} (hp : s.passages.find p = some r)
    (forward : 0 ≤ gap) (flag : r.config.wakeFlag = true) (quiet : s.device = .quiet) :
    WakeTaken .passage (optList (creditedZone r.config gap)) s (takePassage p gap occupancy s) := by
  have credited := creditedPassage_credited p r gap occupancy s
  let u := creditedPassage p r gap occupancy s
  let v := if r.config.kind = .entry then entryGuidance p r (r.classOf s gap occupancy) u else u
  obtain ⟨guided, source⟩ : SameExcept [.zones, .steers, .passages, .signs, .lamps, .sources] u v ∧
      v.source 15 = u.source 15 := by
    by_cases entry : r.config.kind = .entry
    · have hv : v = entryGuidance p r (r.classOf s gap occupancy) u := if_pos entry
      rw [hv]
      exact ⟨(entryGuidance_frame (by decide) p r _).2 (.refl _ u), entryGuidance_source (by decide) p r _ u⟩
    · have hv : v = u := if_neg entry
      rw [hv]
      exact ⟨.refl _ u, rfl⟩
  have before : SameExcept [.zones, .steers, .passages, .signs, .lamps, .sources] s v :=
    (credited.frame.mono (by decide)).trans guided
  have device : v.device = .quiet := Eq.trans (before .device (by decide)) quiet
  have direction : passageDirection gap = .forward := if_neg (by omega)
  have passed : takePassage p gap occupancy s = wakeEvent .passage (optList (creditedZone r.config gap)) v := by
    rw [takePassage_forward hp forward, forwardPassage, flag, if_pos rfl, ← creditZone_eq, direction]
  rw [passed]
  exact (wakeEvent_quiet .passage _ device).2.1.of_before before
    (source.trans (source_of_frame credited.frame (by decide) 15)) (by decide)

/-! ### A loop head's report (R52) -/

/-- The passages of a payload are read four bytes at a time. -/
theorem decodePassages_append (a b c d : Byte) : ∀ l : List Byte, l.length % 4 = 0 →
    decodePassages (l ++ [a, b, c, d]) =
      decodePassages l ++ [(decodeGap a b, min occupancyLimit (256 * c.toNat + d.toNat))]
  | [], _ => rfl
  | [_], h => by simp at h
  | [_, _], h => by simp at h
  | [_, _, _], h => by simp at h
  | w :: x :: y :: z :: l, h => by
    have rest : l.length % 4 = 0 := by
      simp only [List.length_cons] at h
      omega
    simp only [List.cons_append, decodePassages, decodePassages_append a b c d l rest]

theorem passageOf_none {i a : Nat} (h : ∀ q ∈ s.passages, q.2.config.head ≠ { segment := i, address := a }) :
    passageOf i a s = none := List.find?_eq_none.2 fun q hq => by simpa using h q hq

/-- The only record of a canonical table that passes a test is the one found by it. -/
theorem Table.find?_unique {α : Type} {l : Table α} {n : Nat} {x : α} {p : Nat × α → Bool} (wf : l.wf = true)
    (mem : (n, x) ∈ l) (hx : p (n, x) = true) (only : ∀ q ∈ l, p q = true → q.1 = n) : l.find? p = some (n, x) := by
  cases found : l.find? p with
  | none => exact absurd hx (List.find?_eq_none.1 found _ mem)
  | some q =>
    have hq := List.mem_of_find?_eq_some found
    obtain ⟨m, y⟩ := q
    obtain rfl : m = n := only _ hq (List.find?_some found)
    rw [Option.some.inj ((Table.find_of_mem wf hq).symm.trans (Table.find_of_mem wf mem))]

theorem loopReport_of_bound {i a p : Nat} {r : Passage} (h : passageOf i a s = some (p, r)) (overflow : Byte)
    (rest : List Byte) :
    loopReport i a (overflow :: rest) s = (decodePassages rest).foldl (fun s x => takePassage p x.1 x.2 s)
      (countPassage p (fun c => { c with overflow := c.overflow + overflow.zeroExtend 16 }) s) := by
  simp only [loopReport, h]

/-- Each four bytes more are one more passage, taken after those before. -/
theorem loopReport_append {i a p : Nat} {r : Passage} (h : passageOf i a s = some (p, r)) {reports : List Byte}
    (whole : reports.length % 4 = 1) (b c d e : Byte) :
    loopReport i a (reports ++ [b, c, d, e]) s =
      takePassage p (decodeGap b c) (min occupancyLimit (256 * d.toNat + e.toNat)) (loopReport i a reports s) := by
  cases reports with
  | nil => simp at whole
  | cons overflow rest =>
    have four : rest.length % 4 = 0 := by
      rw [List.length_cons] at whole
      omega
    rw [List.cons_append, loopReport_of_bound h, loopReport_of_bound h, decodePassages_append b c d e rest four,
      List.foldl_append]
    rfl

end Sys2Proof.Machine

open Sys2Proof Sys2Proof.Machine

/-- Settles O27: the natural subtraction and the clamp are those of whole numbers. -/
theorem vehicleLengthAndClass : Obligations.VehicleLengthAndClass := by
  intro spacing loopLength occupancy gap c ordered
  refine ⟨fun forward => if_neg (by omega), fun back => if_pos back, fun none_ => if_pos none_, fun hg ho =>
    ⟨_, vehicleLength_some spacing loopLength hg ho, clampedLength_eq spacing loopLength occupancy gap⟩, rfl,
    fun l => ⟨fun car => ?_, fun above van => ?_, fun above => ?_⟩⟩
  · rw [vehicleClass_some, if_pos car]
  · rw [vehicleClass_some, if_neg (by omega), if_pos van]
  · rw [vehicleClass_some, if_neg (by omega), if_neg (by omega)]

/-- Settles O34: the record and the credit first, then WRONG_WAY or the wake, over the records that these leave. -/
theorem aRampPassageCreditsItsZone : Obligations.ARampPassageCreditsItsZone := by
  unfold Obligations.ARampPassageCreditsItsZone
  refine ⟨?_, fun p r gap occupancy s hp forward flag quiet => takePassage_woken hp forward flag quiet,
    fun i a s wf => ⟨fun free payload => ?_, fun p r mem bound only => ?_⟩⟩
  · intro p r gap occupancy s hp other c z t
    by_cases back : gap < 0
    · obtain ⟨u, credited, later, ramp, wrong⟩ := takePassage_reverse_leaves (occupancy := occupancy) hp back
      obtain ⟨own, others, zones⟩ := credited.later later (by decide) (by decide)
      have lamps : t.lamps = u.lamps := later .lamps (by decide)
      refine ⟨own, others, zones, fun _ => ⟨?_, fun n => ?_, fun onRamp => ?_, fun _ wrongWay => ⟨fun n hn => ?_, ?_⟩⟩⟩
      · exact (credited.frame.mono (by decide)).trans (later.mono (by decide))
      · rw [lamps]
        exact credited.bright n
      · exact (congrArg State.sources (ramp (onRamp.resolve_left (Int.not_le.2 back)))).trans
          (credited.frame .sources (by decide))
      · exact (wrong wrongWay n).trans (if_neg hn)
      · exact wrong wrongWay 10
    · obtain ⟨u, credited, later, unwoken⟩ :=
        takePassage_through_leaves (occupancy := occupancy) hp (Int.not_lt.1 back) (other.resolve_right back)
      obtain ⟨own, others, zones⟩ := credited.later later (by decide) (by decide)
      refine ⟨own, others, zones, fun asleep => ?_⟩
      have same : t = u := unwoken (asleep.imp_right fun h => h.resolve_left back)
      rw [same]
      exact ⟨credited.frame.mono (by decide), credited.bright, fun _ => credited.frame .sources (by decide),
        fun e => absurd e back⟩
  · simp only [loopReport, passageOf_none free]
  · have found : passageOf i a s = some (p, r) := Table.find?_unique wf mem (by simpa using bound)
      fun q hq hit => only q hq (by simpa using hit)
    refine ⟨fun overflow => ?_, fun reports b c d e whole => loopReport_append found whole b c d e⟩
    rw [loopReport_of_bound found]
    exact ⟨(countPassage_frame (by decide) p _).2 (.refl _ s), fun n => countPassage_find p n _ s⟩

end

section
/-!
SUPPORT. STEER and a forward ENTRY passage that issue no steer (R58, R60, R61), and O30.
-/
namespace Sys2Proof.Machine

variable {s t u v : State}

/-- The steer table alone says whether a slot can be taken (R59). -/
theorem takeSlot_none_congr (h : takeSlot s = none) (steers : t.steers = s.steers) : takeSlot t = none := by
  cases slot : takeSlot t with
  | none => rfl
  | some q =>
    obtain ⟨_, _, taken⟩ := takeSlot_some (id := q.1) (u := q.2) slot
    obtain ⟨_, hw, _⟩ := taken s steers.symm
    rw [h] at hw
    cases hw

/-- STEER while the device guides no cars (R60). -/
theorem serveSteer_notNow {client : Nat} {body : List Byte} (h : s.device = .unconfigured ∨ s.device = .starting) :
    serveSteer client body s = (Reply.refuse .notNow, s) := by
  have guides : s.device.guides = false := by rcases h with h | h <;> rw [h] <;> rfl
  rw [serveSteer, guides, require_false, Check.error_bind, served_error]

/-- STEER where no zone is chosen, or no slot can be taken (R61). -/
theorem serveSteer_full {client p : Nat} {k : BayKind} {long wish : Bool} {h : Half} {r : Passage}
    (guides : s.device.guides = true) (lp : p < 32) (hp : s.passages.find p = some r) (entry : r.config.kind = .entry)
    (full : zoneChoice s r.config.preference k long [] = none ∨ takeSlot s = none) :
    serveSteer client (steerBody p k long wish h) s = steerFull p r s := by
  have low : p < 256 := by omega
  simp only [serveSteer, steerBody, List.append_assoc, (reads_number_one low).fields, guides, require_true,
    Check.ok_bind, needRecord_some (show p < Config.passageSlots from lp) hp, entry, decide_true,
    (reads_steer k long wish h).fields_last]
  cases hz : zoneChoice s r.config.preference k long [] with
  | none => rfl
  | some z =>
    have slot := full.resolve_left (by simp [hz])
    simp only [slot]
    rfl

/-- What a STEER that is counted full leaves of the records (R61, R74). -/
theorem steerFull_leaves {p : Nat} {r : Passage} (hp : s.passages.find p = some r) :
    SameExcept [.passages, .sources] s (steerFull p r s).2 ∧
      (steerFull p r s).2.passages.find p = some { r with counters := { r.counters with full := r.counters.full + 1 } } ∧
      (∀ m, m ≠ p → (steerFull p r s).2.passages.find m = s.passages.find m) ∧
      (steerFull p r s).2.source 11 = (s.source 11).raise s.partTime (maskOf r.config.preference) (number 1 p) ∧
      ∀ n, n ≠ 11 → (steerFull p r s).2.source n = s.source n := by
  let f : PassageCounters → PassageCounters := fun c => { c with full := c.full + 1 }
  have counted (n : Nat) : (steerFull p r s).2.passages.find n = _ := countPassage_find p n f s
  have source (n : Nat) : (steerFull p r s).2.source n = _ :=
    State.source_raise 11 n r.config.preference (number 1 p) (countPassage p f s)
  refine ⟨?_, ?_, fun m hm => ?_, (source 11).trans (if_pos ⟨rfl, by decide⟩),
    fun n hn => (source n).trans (if_neg fun e => hn e.1)⟩
  · exact (raiseEntryFull_frame (by decide) p r).2 ((countPassage_frame (by decide) p f).2 (.refl _ s))
  · rw [counted, hp]
    simp [f]
  · rw [counted]
    simp [hm]

/-- Zone choice after the credit of a passage is that of the state before it. -/
theorem Credited.zoneChoice {p : Nat} {r : Passage} {gap : Int} {occupancy : Nat} (h : Credited p r gap occupancy s t)
    (l excluded : List Nat) (k : BayKind) (long : Bool) :
    zoneChoice t l k long excluded = zoneChoice s l k long excluded := by
  refine zoneChoice_congr h.zones (fun n y k long => ?_) l excluded k long
  obtain ⟨a, e⟩ := y.passCredited_keeps s (creditedZone r.config gap) (r.classOf s gap occupancy) n
  rw [e]
  rfl

/-- A forward passage of an ENTRY passage is its record, its credit and its guidance, where no wake follows. -/
theorem takePassage_entry_guided {p occupancy : Nat} {gap : Int} {r : Passage} (hp : s.passages.find p = some r)
    (entry : r.config.kind = .entry) (forward : 0 ≤ gap) (noWake : s.device ≠ .quiet ∨ r.config.wakeFlag = false) :
    ∃ u, Credited p r gap occupancy s u ∧
      takePassage p gap occupancy s = entryGuidance p r (r.classOf s gap occupancy) u := by
  have credited := creditedPassage_credited p r gap occupancy s
  let u := creditedPassage p r gap occupancy s
  have guided : SameExcept [.zones, .steers, .passages, .signs, .lamps, .sources] u
      (entryGuidance p r (r.classOf s gap occupancy) u) := (entryGuidance_frame (by decide) p r _).2 (.refl _ u)
  have device : (entryGuidance p r (r.classOf s gap occupancy) u).device = s.device :=
    Eq.trans (guided .device (by decide)) (credited.frame .device (by decide))
  refine ⟨u, credited, ?_⟩
  rw [takePassage_forward hp forward, forwardPassage, if_pos entry]
  exact wakeIf_unwoken (noWake.imp_left fun awake => device ▸ awake)

end Sys2Proof.Machine

open Sys2Proof Sys2Proof.Machine

/-- Settles O30: STEER through its checks; a passage through the branch of guidance that its case takes. -/
theorem steerWithNoZoneIsFull : Obligations.SteerWithNoZoneIsFull := by
  unfold Obligations.SteerWithNoZoneIsFull
  refine ⟨?_, ?_⟩
  · intro client tag h p k long wish s body hr
    refine ⟨fun idle => answered_unchanged hr (serveSteer_notNow (s := received _ s) idle), ?_⟩
    intro r guiding low hp entry full
    have none_ : zoneChoice s r.config.preference k long [] = none ∨ takeSlot s = none :=
      full.imp_left zoneChoice_eq_none.2
    have serve : serveSteer client.toNat body (received body s) = steerFull p r (received body s) :=
      serveSteer_full (s := received _ s) (guides_iff.2 guiding) low hp entry
        (none_.elim (fun choice => .inl choice) fun slot => .inr (takeSlot_none_congr slot rfl))
    obtain ⟨frame, own, others, raised, quiet⟩ := steerFull_leaves (s := received body s) hp
    exact ⟨_, congrArg Host.Outcome.next (request_of_rule hr serve), respond_except tag _ frame, own, others, raised,
      quiet, rfl⟩
  · intro p gap occupancy r s hp entry forward noWake c r' t guiding full
    obtain ⟨u, credited, guided⟩ := takePassage_entry_guided (occupancy := occupancy) hp entry forward noWake
    have guided : t = entryGuidance p r c u := guided
    have zone : creditedZone r.config gap = r.config.toZone := by
      rw [creditedZone, entry]
      exact if_neg (by omega)
    have device : u.device = s.device := credited.frame .device (by decide)
    have time : u.partTime = s.partTime := credited.frame .partTime (by decide)
    have guides : guiding → u.device.guides = true := fun g => device ▸ guides_iff.2 g
    have unguided (h : ¬guiding) : t = u := guided.trans <| entryGuidance_unguided <|
      Bool.eq_false_iff.2 fun g => h (guides_iff.1 (device ▸ g))
    have waits (h : guiding) (wait : 0 < r.kioskWait) : t = u.setPassages _ :=
      guided.trans (entryGuidance_waits (guides h) wait)
    have counted (h : full) : t = entryFull p r u := by
      obtain ⟨g, wait, none_⟩ := h
      refine guided.trans (entryGuidance_full (guides g) wait (none_.imp (fun q => ?_) fun slot => ?_))
      · exact (credited.zoneChoice _ _ _ _).trans (zoneChoice_eq_none.2 q)
      · exact takeSlot_none_congr slot (credited.frame .steers (by decide))
    obtain ⟨fullFrame, fullPassages, raised, quiet, signs⟩ := entryFull_leaves p r u
    have zones := credited.zones
    have bright := credited.bright
    rw [zone] at zones bright
    refine ⟨fun h => ?_, fun h => ?_, fun h wait => ?_, fun h => ?_⟩
    · obtain ⟨later, others⟩ : SameExcept [.passages, .signs, .sources] u t ∧
          ∀ m, m ≠ p → t.passages.find m = u.passages.find m := by
        by_cases g : guiding
        · rcases h.resolve_left (not_not.2 g) with wait | h
          · rw [waits g wait]
            refine ⟨(State.setPassages_frame (by decide) _).2 (.refl _ u), fun m hm => ?_⟩
            rw [State.setPassages_passages, Table.find_upd, if_neg hm]
          · rw [counted h]
            exact ⟨fullFrame, fun m hm => (fullPassages m).trans (by simp [hm])⟩
        · rw [unguided g]
          exact ⟨.refl _ u, fun _ _ => rfl⟩
      refine ⟨fun n => ?_, fun n => ?_, fun m hm => (others m hm).trans (credited.others m hm)⟩
      · exact (congrArg (Table.find · n) (later .zones (by decide))).trans (zones n)
      · exact (congrArg (Table.find · n) (later .lamps (by decide))).trans (bright n)
    · rw [unguided h]
      exact ⟨credited.frame, credited.own⟩
    · rw [waits h wait]
      refine ⟨(State.setPassages_frame (by decide) _).2 credited.frame, ?_⟩
      rw [State.setPassages_passages, Table.find_upd, if_pos rfl, credited.own]
      rfl
    · rw [counted h]
      refine ⟨(credited.frame.mono (by decide)).trans (fullFrame.mono (by decide)), ?_, ?_, fun n hn => ?_, fun n => ?_⟩
      · rw [fullPassages, credited.own]
        simp [r']
      · rw [raised, time, source_of_frame credited.frame (by decide)]
      · rw [quiet n hn, source_of_frame credited.frame (by decide)]
      · have same : u.signs = s.signs := credited.frame .signs (by decide)
        rw [signs, same, time]

end

section
/-!
SUPPORT. A sign without a show (R71, R72), and O37.
-/
namespace Sys2Proof.Machine

variable {s : State}

/-- Every zone of a list that is not empty is configured and has a guidance state. -/
theorem allWatched_iff {zs : List Nat} {g : Guidance} :
    allWatched s zs g = true ↔ zs ≠ [] ∧ ∀ z ∈ zs, ∃ y, s.zone z = some y ∧ y.guidance = g := by
  have one (z : Nat) : s.zoneIs z (fun r => r.guidance = g) = true ↔ ∃ y, s.zone z = some y ∧ y.guidance = g := by
    cases h : s.zone z <;> simp [State.zoneIs, h]
  simp only [allWatched, Bool.and_eq_true, Bool.not_eq_true', List.isEmpty_eq_false_iff, List.all_eq_true, one]

/-- The zones of a list do not all have two guidance states. -/
theorem allWatched_unique {zs : List Nat} {g g' : Guidance} (h : allWatched s zs g = true) (ne : g' ≠ g) :
    ¬allWatched s zs g' = true := fun h' => by
  obtain ⟨some_, each⟩ := allWatched_iff.1 h
  obtain ⟨z, hz⟩ := List.exists_mem_of_ne_nil zs some_
  obtain ⟨y, hy, rfl⟩ := each z hz
  obtain ⟨y', hy', rfl⟩ := (allWatched_iff.1 h').2 z hz
  exact ne (congrArg Zone.guidance (Option.some.inj (hy'.symm.trans hy)))

/-- The situations of R72 in their order, where no zone that is CLOSED_FIRE decides. -/
theorem plainSituation_awake {zs : List Nat} (awake : s.device = .running ∨ s.device = .warming) (hostFlag : Bool) :
    plainSituation s hostFlag zs =
      if allWatched s zs .closedFire then 3
      else if hostFlag then 7
      else if signCount s zs = 0 then
        if allWatched s zs .closedAir then 2 else if allWatched s zs .closedOverride then 4 else 1
      else 0 := by
  rcases awake with h | h <;> simp [plainSituation, h]

theorem signOutput_plain {n : Nat} {r : Sign} (h : r.shown = none) (s : State) :
    (signOutput n r s).situation = plainSituation s r.config.hostFlag (watchedZones n r s) := by
  rw [signOutput, standingShow, h]
  rfl

end Sys2Proof.Machine

open Sys2Proof Sys2Proof.Machine

/-- Settles O37: each case of R72 is the branch that its conditions choose. -/
theorem aSignShowsItsSituation : Obligations.ASignShowsItsSituation := by
  unfold Obligations.ASignShowsItsSituation
  intro n r s plain zs c all o
  have situation : o.situation = plainSituation s r.config.hostFlag zs := signOutput_plain plain s
  have count : signCount s zs = c := rfl
  have watched (g : Guidance) : all g ↔ allWatched s zs g = true := allWatched_iff.symm
  refine ⟨fun idle => ?_, fun quiet => ?_, fun awake => ?_, rfl, rfl⟩
  · rw [situation, plainSituation]
    rcases idle with h | h <;> simp [h]
  · rw [situation, plainSituation]
    simp [quiet]
  · rw [situation, plainSituation_awake awake, count]
    simp only [watched]
    refine ⟨fun fire => ?_, fun fire host => ?_, fun fire host none_ air => ?_, fun fire host none_ override => ?_,
      fun fire host none_ air override => ?_, fun fire host some_ => ?_⟩
    · rw [if_pos fire]
    · rw [if_neg fire, if_pos host]
    · simp [fire, host, none_, air]
    · simp [fire, host, none_, override, allWatched_unique override (g' := .closedAir) (by decide)]
    · simp [fire, host, none_, air, override]
    · simp [fire, host, some_]

end

section
/-!
SUPPORT. A steer that expires (R64, R74), and O32.
-/
namespace Sys2Proof.Machine

variable {s : State}

/-- What a plain steer that expires leaves besides its slot and its counter (R64, R74). -/
theorem expireSteer_source (id : Nat) (x : Steer) (n : Nat) (s : State) :
    (expireSteer id x s).source n =
      if n = 12 then (s.source 12).raise s.partTime (maskOf [x.target]) (number 1 id ++ number 1 x.origin)
      else s.source n := by
  have retired : SameExcept [.zones, .steers, .passages] s (retireSteer id .expired s) :=
    (retireSteer_frame (by decide) id _).2 (.refl _ s)
  have time : (retireSteer id .expired s).partTime = s.partTime := retired .partTime (by decide)
  refine (State.source_raise 12 n [x.target] (number 1 id ++ number 1 x.origin) _).trans ?_
  rw [time, source_of_frame retired (by decide), source_of_frame retired (by decide)]
  simp only [Nat.reduceLT, and_true]

theorem execSteerExpiry_eq {id : Nat} {x : Steer} (h : s.steers.find id = some x) :
    exec (.steerExpiry id) s = .next (if x.plain && x.deadline ≤ s.partTime then expireSteer id x s else s) := by
  show execSteerExpiry id s = _
  simp only [execSteerExpiry, h]

end Sys2Proof.Machine

open Sys2Proof Sys2Proof.Machine

/-- Settles O32: the retirement of a plain steer, with STEER_EXPIRED raised after it. -/
theorem aPlainSteerExpiresAtItsDeadline : Obligations.APlainSteerExpiresAtItsDeadline := by
  unfold Obligations.APlainSteerExpiresAtItsDeadline
  intro id x s found
  rw [execSteerExpiry_eq found]
  refine ⟨fun stays => ?_, fun plain due => ?_⟩
  · have off : (x.plain && x.deadline ≤ s.partTime) = false := by
      rw [Bool.and_eq_false_iff, decide_eq_false_iff_not, Nat.not_le, Bool.eq_false_iff, ne_eq, Steer.plain_iff]
      exact stays
    rw [off]
    rfl
  · have on : (x.plain && x.deadline ≤ s.partTime) = true := by
      rw [Bool.and_eq_true, decide_eq_true_iff, Steer.plain_iff]
      exact ⟨plain, due⟩
    obtain ⟨gone, others, counted⟩ := retireSteer_retired found .expired
    rw [on]
    exact ⟨_, rfl, (expireSteer_frame (by decide) id x).2 (.refl _ s), gone, others,
      retireSteer_plain found plain .expired, counted, (expireSteer_source id x 12 s).trans (if_pos rfl),
      fun n hn => (expireSteer_source id x n s).trans (if_neg hn)⟩

end

section
/-!
SUPPORT. Waits, shows and bright times that end (R58, R73, R122), the reports of lamp heads and sign heads (R73, R122, R123,
R126 to R128), and O33.
-/
namespace Sys2Proof.Machine

variable {s t u v : State}

/-! ### The ends of waits, shows and bright times -/

theorem Passage.endWait_eq {r : Passage} {w : Nat} (h : r.waitUntil = some w) (now : Nat) :
    r.endWait now = if w ≤ now then { r with kioskWait := 0, waitUntil := none } else r := by
  simp [Passage.endWait, h, reached]

theorem Sign.endShow_eq {r : Sign} {x : Show} (h : r.shown = some x) (now : Nat) :
    r.endShow now = if x.expiry ≤ now then { r with shown := none } else r := by
  simp [Sign.endShow, h, reached]

theorem settleLamp_find (n m : Nat) (s : State) :
    (settleLamp n s).lamps.find m =
      (s.lamps.find m).map fun g => if m = n then settleGroup s.device (s.zone g.zone) g else g := by
  simp [settleLamp, settleLampsWhere_find]

theorem execBrightUntil_eq {n w : Nat} {g : LampGroup} (hg : s.lamps.find n = some g) (bright : g.bright = true)
    (hw : g.brightUntil = some w) :
    exec (.brightUntil n) s =
      .next (if w ≤ s.partTime then settleLamp n (s.setLamps (s.lamps.put n g.dim)) else s) := by
  show execBrightUntil n s = _
  simp [execBrightUntil, hg, bright, hw, reached]

/-! ### A wake that concerns no zone (R154) -/

theorem wakeEvent_lamps {cause : WakeCause} {zs : List Nat} (h : s.device = .quiet) (n : Nat) :
    (wakeEvent cause zs s).lamps.find n = (s.lamps.find n).map fun g => settleGroup .warming (s.zone g.zone) g := by
  let u := (s.setQuiet { s.quiet with
    mode := .noMode, enteredAt := none, wakeTime := some s.partTime, wakeCause := some cause,
    warmUntil := some (s.partTime + s.quiet.warmTime), warmSet := s.heads.keys }).setDevice .warming
  let v := forSegments (Segment.woken (s.device = .quiet)) u
  have walked : SameExcept [.segments] u v := (forSegments_frame (by decide) _).2 (.refl _ u)
  have lamps : v.lamps = s.lamps := walked .lamps (by decide)
  have zones : v.zones = s.zones := walked .zones (by decide)
  have device : v.device = .warming := walked .device (by decide)
  have woken : wakeEvent cause zs s = raise 15 zs (number 1 1 ++ number 1 cause.code) (settleAllLamps v) := if_pos h
  have told : (wakeEvent cause zs s).lamps = (settleAllLamps v).lamps := by
    rw [woken, raise, State.setSources_lamps]
  rw [told, settleAllLamps, settleLampsWhere_find, lamps, device]
  simp only [State.zone, zones, if_true]

theorem wakeEvent_woken (cause : WakeCause) (h : s.device = .quiet) : Woken cause s (wakeEvent cause [] s) := by
  obtain ⟨_, taken, others⟩ := wakeEvent_quiet cause [] h
  exact ⟨taken, wakeEvent_lamps h, others⟩

/-! ### A lamp head's report (R123, R126 to R128) -/

theorem lampOf_none {i a : Nat} (h : ∀ q ∈ s.lamps, q.2.head ≠ { segment := i, address := a }) : lampOf i a s = none :=
  List.find?_eq_none.2 fun q hq => by simpa using h q hq

theorem Table.find_upd_of_found {α : Type} {l : Table α} {n : Nat} {x : α} (h : l.find n = some x) (f : α → α) (m : Nat) :
    (l.upd n f).find m = (l.put n (f x)).find m := by
  rw [Table.find_upd, Table.find_put]
  split
  · next e => rw [e, h, Option.map_some]
  · rfl

/-- Motion gives presence where the group's motion flag is set (R123). -/
theorem motionPresence (motion flag : Bool) (z : Nat) (s : State) :
    SameExcept [.lamps] s (if motion && flag then presence z s else s) ∧
      Brightened (if motion = true ∧ flag = true then [z] else []) s (if motion && flag then presence z s else s) := by
  by_cases h : motion = true ∧ flag = true
  · simp only [h, Bool.and_self, and_self, if_true]
    exact ⟨(presence_frame (by decide) z).2 (.refl _ s), presence_brightened rfl (fun _ _ => rfl) rfl rfl⟩
  · simp only [h, Bool.and_eq_true, if_false]
    exact ⟨.refl _ s, fun m => by simp⟩

/-- The fault of a lamp head that a report may raise (R127, R128). -/
theorem raiseLampFaultIf_source {c : Prop} [Decidable c] (n zone failed m : Nat) (s : State) :
    (if c then raiseLampFault n zone failed s else s).source m =
      if m = 9 ∧ c then (s.source 9).raise s.partTime (maskOf [zone]) (number 1 n ++ number 1 failed)
      else s.source m := by
  by_cases h : c
  · simp only [h, if_true, and_true]
    refine (State.source_raise 9 m [zone] (number 1 n ++ number 1 failed) s).trans ?_
    simp only [Nat.reduceLT, and_true]
  · simp [h]

theorem raiseLampFaultIf_except {c : Prop} [Decidable c] (n zone failed : Nat) (s : State) :
    SameExcept [.sources] s (if c then raiseLampFault n zone failed s else s) := by
  split
  · exact (raiseLampFault_frame (by decide) _ _ _).2 (.refl _ s)
  · exact .refl _ s

/-- What the report of a bound head leaves of its group and its fault, before a wake (R122, R126 to R128). -/
theorem groupReport_leaves {n : Nat} {g : LampGroup} (hg : s.lamps.find n = some g) (level failed flags : Byte) :
    let t := groupReport n g level failed flags s
    SameExcept [.lamps, .sources] s t ∧
      Brightened (if flags.getLsbD 0 = true ∧ g.motionFlag = true then [g.zone] else [])
        (s.setLamps (s.lamps.put n (g.observe s.partTime level failed flags))) t ∧
      t.source 9 = (if g.failed < s.faultThreshold ∧ s.faultThreshold ≤ failed.toNat then
        (s.source 9).raise s.partTime (maskOf [g.zone]) (number 1 n ++ number 1 failed.toNat) else s.source 9) ∧
      ∀ m, m ≠ 9 → t.source m = s.source m := by
  intro t
  let x := g.observe s.partTime level failed flags
  let u := s.setLamps (s.lamps.upd n (LampGroup.observe s.partTime level failed flags))
  let v := if flags.getLsbD 0 && g.motionFlag then presence g.zone u else u
  let faulty := g.failed < s.faultThreshold ∧ s.faultThreshold ≤ failed.toNat
  have stored : SameExcept [.lamps] s u := (State.setLamps_frame (by decide) _).2 (.refl _ s)
  obtain ⟨lit, bright⟩ := motionPresence (flags.getLsbD 0) g.motionFlag g.zone u
  have before : SameExcept [.lamps] s v := stored.trans lit
  have time : v.partTime = s.partTime := before .partTime (by decide)
  have threshold : v.faultThreshold = s.faultThreshold := before .faultThreshold (by decide)
  have reported : t = if faulty then raiseLampFault n g.zone failed.toNat v else v := by
    have : t = if g.failed < v.faultThreshold ∧ v.faultThreshold ≤ failed.toNat then
      raiseLampFault n g.zone failed.toNat v else v := rfl
    rwa [threshold] at this
  have source (m : Nat) := raiseLampFaultIf_source (c := faulty) n g.zone failed.toNat m v
  have raised := raiseLampFaultIf_except (c := faulty) n g.zone failed.toNat v
  rw [← reported] at source raised
  have lamps : t.lamps = v.lamps := raised .lamps (by decide)
  simp only [time, source_of_frame before (by decide)] at source
  refine ⟨(before.mono (by decide)).trans (raised.mono (by decide)), fun m => ?_, ?_, fun m hm => ?_⟩
  · have observed : u.lamps.find m = (s.lamps.put n x).find m := Table.find_upd_of_found hg _ m
    rw [lamps]
    exact (bright m).trans (by rw [observed]; rfl)
  · rw [source]
    simp [faulty]
  · rw [source, if_neg fun e => hm e.1]

theorem lampReport_free {i a : Nat} (h : lampOf i a s = none) (wake : Bool) (level failed flags : Byte) :
    lampReport i a wake [level, failed, flags] s =
      if flags.getLsbD 0 && wake then wakeEvent .motion [] s else s := by
  simp only [lampReport, h]
  rfl

theorem lampReport_bound {i a n : Nat} {g : LampGroup} (h : lampOf i a s = some (n, g)) (wake : Bool)
    (level failed flags : Byte) :
    lampReport i a wake [level, failed, flags] s =
      if flags.getLsbD 0 && wake then wakeEvent .motion [g.zone] (groupReport n g level failed flags s)
      else groupReport n g level failed flags s := by
  simp only [lampReport, h]
  rfl

theorem lampOf_unique {i a n : Nat} {g : LampGroup} (wf : s.lamps.wf = true) (mem : (n, g) ∈ s.lamps)
    (bound : g.head = { segment := i, address := a })
    (only : ∀ q ∈ s.lamps, q.2.head = { segment := i, address := a } → q.1 = n) : lampOf i a s = some (n, g) :=
  Table.find?_unique wf mem (by simpa using bound) fun q hq hit => only q hq (by simpa using hit)

/-! ### A sign head's report (R73) -/

theorem signOf_none {i a : Nat} (h : ∀ q ∈ s.signs, q.2.config.head ≠ { segment := i, address := a }) :
    signOf i a s = none := List.find?_eq_none.2 fun q hq => by simpa using h q hq

theorem signOf_unique {i a n : Nat} {g : Sign} (wf : s.signs.wf = true) (mem : (n, g) ∈ s.signs)
    (bound : g.config.head = { segment := i, address := a })
    (only : ∀ q ∈ s.signs, q.2.config.head = { segment := i, address := a } → q.1 = n) : signOf i a s = some (n, g) :=
  Table.find?_unique wf mem (by simpa using bound) fun q hq hit => only q hq (by simpa using hit)

theorem signReport_bound {i a n : Nat} {g : Sign} (h : signOf i a s = some (n, g)) (result : Byte) (m : Nat) :
    (signReport i a [result] s).signs.find m =
      (s.signs.find m).map fun x => if m = n then { x with headFault := result ≠ 0 } else x := by
  simp only [signReport, h, State.setSigns_signs, Table.find_upd]
  split <;> simp

end Sys2Proof.Machine

open Sys2Proof Sys2Proof.Machine

/-- Settles O33: each timer is one test of its record; a lamp report stores, raises, and then wakes. -/
theorem waitsShowsAndBrightTimesEnd : Obligations.WaitsShowsAndBrightTimesEnd := by
  unfold Obligations.WaitsShowsAndBrightTimesEnd
  refine ⟨fun p r w s found wait => ?_, fun n r x s found shown => ?_, fun n g w s found bright hw => ?_, ?_, ?_⟩
  · refine ⟨_, rfl, (State.setPassages_frame (by decide) _).2 (.refl _ s), ?_, fun m hm => ?_⟩
    · rw [State.setPassages_passages, Table.find_upd, if_pos rfl, found, Option.map_some, Passage.endWait_eq wait]
    · rw [State.setPassages_passages, Table.find_upd, if_neg hm]
  · refine ⟨_, rfl, (State.setSigns_frame (by decide) _).2 (.refl _ s), ?_, fun m hm => ?_⟩
    · rw [State.setSigns_signs, Table.find_upd, if_pos rfl, found, Option.map_some, Sign.endShow_eq shown]
    · rw [State.setSigns_signs, Table.find_upd, if_neg hm]
  · rw [execBrightUntil_eq found bright hw]
    refine ⟨fun early => by rw [if_neg (Nat.not_le.2 early)], fun due => ?_⟩
    rw [if_pos due]
    refine ⟨_, rfl, ?_, ⟨settleGroup s.device (s.zone g.zone) g.dim, ?_, rfl, rfl, rfl⟩, fun m hm => ?_⟩
    · exact (settleLamp_frame (by decide) n).2 ((State.setLamps_frame (by decide) _).2 (.refl _ s))
    · rw [settleLamp_find, State.setLamps_lamps, Table.find_put_same, Option.map_some, if_pos rfl]
      rfl
    · rw [settleLamp_find, State.setLamps_lamps, Table.find_put, if_neg hm]
      simp [hm]
  · intro i a wake level failed flags s wf t motion woken
    have motionWakes : (flags.getLsbD 0 && wake) = true ↔ motion ∧ wake = true := Bool.and_eq_true _ _ ▸ Iff.rfl
    have asleep (h : ¬woken) : s.device ≠ .quiet ∨ (flags.getLsbD 0 && wake) = false := by
      by_cases quiet : s.device = .quiet
      · exact .inr (Bool.eq_false_iff.2 fun m => h ⟨quiet, motionWakes.1 m⟩)
      · exact .inl quiet
    refine ⟨fun free => ?_, ?_⟩
    · have report : t = _ := lampReport_free (lampOf_none free) wake level failed flags
      exact ⟨fun h => (report.trans (if_pos (motionWakes.2 h.2))) ▸ wakeEvent_woken .motion h.1,
        fun h => report.trans (wakeIf_unwoken (asleep h))⟩
    · intro n g mem bound only g' u
      have report : t = _ := lampReport_bound (lampOf_unique wf mem bound only) wake level failed flags
      let v := groupReport n g level failed flags s
      obtain ⟨frame, bright, fault, others⟩ := groupReport_leaves (Table.find_of_mem wf mem) level failed flags
      have device : v.device = s.device := frame .device (by decide)
      have later : ∀ m, m ≠ 15 → t.source m = v.source m := fun m hm => by
        rw [report]
        split
        · exact (wakeEvent_except _ _ v).2 m hm
        · rfl
      refine ⟨fun h => ?_, fun h => ?_, (later 9 (by decide)).trans fault,
        fun m h9 h15 => (later m h15).trans (others m h9)⟩
      · have same : t = v := report.trans (wakeIf_unwoken (device ▸ asleep h))
        rw [same]
        exact ⟨frame, bright, device, frame .quiet (by decide), others 15 (by decide)⟩
      · obtain ⟨wakes, taken, _⟩ := wakeEvent_quiet .motion [g.zone] (device.trans h.1)
        rw [report, if_pos (motionWakes.2 h.2)]
        exact ⟨(frame.mono (by decide)).trans wakes, taken.of_before frame (others 15 (by decide)) (by decide)⟩
  · intro i a result s wf t
    refine ⟨(signReport_frame (by decide) i a _).2 (.refl _ s), fun free => ?_, fun n g mem bound only m =>
      signReport_bound (signOf_unique wf mem bound only) result m⟩
    simp only [t, signReport, signOf_none free]

end

section
/-!
SUPPORT. Which heads a sweep visits, where it begins, and what the poll of its next head sends (R152, R162, R166, R167,
R174), and O56.
-/
namespace Sys2Proof.Machine

variable {s t u : State}

/-! ### The heads that a sweep passes over (R152, R167) -/

theorem Head.due_eq_false {h : Head} {now keepalive : Nat} :
    h.due now keepalive = false ↔ ∃ w, h.lastPolled = some w ∧ now < w + keepalive := by
  cases hw : h.lastPolled <;> simp [Head.due, hw]

theorem visits_eq_false {i a : Nat} {tail : Bool} : s.visits i tail a = false ↔ PassedOver s i tail a := by
  unfold PassedOver
  cases hh : s.head i a with
  | none => simp [State.visits, hh]
  | some h =>
    rw [State.visits, hh]
    by_cases sparse : s.device = .quiet ∨ tail = true
    · simp [sparse, Head.normalRate, Head.due_eq_false, and_assoc]
    · simp [sparse]

theorem visits_eq_true {i a : Nat} {tail : Bool} : s.visits i tail a = true ↔ ¬PassedOver s i tail a := by
  rw [← visits_eq_false, Bool.not_eq_false]

/-- A sweep comes to the first address of a list that it does not pass over. -/
theorem dropWhile_passed {i a : Nat} {tail : Bool} {before after : List Nat} (passed : ∀ b ∈ before, PassedOver s i tail b)
    (visited : ¬PassedOver s i tail a) :
    ((before ++ a :: after).dropWhile fun b => !s.visits i tail b) = a :: after := by
  rw [List.dropWhile_append_of_pos fun b hb => by simp [visits_eq_false.2 (passed b hb)], List.dropWhile_cons_of_neg]
  simp [visits_eq_true.2 visited]

theorem dropWhile_allPassed {i : Nat} {tail : Bool} {l : List Nat} (passed : ∀ b ∈ l, PassedOver s i tail b) :
    (l.dropWhile fun b => !s.visits i tail b) = [] :=
  List.dropWhile_eq_nil_iff.2 fun b hb => by simp [visits_eq_false.2 (passed b hb)]

/-! ### The beginning of a sweep (R166, R167) -/

theorem countUpTo_eq (limit n : Nat) : countUpTo limit n = min limit (n + 1) := by
  unfold countUpTo
  split <;> omega

theorem nextSweep_begun (s : State) (i : Nat) (g : Segment) : SweepBegun s i g (nextSweep s i g) := by
  refine ⟨fun none_ => ?_, fun before a after listed passed visited => ?_, fun some_ passed => ?_⟩
  · rw [nextSweep, none_]
    rfl
  · rw [nextSweep, listed, dropWhile_passed passed visited]
    simp
  · have listed : (s.listed i).isEmpty = false := by simpa using some_
    rw [nextSweep, listed, dropWhile_allPassed passed, Segment.sweepEnded, countUpTo_eq]
    rfl

/-- A segment that begins its next sweep, and nothing else changed. -/
def Begun (i : Nat) (s t : State) : Prop :=
  SameExcept [.segments] s t ∧ (∀ j, j ≠ i → t.segment j = s.segment j) ∧ SweepBegun s i (s.segment i) (t.segment i)

theorem putNextSweep_begun {i : Nat} (h : i < 4) (s : State) :
    Begun i s (s.putSegment i (nextSweep s i (s.segment i))) := by
  refine ⟨(State.putSegment_frame (by decide) _ _).2 (.refl _ s), fun j hj => ?_, ?_⟩
  · rw [State.segment_putSegment, if_neg fun e => hj e.1]
  · rw [State.segment_putSegment, if_pos ⟨rfl, h⟩]
    exact nextSweep_begun s i _

theorem execStartupSweepBegin_eq (i : Nat) (s : State) : exec (.startupSweepBegin i) s = .next (
    if s.device ≠ .unconfigured ∧ (s.segment i).sweep = .awaitingStart then
      s.putSegment i (nextSweep s i (s.segment i))
    else s) := by
  show execStartupSweepBegin i s = _
  simp only [execStartupSweepBegin, Bool.and_eq_true, decide_eq_true_eq]

theorem resumes_iff {i : Nat} : resumes i s = true ↔
    s.device = .quiet ∧ (s.segment i).sweep = .waiting ∧ ∃ a ∈ s.listed i, ¬PassedOver s i false a := by
  simp only [resumes, Bool.and_eq_true, decide_eq_true_eq, List.any_eq_true, visits_eq_true, and_assoc]

theorem execSweepResume_eq (i : Nat) (s : State) : exec (.sweepResume i) s = .next (
    if resumes i s then s.putSegment i (nextSweep s i (s.segment i)) else s) := rfl

/-! ### The poll of the next head (R160, R162) -/

theorem putSegment_self (i : Nat) (s : State) (h : i < 4) : s.putSegment i (s.segment i) = s := by
  have same : s.segments.setIfInBounds i (s.segment i) = s.segments := by
    refine Vector.ext fun j hj => ?_
    rw [Vector.getElem_setIfInBounds]
    split
    · next e => simp [← e, State.segment, fixedAt, h]
    · rfl
  rw [State.putSegment, same]
  rfl

theorem execPollBuild_eq (i : Nat) (s : State) : exec (.pollBuild i) s = .next (
    if s.device = .unconfigured || (s.segment i).exchange.isSome then s else pollNext i s) := rfl

theorem pollNext_noSweep {i : Nat} (low : i < 4) (h : ∀ todo, (s.segment i).sweep ≠ .sweeping todo) :
    pollNext i s = s := by
  have stays : walkSegment i s = s := by
    rw [walkSegment, walkOn]
    split
    · next todo e => exact absurd e (h todo)
    · exact putSegment_self i s low
  rw [pollNext, stays]
  split
  · next a todo e => exact absurd e (h _)
  · rfl

/-- The poller comes to the first head of its sweep that is not passed over, and polls it. -/
theorem pollNext_sends {i a : Nat} {g : Segment} {before todo : List Nat} {h : Head} (low : i < 4)
    (hg : s.segment i = g) (sweep : g.sweep = .sweeping (before ++ a :: todo))
    (passes : ∀ b ∈ before, PassedOver s i g.keepaliveTail b) (visited : ¬PassedOver s i g.keepaliveTail a)
    (ha : s.head i a = some h) :
    let g' := { g with sweep := .sweeping (a :: todo) }
    pollNext i s = sendPoll i a todo g' h (s.putSegment i g') := by
  intro g'
  have walked : walkSegment i s = s.putSegment i g' := by
    rw [walkSegment, hg, walkOn, sweep]
    simp only [dropWhile_passed passes visited]
    rfl
  have segment : (s.putSegment i g').segment i = g' := by rw [State.segment_putSegment, if_pos ⟨rfl, low⟩]
  have head : (s.putSegment i g').head i a = some h := ha
  rw [pollNext, walked]
  simp only [segment, g', head]

/-- The exchange that a poll begins (R160, R161). -/
def pollExchange (a : Nat) (h : Head) (payload : List Byte) : Exchange where
  address := a
  frame := pollFrame a h.kind.code (pollControl h) payload
  received := []
  beforeWake := false
  discarded := false

/-- What a poll that is sent leaves of the records. -/
theorem sendPoll_leaves {i : Nat} (low : i < 4) (a : Nat) (todo : List Nat) (g : Segment) (h : Head) (s : State) :
    let t := sendPoll i a todo g h s
    t.signs = (pollSign i a h s).signs ∧
      (∀ j, t.segment j = if j = i then
        { g with sweep := .sweeping todo, exchange := some (pollExchange a h (pollPayload s i a h)) } else s.segment j) ∧
      ∀ j b, t.head j b = if 32 * j + b = 32 * i + a then some (h.polled s.partTime) else s.head j b := by
  intro t
  have shown : SameExcept [.signs] s (pollSign i a h s) := (pollSign_frame (by decide) i a h).2 (.refl _ s)
  refine ⟨rfl, fun j => ?_, fun j b => ?_⟩
  · have segments : (pollSign i a h s).segments = s.segments := shown .segments (by decide)
    refine (State.segment_putSegment _ i j _).trans ?_
    simp only [low, and_true]
    split
    · rfl
    · exact congrArg (fixedAt · j _) segments
  · have heads : (pollSign i a h s).heads = s.heads := shown .heads (by decide)
    have time : (pollSign i a h s).partTime = s.partTime := shown .partTime (by decide)
    refine (Table.find_put _ (headKey i a) (headKey j b) _).trans ?_
    rw [heads, time]
    rfl

/-! ### What a poll carries (R72, R73, R105, R162) -/

theorem pollPayload_empty {i a : Nat} {h : Head} (kind : h.kind = .bay ∨ h.kind = .air ∨ h.kind = .loop) :
    pollPayload s i a h = [] := by
  rcases kind with k | k | k <;> rw [pollPayload, k]

theorem pollPayload_fan {i a n : Nat} {h : Head} {f : Fan} (kind : h.kind = .fan) (found : fanOf i a s = some (n, f)) :
    pollPayload s i a h = if f.state = .localControl then [] else number 1 f.commanded := by
  simp only [pollPayload, kind, found]
  rfl

theorem pollPayload_lamp {i a n : Nat} {h : Head} {g : LampGroup} (kind : h.kind = .lamp)
    (found : lampOf i a s = some (n, g)) : pollPayload s i a h = number 1 g.commanded := by
  simp only [pollPayload, kind, found]
  rfl

theorem pollPayload_sign {i a n : Nat} {h : Head} {r : Sign} (kind : h.kind = .sign)
    (found : signOf i a s = some (n, r)) :
    pollPayload s i a h = halfBytes (signOutput n r s).word ++ number 2 (signOutput n r s).count := by
  simp only [pollPayload, kind, found]
  rfl

/-- The head of a fan, a lamp group or a sign that nothing binds carries nothing. -/
theorem pollPayload_unbound {i a : Nat} {h : Head} (free : (h.kind = .fan ∧ fanOf i a s = none) ∨
    (h.kind = .lamp ∧ lampOf i a s = none) ∨ (h.kind = .sign ∧ signOf i a s = none)) : pollPayload s i a h = [] := by
  rcases free with ⟨k, none_⟩ | ⟨k, none_⟩ | ⟨k, none_⟩ <;> simp only [pollPayload, k, none_]

theorem pollSign_other {i a : Nat} {h : Head} (kind : h.kind ≠ .sign) : pollSign i a h s = s := by
  unfold pollSign
  split
  · next k => exact absurd k kind
  · rfl

theorem pollSign_unbound {i a : Nat} {h : Head} (free : signOf i a s = none) : pollSign i a h s = s := by
  unfold pollSign
  split
  · rw [free]
  · rfl

theorem pollSign_bound {i a n : Nat} {h : Head} {r : Sign} (kind : h.kind = .sign) (found : signOf i a s = some (n, r)) :
    pollSign i a h s = s.setSigns (s.signs.put n (r.polled (standingShow s r) (signOutput n r s))) := by
  simp only [pollSign, kind, found]

theorem number_pollControl (h : Head) :
    number 1 (pollControl h) = [if h.kind = .loop ∧ h.toggle = true then 0x01 else 0x00] := by
  unfold pollControl
  by_cases e : h.kind = .loop ∧ h.toggle = true
  · simp [e, number_one]
  · rw [if_neg (by simpa using e), if_neg e]
    rfl

end Sys2Proof.Machine

open Sys2Proof Sys2Proof.Machine

/-- Settles O56: each event is one test of the segment; a poll is sent from the state with the walk done. -/
theorem sweepsPollTheListedHeads : Obligations.SweepsPollTheListedHeads := by
  unfold Obligations.SweepsPollTheListedHeads
  intro i s low passed begun
  have begins : begun (s.putSegment i (nextSweep s i (s.segment i))) := putNextSweep_begun low s
  rw [execStartupSweepBegin_eq, execSweepResume_eq]
  refine ⟨fun dev waits => ⟨_, congrArg Host.Outcome.next (if_pos ⟨dev, waits⟩), begins⟩,
    fun h => congrArg Host.Outcome.next (if_neg fun e => ?_),
    fun dev waits due => ⟨_, congrArg Host.Outcome.next (if_pos (resumes_iff.2 ⟨dev, waits, due⟩)), begins⟩,
    fun h => congrArg Host.Outcome.next (if_neg fun e => ?_), fun h => ?_, ?_⟩
  · exact h.elim e.1 fun h => h e.2
  · obtain ⟨dev, waits, a, ha, due⟩ := resumes_iff.1 e
    rcases h with h | h | h
    · exact h dev
    · exact h waits
    · exact due (h a ha)
  · rw [execPollBuild_eq]
    split
    · rfl
    · next runs =>
      rw [Bool.or_eq_true, decide_eq_true_eq, not_or] at runs
      rw [pollNext_noSweep low ((h.resolve_left runs.1).resolve_left runs.2)]
  · intro g before a todo h dev hg idle sweep passes visited la ha
    let g' : Segment := { g with sweep := .sweeping (a :: todo) }
    let u := s.putSegment i g'
    have put : SameExcept [.segments] s u := (State.putSegment_frame (by decide) _ _).2 (.refl _ s)
    have sends : (s.device = .unconfigured || (s.segment i).exchange.isSome) = false := by simp [dev, hg, idle]
    have built : exec (.pollBuild i) s = .next (sendPoll i a todo g' h u) := by
      rw [execPollBuild_eq, sends, pollNext_sends low hg sweep passes visited ha]
      rfl
    obtain ⟨signs, segment, heads⟩ := sendPoll_leaves low a todo g' h u
    refine ⟨_, pollPayload s i a h, built, (sendPoll_frame (by decide) _ _ _ _ _).2 (put.mono (by decide)),
      fun other => ?_, ⟨_, rfl, ?_⟩, fun j hj => ?_, fun j b => heads j b, pollPayload_empty, fun kind n f found driven => ?_,
      fun kind n y found => pollPayload_lamp kind found, fun kind none_ => ?_,
      fun kind free => pollPayload_unbound (.inr (.inl ⟨kind, free⟩)), fun kind free =>
        ⟨pollPayload_unbound (.inr (.inr ⟨kind, free⟩)), ?_⟩, fun kind n r found => ⟨pollPayload_sign kind found, ?_⟩⟩
    · rw [signs, pollSign_other other]
      rfl
    · rw [segment, if_pos rfl, ← number_pollControl]
      rfl
    · rw [segment, if_neg hj]
      exact (State.segment_putSegment _ _ _ _).trans (if_neg fun e => hj e.1)
    · rw [pollPayload_fan kind found, if_neg driven]
    · rcases none_ with free | ⟨n, f, found, away⟩
      · exact pollPayload_unbound (.inl ⟨kind, free⟩)
      · rw [pollPayload_fan kind found, if_pos away]
    · rw [signs, pollSign_unbound (s := u) free]
      rfl
    · rw [signs, pollSign_bound (s := u) kind found]
      rfl

end

section
/-!
SUPPORT. The air evaluator's functions, each said once: the zone readings (R78), the averages (R81, R82), the candidate and
the air state (R84 to R87), the two ways through an evaluation (R79, R80) and what it stores beside them (R89, R90, R92, R96).
-/
namespace Sys2Proof.Machine

variable {c : AirSettings} {now start co no2 : Nat} {quiet : Bool} {heads : Table Head} {reports : List AirReport}
  {a : ZoneAir} {z : Zone}

/-! ### Zone readings (R78) -/

/-- The largest of the values of a list, 0 for none. -/
def largest {α : Type} (f : α → Nat) (l : List α) : Nat := l.foldl (fun m x => max m (f x)) 0

theorem foldl_max_eq {α : Type} (f : α → Nat) (l : List α) (m : Nat) :
    l.foldl (fun m x => max m (f x)) m = max m (largest f l) := by
  induction l generalizing m with
  | nil => simp [largest]
  | cons x l ih => rw [largest, List.foldl_cons, List.foldl_cons, ih, ih (max 0 (f x)), Nat.zero_max, Nat.max_assoc]

theorem largest_cons {α : Type} (f : α → Nat) (x : α) (l : List α) : largest f (x :: l) = max (f x) (largest f l) := by
  rw [largest, List.foldl_cons, foldl_max_eq, Nat.zero_max]

theorem le_largest {α : Type} (f : α → Nat) {l : List α} {x : α} (h : x ∈ l) : f x ≤ largest f l := by
  induction l with
  | nil => cases h
  | cons y l ih =>
    rw [largest_cons]
    rcases List.mem_cons.1 h with rfl | h
    · exact le_max_left _ _
    · exact (ih h).trans (le_max_right _ _)

theorem exists_largest {α : Type} (f : α → Nat) {l : List α} (h : l ≠ []) : ∃ x ∈ l, f x = largest f l := by
  induction l with
  | nil => exact absurd rfl h
  | cons y l ih =>
    rw [largest_cons]
    by_cases top : largest f l ≤ f y
    · exact ⟨y, List.mem_cons_self, (max_eq_left top).symm⟩
    · have there : l ≠ [] := fun e => top (by simp [e, largest])
      obtain ⟨x, hx, e⟩ := ih there
      exact ⟨x, List.mem_cons_of_mem _ hx, by rw [e, max_eq_right (Nat.le_of_not_le top)]⟩

theorem largest_le {α : Type} {f : α → Nat} {l : List α} {b : Nat} (h : ∀ x ∈ l, f x ≤ b) : largest f l ≤ b := by
  cases l with
  | nil => exact Nat.zero_le b
  | cons y l =>
    obtain ⟨x, hx, e⟩ := exists_largest f (List.cons_ne_nil y l)
    exact e ▸ h x hx

/-- A report's values stand within the clamps of R76. -/
theorem decodeAir_bounds {r : HeadReport} {x : AirReport} (h : decodeAir r = some x) : x.co ≤ 500 ∧ x.no2 ≤ 10000 := by
  unfold decodeAir at h
  split at h
  · cases h
    exact ⟨min_le_left _ _, min_le_left _ _⟩
  · cases h

theorem freshReports_bounds {l : List HeadId} {x : AirReport} (h : x ∈ freshReports heads now l) :
    x.co ≤ 500 ∧ x.no2 ≤ 10000 := by
  obtain ⟨id, _, h⟩ := List.mem_filterMap.1 h
  obtain ⟨hd, _, h⟩ := Option.bind_eq_some_iff.1 h
  split at h
  · obtain ⟨r, _, h⟩ := Option.bind_eq_some_iff.1 h
    exact decodeAir_bounds h
  · cases h

/-! ### Averages (R81, R82) -/

/-- The step toward a target, never beyond it, is nearest to the share of the distance, halves away from zero (R82). -/
theorem roundedStep_spec {divisor : Nat} (h : divisor = 4 ∨ divisor = 32) (distance : Nat) :
    roundedStep distance divisor ≤ distance ∧ 2 * distance < 2 * (divisor * roundedStep distance divisor) + divisor ∧
      2 * (divisor * roundedStep distance divisor) ≤ 2 * distance + divisor := by
  rcases h with rfl | rfl <;> unfold roundedStep <;> omega

theorem moveAverage_le {divisor : Nat} (h : divisor = 4 ∨ divisor = 32) {target average b : Nat} (ht : target ≤ b)
    (ha : average ≤ b) : moveAverage divisor target average ≤ b := by
  unfold moveAverage
  split
  · have := (roundedStep_spec h (target - average)).1
    omega
  · exact (Nat.sub_le _ _).trans ha

theorem moveAverage_self (divisor target : Nat) (h : divisor = 4 ∨ divisor = 32) :
    moveAverage divisor target target = target := by
  have := (roundedStep_spec h (target - target)).1
  unfold moveAverage
  rw [if_pos (le_refl _)]
  omega

/-- An average moves by a signed whole step nearest to the signed share of its distance, halves away from zero (R82). -/
theorem moveAverage_step {divisor : Nat} (h : divisor = 4 ∨ divisor = 32) (target average : Nat) :
    ∃ st : Int, (moveAverage divisor target average : Int) = average + st ∧
      2 * |((target : Int) - average) - divisor * st| ≤ divisor ∧
      (2 * |((target : Int) - average) - divisor * st| = divisor → |(target : Int) - average| ≤ |divisor * st|) := by
  unfold moveAverage
  split
  · next up =>
    obtain ⟨within, low, high⟩ := roundedStep_spec h (target - average)
    refine ⟨roundedStep (target - average) divisor, by push_cast; rfl, ?_⟩
    generalize roundedStep (target - average) divisor = st at *
    rcases h with rfl | rfl <;> simp only [Int.abs_eq_natAbs] <;> omega
  · next down =>
    obtain ⟨within, low, high⟩ := roundedStep_spec h (average - target)
    refine ⟨-roundedStep (average - target) divisor, by omega, ?_⟩
    generalize roundedStep (average - target) divisor = st at *
    rcases h with rfl | rfl <;> simp only [Int.abs_eq_natAbs] <;> omega

/-! ### Candidate and air state (R84 to R87) -/

theorem airCandidate_bar : airCandidate c a = .bar ↔ c.barCO * 256 ≤ a.fCO ∨ c.barNO * 256 ≤ a.fNO := by
  unfold airCandidate
  split_ifs <;> simp_all

theorem airCandidate_act :
    airCandidate c a = .act ↔ airCandidate c a ≠ .bar ∧ (c.actCO * 256 ≤ a.fCO ∨ c.actNO * 256 ≤ a.fNO) := by
  unfold airCandidate
  split_ifs <;> simp_all

theorem airCandidate_watch :
    airCandidate c a = .watch ↔
      airCandidate c a ≠ .bar ∧ airCandidate c a ≠ .act ∧ (c.watchCO * 256 ≤ a.sCO ∨ c.watchNO * 256 ≤ a.sNO) := by
  unfold airCandidate
  split_ifs <;> simp_all

theorem airCandidate_ne_blind (c : AirSettings) (a : ZoneAir) : airCandidate c a ≠ .blind := by
  unfold airCandidate
  split_ifs <;> simp

/-- A move of the air state writes the state, the dwell and the flag of AIR_BLIND alone. -/
theorem moveAirState_eq (c : AirSettings) (cand : AirState) (a : ZoneAir) :
    moveAirState c cand a = { a with
      state := (moveAirState c cand a).state, dwell := (moveAirState c cand a).dwell,
      blindReported := (moveAirState c cand a).blindReported } := by
  unfold moveAirState
  split_ifs <;> rfl

/-- From BLIND, and to a candidate at least as severe, the state moves at once (R85, R87). -/
theorem moveAirState_rises {cand : AirState} (h : a.state = .blind ∨ a.state.severity ≤ cand.severity) :
    (moveAirState c cand a).state = cand ∧ (moveAirState c cand a).dwell = 0 := by
  unfold moveAirState
  split
  · exact ⟨rfl, rfl⟩
  · next blind =>
    rw [if_pos (h.resolve_left blind)]
    exact ⟨rfl, rfl⟩

/-- To a less severe candidate, the state moves after four evaluations below its exit thresholds (R86). -/
theorem moveAirState_falls {cand : AirState} (seen : a.state ≠ .blind) (less : cand.severity < a.state.severity) :
    moveAirState c cand a =
      if belowExit c a a.state then
        if fallDwell ≤ a.dwell + 1 then { a with state := cand, dwell := 0 } else { a with dwell := a.dwell + 1 }
      else { a with dwell := 0 } := by
  rw [moveAirState, if_neg seen, if_neg (Nat.not_le.2 less)]

/-- A state that can fall stands below its exit thresholds (R86). -/
theorem belowExit_iff (can : 0 < a.state.severity) :
    belowExit c a a.state = true ↔
      (a.state = .bar → a.fCO < c.barCO * 256 * 4 / 5 ∧ a.fNO < c.barNO * 256 * 4 / 5) ∧
      (a.state = .act → a.fCO < c.actCO * 256 * 4 / 5 ∧ a.fNO < c.actNO * 256 * 4 / 5) ∧
      (a.state = .watch → a.sCO < c.watchCO * 256 * 4 / 5 ∧ a.sNO < c.watchNO * 256 * 4 / 5) := by
  cases h : a.state with
  | clear | blind => simp [h, AirState.severity] at can
  | watch | act | bar =>
    simp only [belowExit, Bool.and_eq_true, decide_eq_true_eq, reduceCtorEq, false_implies, true_and, and_true, true_implies]
    rfl

theorem moveAirState_ne_blind {cand : AirState} (h : cand ≠ .blind) : (moveAirState c cand a).state ≠ .blind := by
  unfold moveAirState
  split_ifs <;> assumption

end Sys2Proof.Machine

open Sys2Proof Sys2Proof.Machine

/-- Settles O41: a rise is taken at once, a fall after the dwell that its exit thresholds count. -/
theorem airStatesRiseAtOnceAndFallByDwell : Obligations.AirStatesRiseAtOnceAndFallByDwell := by
  intro c a dwell
  refine ⟨airCandidate_bar, airCandidate_act, airCandidate_watch, airCandidate_ne_blind c a, moveAirState_rises,
    fun seen less => ?_, moveAirState_eq c _ a⟩
  rw [moveAirState_falls seen less, ← belowExit_iff (Nat.zero_lt_of_lt less), fallDwell]
  refine ⟨fun exits full => ?_, fun exits short => ?_, fun stays => ?_⟩
  · rw [if_pos exits, if_pos (by omega)]
    exact ⟨rfl, rfl⟩
  · rw [if_pos exits, if_neg (by omega)]
    exact ⟨rfl, rfl⟩
  · rw [if_neg stays]
    exact ⟨rfl, rfl⟩

end

section
/-!
SUPPORT. What one evaluation of a zone leaves of its air fields: with a fresh head (R78, R81, R82, R84), without one (R79,
R80), and in both the automatic demand (R89, R90), the decay (R92) and the flag of AIR_BLIND (R96).
-/
namespace Sys2Proof.Machine

variable {c : AirSettings} {now start : Nat} {quiet : Bool} {heads : Table Head} {reports : List AirReport}
  {a : ZoneAir} {z : Zone}

/-! ### With a fresh head -/

/-- The averages of a zone with readings of both gases, seeded and moved (R81, R82). -/
def ZoneAir.averaged (now co no2 : Nat) (a : ZoneAir) : ZoneAir :=
  ({ a with coReading := some { value := co, time := now }, noReading := some { value := no2, time := now } }.seed co no2).move
    co no2

/-- An evaluation with a fresh head reads the largest values, averages them, and moves the air state on its candidate. -/
theorem evaluateState_fresh (h : reports ≠ []) :
    evaluateState c now reports a =
      let v := a.averaged now (largest AirReport.co reports) (largest AirReport.no2 reports)
      moveAirState c (airCandidate c v) { v with candidate := some (airCandidate c v) } := by
  rw [evaluateState, if_neg (by simpa using h)]
  rfl

/-- The move of the air state leaves readings, averages and seeding as the averaging left them. -/
theorem evaluateState_measures (h : reports ≠ []) :
    let v := a.averaged now (largest AirReport.co reports) (largest AirReport.no2 reports)
    let r := evaluateState c now reports a
    r.coReading = v.coReading ∧ r.noReading = v.noReading ∧ r.seeded = v.seeded ∧
      (r.fCO = v.fCO ∧ r.sCO = v.sCO ∧ r.fNO = v.fNO ∧ r.sNO = v.sNO) ∧
        r.candidate = some (airCandidate c v) ∧ r.state ≠ .blind := by
  dsimp only
  rw [evaluateState_fresh h]
  refine ⟨?_, ?_, ?_, ⟨?_, ?_, ?_, ?_⟩, ?_, moveAirState_ne_blind (airCandidate_ne_blind _ _)⟩
  all_goals rw [moveAirState_eq]

/-- The readings are those of the evaluation (R78). -/
theorem ZoneAir.averaged_readings (now co no2 : Nat) (a : ZoneAir) :
    (a.averaged now co no2).coReading = some { value := co, time := now } ∧
      (a.averaged now co no2).noReading = some { value := no2, time := now } := by
  unfold averaged seed
  split <;> exact ⟨rfl, rfl⟩

theorem ZoneAir.averaged_seeded (now co no2 : Nat) (a : ZoneAir) : (a.averaged now co no2).seeded = true := by
  unfold averaged seed move
  dsimp only
  split
  · assumption
  · rfl

/-- A seeded zone's averages move toward 256 times the readings (R82). -/
theorem ZoneAir.averaged_of_seeded (h : a.seeded = true) (now co no2 : Nat) :
    a.averaged now co no2 = { a with
      coReading := some { value := co, time := now }, noReading := some { value := no2, time := now }
      fCO := moveAverage 4 (co * 256) a.fCO, sCO := moveAverage 32 (co * 256) a.sCO
      fNO := moveAverage 4 (no2 * 256) a.fNO, sNO := moveAverage 32 (no2 * 256) a.sNO } := by
  unfold averaged seed move
  dsimp only
  rw [if_pos h]
  rfl

/-- A zone that was not seeded has its averages at 256 times the readings (R81). -/
theorem ZoneAir.averaged_of_unseeded (h : a.seeded = false) (now co no2 : Nat) :
    a.averaged now co no2 = { a with
      coReading := some { value := co, time := now }, noReading := some { value := no2, time := now }
      fCO := co * 256, sCO := co * 256, fNO := no2 * 256, sNO := no2 * 256, seeded := true } := by
  unfold averaged seed move
  dsimp only
  rw [if_neg (by simp [h])]
  simp only [fastDivisor, slowDivisor, moveAverage_self _ _ (.inl rfl), moveAverage_self _ _ (.inr rfl)]

/-! ### Without one -/

theorem evaluateState_stale : evaluateState c now [] a = evaluateStale c now a := rfl

/-- An evaluation without a fresh head writes state, dwell and candidate alone, and the candidate is absent (R79, R80). -/
theorem evaluateStale_eq (c : AirSettings) (now : Nat) (a : ZoneAir) :
    evaluateStale c now a = { a with
      state := if canHold c now a then a.state else .blind
      dwell := if canHold c now a then a.dwell else 0
      candidate := none } := by
  unfold evaluateStale
  split <;> rfl

/-- What the readings and the stale hold ask of a zone that holds (R79). -/
theorem canHold_iff :
    canHold c now a = true ↔ (∃ r, a.coReading = some r ∧ now ≤ r.time + c.staleHold) ∧ a.state ≠ .blind := by
  unfold canHold
  split
  · next none_ => simp [none_]
  · next r some_ => simp [some_, and_comm]

/-! ### In both -/

theorem moveAirState_antCO (cand : AirState) : (moveAirState c cand a).antCO = a.antCO := by rw [moveAirState_eq]

theorem ZoneAir.averaged_antCO (now co no2 : Nat) (a : ZoneAir) : (a.averaged now co no2).antCO = a.antCO := by
  cases h : a.seeded
  · rw [averaged_of_unseeded h]
  · rw [averaged_of_seeded h]

/-- The state of an evaluation is settled before the decay (R77, R92). -/
theorem evaluateState_antCO (c : AirSettings) (now : Nat) (reports : List AirReport) (a : ZoneAir) :
    (evaluateState c now reports a).antCO = a.antCO := by
  by_cases h : reports = []
  · rw [h, evaluateState_stale, evaluateStale_eq]
  · rw [evaluateState_fresh h, moveAirState_antCO]
    exact ZoneAir.averaged_antCO _ _ _ _

/-- The air fields after all six steps: those of steps 1 to 4, with the automatic demand, the decay and the flag of
AIR_BLIND. -/
theorem evaluateZone_eq (c : AirSettings) (now start : Nat) (quiet : Bool) (heads : Table Head) (z : Zone) :
    let a := evaluateState c now (freshReports heads now z.config.airHeads) z.air
    evaluateZone c now start quiet heads z = { a with
      blindReported := a.blindReported || blindDue c now start a, autoDemand := autoDemand c quiet z.config a
      antCO := z.air.antCO / 2 } := by
  dsimp only
  rw [← evaluateState_antCO c now (freshReports heads now z.config.airHeads) z.air]
  rfl

/-- The automatic demand is that of the averages after the evaluation, with the anticipation before its decay, and of the
air state after it (R89, R90). -/
theorem evaluateZone_autoDemand (c : AirSettings) (now start : Nat) (quiet : Bool) (heads : Table Head) (z : Zone) :
    let a := evaluateZone c now start quiet heads z
    a.autoDemand = max (autoStep c { a with antCO := z.air.antCO }) (demandFloor quiet z.config a.state) := by
  have ant := evaluateState_antCO c now (freshReports heads now z.config.airHeads) z.air
  show autoDemand c quiet z.config _ = _
  unfold autoDemand autoStep effectiveCO
  rw [ant]
  rfl

/-! ### The automatic step (R89) -/

/-- The percentage of a level, a ceiling between watch and act (R89). -/
theorem airPercent_spec {watch act : Nat} (level : Nat) (h : watch < act) :
    let p := airPercent level watch act
    (level ≤ watch → p = 0) ∧ (act ≤ level → p = 100) ∧
      (watch < level → level < act →
        (level - watch) * 100 ≤ p * (act - watch) ∧ p * (act - watch) < (level - watch) * 100 + (act - watch)) := by
  unfold airPercent
  refine ⟨fun low => if_pos low, fun high => by rw [if_neg (by omega), if_pos high], fun above below => ?_⟩
  rw [if_neg (by omega), if_neg (by omega)]
  generalize (level - watch) * 100 = x
  obtain ⟨d, hd⟩ : ∃ d, act - watch = d + 1 := ⟨act - watch - 1, by omega⟩
  rw [hd, Nat.add_sub_cancel]
  have whole := Nat.div_add_mod (x + d) (d + 1)
  have rest : (x + d) % (d + 1) < d + 1 := Nat.mod_lt _ (Nat.succ_pos d)
  rw [Nat.mul_comm (d + 1)] at whole
  omega

/-- The automatic step is the ceiling of the larger percentage over 25 (R89). -/
theorem autoStep_ceiling (c : AirSettings) (a : ZoneAir) :
    let p := max (airPercent (effectiveCO a) (c.watchCO * 256) (c.actCO * 256))
      (airPercent a.fNO (c.watchNO * 256) (c.actNO * 256))
    p ≤ 25 * autoStep c a ∧ 25 * autoStep c a < p + 25 := by
  unfold autoStep
  omega

end Sys2Proof.Machine

open Sys2Proof Sys2Proof.Machine

/-- Settles O38: the step is nearest to the share of the distance, and the readings are the largest of the fresh reports. -/
theorem averagesMoveByTheRoundedStep : Obligations.AveragesMoveByTheRoundedStep := by
  refine ⟨fun _ target average h => moveAverage_step h target average, fun c now start quiet heads z => ?_⟩
  intro fresh a some_
  obtain ⟨coReading, noReading, isSeeded, ⟨fCO, sCO, fNO, sNO⟩, _⟩ :=
    evaluateState_measures (c := c) (now := now) (a := z.air) some_
  obtain ⟨co, no⟩ := ZoneAir.averaged_readings now (largest AirReport.co fresh) (largest AirReport.no2 fresh) z.air
  refine ⟨_, _, coReading.trans co, noReading.trans no, fun r hr => ⟨le_largest _ hr, le_largest _ hr⟩,
    exists_largest _ some_, exists_largest _ some_, isSeeded.trans (ZoneAir.averaged_seeded _ _ _ _), fun h => ?_, fun h => ?_⟩
  · rw [ZoneAir.averaged_of_seeded h] at fCO sCO fNO sNO
    exact ⟨fCO, sCO, fNO, sNO⟩
  · rw [ZoneAir.averaged_of_unseeded h] at fCO sCO fNO sNO
    exact ⟨fCO, sCO, fNO, sNO⟩

/-- Settles O40: both percentages are ceilings, and the step is the ceiling of the larger over 25. -/
theorem theAutomaticStepIsACeiling : Obligations.TheAutomaticStepIsACeiling := by
  refine ⟨fun c a co no => ?_, fun c now start quiet heads z => ?_⟩
  · have coPercent := airPercent_spec (effectiveCO a) (Nat.mul_lt_mul_of_pos_right co (by decide : 0 < 256))
    have noPercent := airPercent_spec a.fNO (Nat.mul_lt_mul_of_pos_right no (by decide : 0 < 256))
    obtain ⟨coLow, coHigh, coBetween⟩ := coPercent
    obtain ⟨noLow, noHigh, noBetween⟩ := noPercent
    obtain ⟨low, high⟩ := autoStep_ceiling c a
    rw [← Nat.sub_mul] at coBetween noBetween
    exact ⟨_, _, autoStep_le c a, low, high, coLow, coHigh, coBetween, noLow, noHigh, noBetween⟩
  · refine (evaluateZone_autoDemand c now start quiet heads z).trans (congrArg _ ?_)
    cases (evaluateZone c now start quiet heads z).state <;> rfl

end

section
/-!
SUPPORT. The bounds of the accumulators (R83): what evaluates, credits or makes a zone's air fields keeps them, and every
other operation leaves the air fields of every zone.
-/
namespace Sys2Proof.Machine

variable {s t u : State}

/-! ### The accumulators of one zone -/

/-- An evaluation keeps the accumulators within their bounds (R76, R81, R82, R92). -/
theorem evaluateZone_inBounds (c : AirSettings) (now start : Nat) (quiet : Bool) (heads : Table Head) {z : Zone}
    (h : AirInBounds z.air) : AirInBounds (evaluateZone c now start quiet heads z) := by
  obtain ⟨fCO, sCO, fNO, sNO, antCO⟩ := h
  suffices measured : let a := evaluateState c now (freshReports heads now z.config.airHeads) z.air
      a.fCO ≤ 128000 ∧ a.sCO ≤ 128000 ∧ a.fNO ≤ 2560000 ∧ a.sNO ≤ 2560000 by
    obtain ⟨fast, slow, fastNO, slowNO⟩ := measured
    rw [evaluateZone_eq]
    exact ⟨fast, slow, fastNO, slowNO, (Nat.div_le_self _ 2).trans antCO⟩
  by_cases none_ : freshReports heads now z.config.airHeads = []
  · rw [none_, evaluateState_stale, evaluateStale_eq]
    exact ⟨fCO, sCO, fNO, sNO⟩
  · have co := largest_le fun r hr => (freshReports_bounds (heads := heads) (now := now) (l := z.config.airHeads) hr).1
    have no := largest_le fun r hr => (freshReports_bounds (heads := heads) (now := now) (l := z.config.airHeads) hr).2
    obtain ⟨_, _, _, ⟨f, sl, fn, sn⟩, _⟩ := evaluateState_measures (c := c) (now := now) (a := z.air) none_
    dsimp only
    rw [f, sl, fn, sn]
    have coTarget := Nat.mul_le_mul_right 256 co
    have noTarget := Nat.mul_le_mul_right 256 no
    cases seeded : z.air.seeded
    · rw [ZoneAir.averaged_of_unseeded seeded]
      exact ⟨coTarget, coTarget, noTarget, noTarget⟩
    · rw [ZoneAir.averaged_of_seeded seeded]
      exact ⟨moveAverage_le (.inl rfl) coTarget fCO, moveAverage_le (.inr rfl) coTarget sCO,
        moveAverage_le (.inl rfl) noTarget fNO, moveAverage_le (.inr rfl) noTarget sNO⟩

theorem airInBounds_start : AirInBounds ZoneAir.start := by simp [AirInBounds, ZoneAir.start]

/-! ### Changes of the zone table -/

/-- The fields beside the zone records. -/
def besideZones : List Field :=
  [.pending, .partTime, .resetCause, .device, .bays, .settleTime, .holdCount, .steers, .passages, .passageSettings, .signs,
    .patterns, .airSettings, .startTime, .nextEvaluation, .fans, .fanSettings, .lamps, .faultThreshold, .fireLine, .quiet,
    .heads, .segments, .lostTime, .clients, .sources, .fetchMask, .response, .miso]

/-- A change keeps every zone's accumulators within their bounds. -/
def KeepsAir (s t : State) : Prop := AccumulatorsBounded s → AccumulatorsBounded t

namespace KeepsAir

theorem refl (s : State) : KeepsAir s s := id

theorem trans (h : KeepsAir s t) (k : KeepsAir t u) : KeepsAir s u := k ∘ h

theorem foldl {α : Type} {f : State → α → State} (h : ∀ s x, KeepsAir s (f s x)) (l : List α) (s : State) :
    KeepsAir s (l.foldl f s) := by
  induction l generalizing s with
  | nil => exact refl s
  | cons x l ih => exact (h s x).trans (ih _)

theorem ite {c : Prop} [Decidable c] (h : KeepsAir s t) (k : KeepsAir s u) : KeepsAir s (if c then t else u) := by
  split
  exacts [h, k]

theorem when {c : Prop} [Decidable c] (h : KeepsAir s t) : KeepsAir s (if c then t else s) := ite h (refl s)

theorem beside (h : SameExcept besideZones s t) : KeepsAir s t := fun hs => by
  have zones : t.zones = s.zones := h .zones (by decide)
  rwa [AccumulatorsBounded, zones]

/-- Zone records changed, each within its bounds where it was. -/
theorem mapWith {f : Nat → Zone → Zone} (zones : t.zones = s.zones.mapWith f)
    (h : ∀ n z, AirInBounds z.air → AirInBounds (f n z).air) : KeepsAir s t := fun hs => by
  rw [AccumulatorsBounded, zones, EachRecord.mapWith_iff]
  exact hs.imp fun q _ => h q.1 q.2

/-- A zone record put, within its bounds. -/
theorem put {n : Nat} {z : Zone} (zones : t.zones = s.zones.put n z) (h : AccumulatorsBounded s → AirInBounds z.air) :
    KeepsAir s t := fun hs => by
  rw [AccumulatorsBounded, zones]
  exact EachRecord.put hs (h hs)

/-- Changes of bays and of steers leave every zone's air fields. -/
theorem minors (h : Minors (fun _ => True) s t) : KeepsAir s t := by
  obtain ⟨_, zones⟩ := h.zones
  exact mapWith zones fun _ _ => id

theorem changeBay (g : Nat) (f : Bay → Bay) (s : State) : KeepsAir s (changeBay g f s) := minors (.bay g f s)

/-! ### Guidance, demand, fire and stacks -/

/-- Guidance states derived again, with the redirect pass (R11, R12, R66). -/
theorem deriveAndRedirect (zs : List Nat) (s : State) : KeepsAir s (deriveAndRedirect zs s) :=
  (mapWith (s := s) (t := refreshGuidance zs s) (State.setZones_zones _ _) fun _ _ h => by split <;> exact h).trans
    (minors (redirectPass_minors _ _))

/-- Demand steps stored, with what follows of the fans (R102). -/
theorem settleDemand (zs : List Nat) (s : State) : KeepsAir s (settleDemand zs s) :=
  (mapWith (s := s) (t := storeDemand zs s) (State.setZones_zones _ _) fun _ _ h => by split <;> exact h).trans
    (beside ((retargetZones_frame (by decide) _).2 (.refl _ _)))

theorem moveFire (cause : FireCause) (move : Nat → Zone → FireMove) (s : State) : KeepsAir s (moveFire cause move s) := by
  have stored : KeepsAir s (storeFire move s) := mapWith (State.setZones_zones _ _) fun _ _ => id
  have raised (zs : List Nat) (v : State) : KeepsAir v (zs.foldl (raiseFire cause) v) :=
    foldl (fun v z => beside ((raiseFire_frame (by decide) _ _).2 (.refl _ v))) zs v
  have driven (zs : List Nat) (v : State) :
      KeepsAir v (settleLampsOf zs (gate (retargetZones zs (Machine.settleDemand zs v)))) :=
    (settleDemand zs v).trans (beside (by simp (disch := decide)))
  exact ((stored.trans (raised _ _)).trans (driven _ _)).trans (deriveAndRedirect _ _)

theorem wakeEvent (cause : WakeCause) (zones : List Nat) (s : State) : KeepsAir s (wakeEvent cause zones s) :=
  beside ((wakeEvent_frame (by decide) _ _).2 (.refl _ s))

theorem activateFire (s : State) : KeepsAir s (activateFire s) := by
  have moved : KeepsAir s (Machine.moveFire .line activationMove (s.setFireLine (s.fireLine.settle true))) :=
    (beside (by simp (disch := decide))).trans (moveFire _ _ _)
  exact ite moved (moved.trans (wakeEvent _ _ _))

theorem releaseFire (s : State) : KeepsAir s (releaseFire s) :=
  (beside (by simp (disch := decide))).trans (moveFire _ _ _)

theorem changeStack (z : Nat) (r : Zone) (stack : List StackEntry) (s : State) : KeepsAir s (changeStack z r stack s) := by
  have stacked : KeepsAir s (s.updZone z fun x => { x with stack := stack }) :=
    mapWith (State.setZones_zones _ _) fun _ _ h => by split <;> exact h
  have driven (v : State) : KeepsAir v (gate (Machine.settleDemand [z] v)) :=
    (settleDemand _ v).trans (beside ((gate_frame (by decide)).2 (.refl _ _)))
  have lit (v : State) : KeepsAir v (settleLampsOf [z] v) := beside ((settleLampsOf_frame (by decide) _).2 (.refl _ v))
  have settled := (stacked.trans
    (when (c := effectiveVent stack ≠ effectiveVent r.stack ∨ ventLevel stack ≠ ventLevel r.stack) (driven _))).trans
    (when (c := effectiveLight stack ≠ effectiveLight r.stack) (lit _))
  exact ite (settled.trans (deriveAndRedirect _ _)) settled

/-! ### Credits and evaluations (R77, R91) -/

/-- A credit saturates at the bound of antCO (R91). -/
theorem creditAir (z amount : Nat) (s : State) : KeepsAir s (creditAir z amount s) :=
  mapWith (State.setZones_zones _ _) fun _ _ h => by
    obtain ⟨fCO, sCO, fNO, sNO, antCO⟩ := h
    split
    · exact ⟨fCO, sCO, fNO, sNO, min_le_left _ _⟩
    · exact ⟨fCO, sCO, fNO, sNO, antCO⟩

theorem airEvaluation (s : State) : KeepsAir s (airEvaluation s) := by
  have evaluated : KeepsAir s (evaluateZones s) := mapWith (State.setZones_zones _ _) fun _ _ => evaluateZone_inBounds _ _ _ _ _
  have noted (l : List Raise) (v : State) (x : Option Nat) : KeepsAir v ((raiseAll l v).setNextEvaluation x) :=
    beside ((State.setNextEvaluation_frame (by decide) _).2 ((raiseAll_frame (by decide) _).2 (.refl _ v)))
  have handed (v : State) : KeepsAir v (handOnAir v) :=
    ((settleDemand v.zones.keys v).trans (beside (by simp (disch := decide)))).trans (deriveAndRedirect _ _)
  exact ((evaluated.trans (noted _ _ _)).trans (handed _)).trans (beside ((wakeByAir_frame (by decide)).2 (.refl _ _)))

/-! ### The device state -/

theorem endStarting (s : State) : KeepsAir s (endStarting s) :=
  when (((beside (t := s.setDevice .running) (by simp (disch := decide))).trans (deriveAndRedirect _ _)).trans
    (beside ((settleAllLamps_frame (by decide)).2 (.refl _ _))))

theorem start (s : State) : KeepsAir s (start s) :=
  ((beside (t := takeUpFire (enterStarting s)) (by simp (disch := decide))).trans (deriveAndRedirect _ _)).trans
    (beside ((settleAllLamps_frame (by decide)).2 (.refl _ _)))

/-! ### Passages, bays and heads -/

theorem takePassage (p : Nat) (gap : Int) (occupancy : Nat) (s : State) : KeepsAir s (takePassage p gap occupancy s) := by
  have credited (z : Option Nat) (c : VehicleClass) (v : State) : KeepsAir v (creditPassage z c v) := by
    cases z with
    | none => exact refl v
    | some z => exact (creditAir z _ v).trans (beside ((presence_frame (by decide) _).2 (.refl _ _)))
  have guided (r : Passage) (c : VehicleClass) (v : State) : KeepsAir v (forwardPassage p r c v) :=
    (when (minors (entryGuidance_minors p r c ⟨fun _ _ => trivial, fun _ _ => trivial⟩))).trans (when (wakeEvent _ _ _))
  unfold Machine.takePassage
  split
  · exact refl s
  · next r _ =>
    have counted (x : Passage) : KeepsAir s (s.setPassages (s.passages.put p x)) := beside (by simp (disch := decide))
    dsimp only
    split
    · exact ((counted _).trans (credited _ _ _)).trans (guided _ _ _)
    · exact ((counted _).trans (credited _ _ _)).trans (beside ((reversePassage_frame (by decide) _ _ _).2 (.refl _ _)))

theorem loopReport (segment address : Nat) (payload : List Byte) (s : State) :
    KeepsAir s (loopReport segment address payload s) := by
  unfold Machine.loopReport
  split
  · exact (beside (by simp (disch := decide))).trans (foldl (fun v x => takePassage _ _ _ v) _ _)
  · exact refl s

theorem departure (g : Nat) (s : State) : KeepsAir s (departure g s) := by
  unfold Machine.departure
  split
  · exact refl s
  · exact ((changeBay g _ s).trans (creditAir _ _ _)).trans (beside ((presence_frame (by decide) _).2 (.refl _ _)))

/-- Of what a sensor's value does to a bay, a departure alone touches the air fields (R28 to R35). -/
theorem applyRaw (g : Nat) (raw : Raw) (s : State) : KeepsAir s (applyRaw g raw s) := by
  unfold Machine.applyRaw
  split
  · exact refl s
  · split
    case h_2 => exact minors (changeBayEnding_minors _ _ _ s)
    case h_4 => exact when (minors (arrival_minors g s))
    case h_10 => exact when (departure g s)
    case h_1 | h_5 | h_7 => exact refl s
    case h_3 | h_6 | h_8 | h_9 | h_11 | h_12 => exact changeBay g _ s

theorem bayReport (segment address : Nat) (payload : List Byte) (s : State) :
    KeepsAir s (bayReport segment address payload s) :=
  foldl (fun v p => by
    unfold takeRaw
    split
    · exact refl v
    · exact when (applyRaw _ _ v)) _ s

theorem hostSet (g : Nat) (b : Bay) (present : Bool) (s : State) : KeepsAir s (hostSet g b present s) :=
  ite (refl s) (ite (changeBay g _ s) (ite (minors (arrival_minors g s)) (departure g s)))

theorem headGone (segment address : Nat) (s : State) : KeepsAir s (headGone segment address s) :=
  minors (headGone_minors segment address s)

theorem handReport (segment address : Nat) (h : Head) (payload : List Byte) (s : State) :
    KeepsAir s (handReport segment address h payload s) := by
  unfold Machine.handReport
  split
  · exact bayReport _ _ _ s
  · exact refl s
  · exact (loopReport _ _ _ s).trans (beside ((flipToggle_frame (by decide) _ _).2 (.refl _ _)))
  · exact beside (by simp (disch := decide))
  · exact beside (by simp (disch := decide))
  · exact beside (by simp (disch := decide))

theorem answerHead (segment address : Nat) (r : Response) (s : State) : KeepsAir s (answerHead segment address r s) := by
  unfold Machine.answerHead
  split
  · exact refl s
  · next found => exact ite ((beside (by simp (disch := decide))).trans (handReport _ _ _ _ _)) (minors (mismatchHead_minors found r))

/-- An exchange ends (R160). -/
theorem endExchange (segment : Nat) (x : Exchange) {settle : State → State} (h : ∀ v, KeepsAir v (settle v)) (s : State) :
    KeepsAir s (endExchange segment x settle s) := by
  have freed (g : Segment) : KeepsAir s (s.putSegment segment g) := beside (by simp (disch := decide))
  have walked (v : State) (b : Bool) : KeepsAir v (endWarming (walkSegment segment (warmPolled segment x b v))) :=
    beside (by simp (disch := decide))
  exact ite (freed _) ((((freed _).trans (h _)).trans (walked _ _)).trans (endStarting _))

/-! ### Zones that come and go, and the two resets -/

theorem replaceZone {n : Nat} {z : Zone} (c : ZoneConfig) (hz : s.zone n = some z) : KeepsAir s (replaceZone n z c s) := by
  obtain ⟨x, zones, _⟩ := replaceZone_zones n z c s
  exact put zones fun hs => hs.of_find (x := z) hz

theorem settleZone (n : Nat) (s : State) : KeepsAir s (settleZone n s) :=
  beside ((settleZone_frame (by decide) n).2 (.refl _ s))

theorem setZoneConfig (n : Nat) (c : ZoneConfig) (s : State) : KeepsAir s (setZoneConfig n c s) := by
  refine KeepsAir.trans ?_ (settleZone n _)
  split
  · exact put rfl fun _ => airInBounds_start
  · next hz => exact replaceZone c hz

theorem removeZone (n : Nat) (z : Zone) (s : State) : KeepsAir s (removeZone n z s) :=
  KeepsAir.trans (t := dropZone n z s) (fun hs q hq => hs q (Table.mem_del hq)) (settleZone n _)

theorem softRestart (s : State) : KeepsAir s (softRestart s) :=
  mapWith (softRestart_zones s) fun _ _ _ => airInBounds_start

theorem coldReset (cause : ColdCause) (s : State) : KeepsAir s (coldReset cause s) := fun _ _ hq => nomatch hq

end KeepsAir

end Sys2Proof.Machine
end

section
/-!
SUPPORT. Every request, every event and so every step keeps the bounds of the accumulators.
-/
namespace Sys2Proof.Machine

variable {s t u : State}

/-! ### The accepted cases of a check, as conditions on the values that it reads -/

@[simp] theorem gives_bind {α β : Type} {P : β → Prop} {x : Check α} {f : α → Check β} :
    Gives P (x >>= f) ↔ ∀ a, x = .ok a → Gives P (f a) :=
  ⟨fun h a ha b hb => h b (by rw [ha]; exact hb), Gives.bind⟩

@[simp] theorem gives_pure {α : Type} {P : α → Prop} {a : α} : Gives P (pure a : Check α) ↔ P a :=
  ⟨fun h => h a rfl, Gives.pure⟩

@[simp] theorem gives_map {α β : Type} {P : β → Prop} {x : Check α} {f : α → β} :
    Gives P (f <$> x) ↔ ∀ a, x = .ok a → P (f a) := by
  rw [map_eq_pure_bind, gives_bind]
  simp only [gives_pure]

@[simp] theorem gives_error {α : Type} {P : α → Prop} {r : Reply} : Gives P (.error r : Check α) ↔ True :=
  iff_true_intro (Gives.error r)

@[simp] theorem gives_ite {α : Type} {P : α → Prop} {c : Prop} [Decidable c] {x y : Check α} :
    Gives P (if c then x else y) ↔ (c → Gives P x) ∧ (¬c → Gives P y) := by
  split <;> simp_all

/-- The accepted cases of a serving rule keep the bounds. -/
abbrev ServesAir (s : State) : Check Served → Prop := Gives fun p => KeepsAir s p.2

/-- The accepted cases of a serving rule leave the zone records. -/
abbrev LeavesZones (s : State) : Check Served → Prop := Gives fun p => SameExcept besideZones s p.2

theorem LeavesZones.serves {c : Check Served} (h : LeavesZones s c) : ServesAir s c := fun p hp => .beside (h p hp)

theorem KeepsAir.served {c : Check Served} (h : ServesAir s c) : KeepsAir s (served s c).2 := by
  cases c with
  | error r => exact .refl s
  | ok p => exact h p rfl

/-! ### AMEND (R183) -/

theorem amendZone_air (client : Nat) (body : List Byte) : ServesAir s (amendZone client body s) := by
  refine Gives.bind fun ⟨n, body⟩ _ => Gives.bind fun z hz => Gives.bind fun ⟨field, body⟩ _ => ?_
  have replaced (c : ZoneConfig) : KeepsAir s (replaceZone n z c s) := .replaceZone c (needZone_ok hz).2
  have flags (c : ZoneConfig) : KeepsAir s (settleZone n (settleDemand [n] (replaceZone n z c s))) :=
    ((replaced c).trans (.settleDemand _ _)).trans (.settleZone n _)
  dsimp only
  split <;> simp [amendStructure, amendAirHeads, amendSetting, amendNumber, amendZoneFlags, notAmendable, replaced,
    KeepsAir.ite (replaced _) (flags _)]

theorem amendBay_air (client : Nat) (body : List Byte) : ServesAir s (amendBay client body s) := by
  refine Gives.bind fun ⟨_, body⟩ _ => Gives.bind fun ⟨g, b⟩ _ => Gives.bind fun ⟨field, body⟩ _ => ?_
  dsimp only
  split <;> simp [amendLocked, amendBayKind, amendBinding, amendOccupancy, notAmendable, KeepsAir.changeBay, KeepsAir.hostSet]

theorem amendLanePoller_air (client : Nat) (body : List Byte) : ServesAir s (amendLanePoller client body s) := by
  have set (v : Nat) : KeepsAir s (setLost v s) := .minors (setLost_minors v s)
  refine Gives.bind fun ⟨field, body⟩ _ => ?_
  dsimp only
  split <;> simp [amendNumber, notAmendable, set]

theorem KeepsAir.configureHead (segment address : Nat) (kind : HeadKind) (wake : Bool) (s : State) :
    KeepsAir s (configureHead segment address kind wake s) := by
  have stored (x : Head) : KeepsAir s (s.setHeads (s.heads.put (headKey segment address) x)) :=
    beside (by simp (disch := decide))
  have warm (v : State) : KeepsAir v (if v.device = .warming then joinWarmSet (headKey segment address) v else v) :=
    when (beside ((joinWarmSet_frame (by decide) _).2 (.refl _ _)))
  refine ((stored (Head.listed kind wake)).trans (headGone segment address _)).trans ((warm _).trans ?_)
  exact (beside ((State.putSegment_frame (by decide) _ _).2 (.refl _ _))).trans (endStarting _)

theorem amendHead_air (client : Nat) (body : List Byte) : ServesAir s (amendHead client body s) := by
  have put (t : Table Head) : KeepsAir s (s.setHeads t) := .beside (by simp (disch := decide))
  refine Gives.bind fun ⟨id, body⟩ _ => Gives.bind fun h _ => Gives.bind fun ⟨field, body⟩ _ => ?_
  dsimp only
  split <;> simp [amendHeadWake, amendHeadKind, notAmendable, put, KeepsAir.configureHead]

theorem amendPassage_zones (client : Nat) (body : List Byte) : LeavesZones s (amendPassage client body s) := by
  refine Gives.bind fun ⟨n, body⟩ _ => Gives.bind fun p _ => Gives.bind fun ⟨field, body⟩ _ => ?_
  dsimp only
  split <;> simp (disch := decide) [amendPreference, amendPassageWake, amendPassageNumber, amendNumber,
    amendPassageStructure, setPassageConfig, notAmendable]

theorem amendSign_zones (client : Nat) (body : List Byte) : LeavesZones s (amendSign client body s) := by
  refine Gives.bind fun ⟨n, body⟩ _ => Gives.bind fun r _ => Gives.bind fun ⟨field, body⟩ _ => ?_
  dsimp only
  split <;> simp (disch := decide) [amendSignField, amendNumber, setSignConfig, notAmendable]

theorem fanField_zones (client n : Nat) (f : Fan) (body : List Byte) :
    Gives (SameExcept besideZones s) (fanField client n f body s).2 := by
  unfold fanField
  split <;> simp (disch := decide) [amendLockout, amendAssist, amendFanHead, amendFanZone, retargetFan, changeFans]

theorem amendFan_zones (client : Nat) (body : List Byte) : LeavesZones s (amendFan client body s) := by
  refine Gives.bind fun ⟨n, body⟩ _ => Gives.bind fun f _ => Gives.pure ?_
  have changed := fanField_zones (s := s) client n f body
  generalize (fanField client n f body s).2 = c at changed
  cases c with
  | error r => exact .refl _ s
  | ok t => exact changed t rfl

theorem lampField_zones (client n : Nat) (g : LampGroup) (body : List Byte) :
    Gives (fun p => SameExcept besideZones s p.2) (lampField client n g body s).2 := by
  unfold lampField
  split <;> simp (disch := decide) [amendGuard, amendLow, amendHoldTime, amendLampFlags, amendLampHead, amendLampZone]

theorem amendLamp_zones (client : Nat) (body : List Byte) : LeavesZones s (amendLamp client body s) := by
  refine Gives.bind fun ⟨n, body⟩ _ => Gives.bind fun g _ => ?_
  have changed := lampField_zones (s := s) client n g body
  dsimp only
  split
  · next c t hc => exact Gives.pure (changed _ hc)
  · exact Gives.pure (.refl _ s)

theorem setClientLevel_zones (slot level : Nat) (s : State) : LeavesZones s (setClientLevel slot level s) := by
  simp (disch := decide) [setClientLevel]

theorem setSource_zones (n level : Nat) (enabled : Bool) (s : State) : LeavesZones s (setSource n level enabled s) := by
  simp (disch := decide) [setSource]

/-- The settings records and the tables without a record of their own lie beside the zones. -/
theorem amendSettings_zones (client : Nat) (body : List Byte) :
    LeavesZones s (amendBaySettings client body s) ∧ LeavesZones s (amendPassageSettings client body s) ∧
      LeavesZones s (amendPattern client body s) ∧ LeavesZones s (amendEvaluator client body s) ∧
      LeavesZones s (amendFanDrive client body s) ∧ LeavesZones s (amendLampControl client body s) ∧
      LeavesZones s (amendQuiet client body s) ∧ LeavesZones s (amendClient client body s) ∧
      LeavesZones s (amendAttention client body s) := by
  refine ⟨?_, ?_, ?_, ?_, ?_, ?_, ?_, ?_, ?_⟩
  case refine_4 => simp (disch := decide) [amendEvaluator]
  case refine_3 =>
    refine Gives.bind fun ⟨code, body⟩ _ => Gives.bind fun _ _ => Gives.bind fun ⟨field, body⟩ _ => ?_
    dsimp only
    split <;> simp (disch := decide) [setPattern, notAmendable]
  case refine_8 =>
    refine Gives.bind fun _ _ => Gives.bind fun ⟨slot, body⟩ _ => Gives.bind fun _ _ => Gives.bind fun ⟨field, body⟩ _ => ?_
    dsimp only
    split <;> simp [setClientLevel_zones, notAmendable]
  case refine_9 =>
    refine Gives.bind fun ⟨n, body⟩ _ => Gives.bind fun _ _ => Gives.bind fun ⟨field, body⟩ _ => ?_
    dsimp only
    split <;> simp [setSource_zones, notAmendable]
  all_goals
    refine Gives.bind fun ⟨field, body⟩ _ => ?_
    dsimp only
    split <;> simp (disch := decide) [amendNumber, amendLimit, amendStartLimit, notAmendable]

theorem serveAmend_air (client : Nat) (body : List Byte) (s : State) : KeepsAir s (serveAmend client body s).2 := by
  refine .served (Gives.bind fun ⟨cls, body⟩ _ => ?_)
  obtain ⟨bays, limits, pattern, evaluator, drive, lamps, quiet, clients, attention⟩ :=
    amendSettings_zones (s := s) client body
  dsimp only
  unfold amendClass
  split
  · exact amendZone_air _ _
  · exact amendBay_air _ _
  · exact bays.serves
  · simp [amendSteer, notAmendable]
  · exact Gives.error _
  · exact (amendPassage_zones _ _).serves
  · exact limits.serves
  · exact (amendSign_zones _ _).serves
  · exact pattern.serves
  · exact evaluator.serves
  · exact (amendFan_zones _ _).serves
  · exact drive.serves
  · exact (amendLamp_zones _ _).serves
  · exact lamps.serves
  · simp [amendStack, notAmendable]
  · exact Gives.error _
  · exact quiet.serves
  · exact amendHead_air _ _
  · exact amendLanePoller_air _ _
  · exact clients.serves
  · exact attention.serves
  · exact Gives.error _

/-! ### CONFIGURE (R183) -/

theorem configureZone_air (body : List Byte) : ServesAir s (configureZone body s) := by
  simp [configureZone, KeepsAir.removeZone, KeepsAir.setZoneConfig]

theorem configureBay_air (body : List Byte) : ServesAir s (configureBay body s) := by
  simp [configureBay, KeepsAir.changeBay]

theorem configureHeadRecord_air (body : List Byte) : ServesAir s (configureHeadRecord body s) := by
  have removed (segment address : Nat) : KeepsAir s (removeHead segment address s) :=
    (KeepsAir.beside (by simp (disch := decide))).trans (.endStarting _)
  simp [configureHeadRecord, removed, KeepsAir.configureHead]

theorem setPatterns_zones (l : List (Nat × Pattern)) (s : State) :
    SameExcept besideZones s (l.foldl (fun s e => setPattern e.1 e.2 s) s) :=
  SameExcept.foldl (fun s e => by simp (disch := decide) [setPattern]) l s

/-- No CONFIGURE but those of a zone, a bay and a head writes the zone records. -/
theorem configureOthers_zones (client : Nat) (body : List Byte) :
    (LeavesZones s (configureBaySettings body s) ∧ LeavesZones s (configurePassage body s) ∧
      LeavesZones s (configurePassageSettings body s) ∧ LeavesZones s (configureSign body s)) ∧
      (LeavesZones s (configurePatterns body s) ∧ LeavesZones s (configureEvaluator body s) ∧
        LeavesZones s (configureFan body s) ∧ LeavesZones s (configureFanDrive body s)) ∧
      (LeavesZones s (configureLamp body s) ∧ LeavesZones s (configureLampControl body s) ∧
        LeavesZones s (configureQuiet body s) ∧ LeavesZones s (configureLanePoller body s)) ∧
      LeavesZones s (configureClient client body s) ∧ LeavesZones s (configureAttention body s) := by
  refine ⟨⟨?_, ?_, ?_, ?_⟩, ⟨?_, ?_, ?_, ?_⟩, ⟨?_, ?_, ?_, ?_⟩, ?_, ?_⟩
  all_goals simp (disch := decide) [configureBaySettings, configurePassage, configurePassageSettings, configureSign,
    configurePatterns, setPatterns_zones, configureEvaluator, configureFan, changeFans, configureFanDrive, configureLamp,
    configureLampControl, configureQuiet, configureLanePoller, configureClient, setClientLevel_zones, configureAttention,
    setSource_zones]

theorem serveConfigure_air (client : Nat) (body : List Byte) (s : State) : KeepsAir s (serveConfigure client body s).2 := by
  refine .served (Gives.bind fun ⟨cls, body⟩ _ => ?_)
  obtain ⟨⟨bays, passage, limits, sign⟩, ⟨patterns, evaluator, fan, drive⟩, ⟨lamp, lamps, quiet, poller⟩, clients, attention⟩ :=
    configureOthers_zones (s := s) client body
  dsimp only
  unfold configureClass
  split
  · exact configureZone_air _
  · exact configureBay_air _
  · exact bays.serves
  · exact passage.serves
  · exact limits.serves
  · exact sign.serves
  · exact patterns.serves
  · exact evaluator.serves
  · exact fan.serves
  · exact drive.serves
  · exact lamp.serves
  · exact lamps.serves
  · exact quiet.serves
  · exact configureHeadRecord_air _
  · exact poller.serves
  · exact clients.serves
  · exact attention.serves
  · exact Gives.error _

/-! ### Holds, service and steers (R36 to R66) -/

theorem KeepsAir.changeBayEnding (g : Nat) (e : HoldEnding) (f : Bay → Bay) (s : State) :
    KeepsAir s (changeBayEnding g e f s) := minors (changeBayEnding_minors g e f s)

theorem serveClaim_air (client : Nat) (body : List Byte) (s : State) : KeepsAir s (serveClaim client body s).2 := by
  refine .served (Gives.bind fun _ _ => Gives.bind fun ⟨_, _⟩ _ => Gives.bind fun ⟨_, _⟩ _ => Gives.bind fun _ _ =>
    Gives.bind fun ⟨_, _⟩ _ => Gives.bind fun a _ => Gives.bind fun ⟨⟨_, _⟩, _⟩ _ => Gives.bind fun _ _ =>
      Gives.bind fun ⟨c, t⟩ hc => Gives.pure (.minors ?_))
  cases a with
  | bay i g b => exact claimBay_minors _ _ _ _ _ s _ hc
  | anyOf k => exact claimAny_minors _ _ _ _ s _ hc

theorem serveRelease_air (client : Nat) (body : List Byte) (s : State) : KeepsAir s (serveRelease client body s).2 := by
  refine .served ?_
  simp [KeepsAir.changeBayEnding]

theorem serveRetire_air (client : Nat) (body : List Byte) (s : State) : KeepsAir s (serveRetire client body s).2 := by
  refine .served ?_
  simp [KeepsAir.refl, KeepsAir.changeBayEnding]

theorem serveCommission_air (client : Nat) (body : List Byte) (s : State) :
    KeepsAir s (serveCommission client body s).2 := by
  refine .served ?_
  simp [KeepsAir.refl, KeepsAir.changeBay]

theorem serveSteer_air (client : Nat) (body : List Byte) (s : State) : KeepsAir s (serveSteer client body s).2 := by
  have full (p : Nat) (r : Passage) : KeepsAir s (steerFull p r s).2 := .beside (by simp (disch := decide) [steerFull])
  refine .served (Gives.bind fun _ hg => Gives.bind fun ⟨p, _⟩ _ => Gives.bind fun r _ =>
    Gives.bind fun _ _ => Gives.bind fun ⟨f, _⟩ _ => ?_)
  dsimp only
  split
  · exact Gives.pure (full _ _)
  · next z hz =>
    split
    · exact Gives.pure (full _ _)
    · next id t hslot =>
      exact Gives.pure (.minors (issueKiosk_minors ⟨fun _ _ => trivial, fun _ _ => trivial⟩ (require_ok.1 hg) hz hslot))

theorem serveCancelSteer_air (client : Nat) (body : List Byte) (s : State) :
    KeepsAir s (serveCancelSteer client body s).2 :=
  .served (Gives.bind fun ⟨_, _⟩ _ => Gives.bind fun _ _ => Gives.pure (.minors (cancelSteer_minors _ _ s)))

/-! ### The other requests -/

theorem servePush_air (client : Nat) (body : List Byte) (s : State) : KeepsAir s (servePush client body s).2 := by
  refine .served ?_
  simp [KeepsAir.changeStack]

theorem servePop_air (client : Nat) (body : List Byte) (s : State) : KeepsAir s (servePop client body s).2 := by
  refine .served ?_
  simp [KeepsAir.changeStack]

theorem serveDeclareFire_air (client : Nat) (body : List Byte) (s : State) :
    KeepsAir s (serveDeclareFire client body s).2 :=
  .served (Gives.bind fun _ _ => Gives.pure ((KeepsAir.moveFire _ _ s).trans (.wakeEvent _ _ _)))

theorem serveClearFire_air (client : Nat) (body : List Byte) (s : State) : KeepsAir s (serveClearFire client body s).2 :=
  .served (Gives.bind fun _ _ => Gives.pure (.moveFire _ _ s))

theorem serveQuiet_air (client : Nat) (body : List Byte) (s : State) : KeepsAir s (serveQuiet client body s).2 :=
  .served (Gives.bind fun ⟨_, _⟩ _ => Gives.bind fun _ _ => Gives.bind fun _ _ => Gives.bind fun _ _ =>
    Gives.bind fun _ _ => Gives.bind fun _ _ => Gives.pure (.beside ((takeQuiet_frame (by decide) _).2 (.refl _ s))))

theorem serveWake_zones (client : Nat) (body : List Byte) (s : State) :
    SameExcept besideZones s (serveWake client body s).2 := by
  unfold serveWake
  split <;> simp (disch := decide)

theorem serveFetch_zones (client : Nat) (body : List Byte) (s : State) :
    SameExcept besideZones s (serveFetch client body s).2 := by
  unfold serveFetch
  split <;> simp (disch := decide)

theorem serveGo_air (client : Nat) (body : List Byte) (s : State) : KeepsAir s (serveGo client body s).2 := by
  unfold serveGo
  split
  · exact .refl s
  · split
    · exact .refl s
    · exact .start s

theorem serveRestart_air (client : Nat) (body : List Byte) (s : State) : KeepsAir s (serveRestart client body s).2 := by
  unfold serveRestart
  split
  · exact .refl s
  · exact .softRestart s

/-- A request keeps what its serving rule keeps: reading a frame and answering one write the two buffers alone (R179). -/
theorem KeepsAir.request {m : Option Nat} {rule : Rule} {c : Byte} {g : Half} {b : List Byte}
    (h : KeepsAir (received b s) (rule c.toNat b (received b s)).2) : KeepsAir s (request m rule c g b s) := by
  have answered (r : Reply) (v : State) : KeepsAir v (respond g r v) := .beside (by simp (disch := decide))
  have read : KeepsAir s (received b s) := .beside (by simp (disch := decide))
  unfold Machine.request
  split
  · exact .beside ((readOut_frame (by decide) _ _).2 (.refl _ s))
  · exact .ite read (.ite (read.trans (answered _ _)) (.ite (read.trans (answered _ _)) ((read.trans h).trans (answered _ _))))

/-! ### The events -/

theorem KeepsAir.raise (n : Nat) (zones : List Nat) (detail : List Byte) (s : State) :
    KeepsAir s (raise n zones detail s) := beside ((raise_frame (by decide) _ _ _).2 (.refl _ s))

theorem quietInChange_air (asserted : Bool) (s : State) :
    KeepsAir s (if asserted = s.quiet.line then s else if asserted then quietInRises s else quietInFalls s) :=
  .ite (.refl s) (.ite (.beside (by simp (disch := decide))) (.beside (by simp (disch := decide))))

theorem stackEntryExpiry_air (zone position : Nat) (h : exec (.stackEntryExpiry zone position) s = .next t) :
    KeepsAir s t := by
  cases h
  split
  · exact .refl s
  · split
    · exact .refl s
    · split
      · exact .refl s
      · exact .when ((KeepsAir.changeStack _ _ _ s).trans (.raise _ _ _ _))

/-- Every command keeps the bounds (R83). -/
theorem exec_air {c : Instr} (h : exec c s = .next t) : KeepsAir s t := by
  cases c with
  | identify | look | requestKindUnknown => cases h; exact .request (.refl _)
  | amend => cases h; exact .request (serveAmend_air _ _ _)
  | claim => cases h; exact .request (serveClaim_air _ _ _)
  | release => cases h; exact .request (serveRelease_air _ _ _)
  | retire => cases h; exact .request (serveRetire_air _ _ _)
  | commission => cases h; exact .request (serveCommission_air _ _ _)
  | steer => cases h; exact .request (serveSteer_air _ _ _)
  | cancelSteer => cases h; exact .request (serveCancelSteer_air _ _ _)
  | push => cases h; exact .request (servePush_air _ _ _)
  | pop => cases h; exact .request (servePop_air _ _ _)
  | declareFire => cases h; exact .request (serveDeclareFire_air _ _ _)
  | clearFire => cases h; exact .request (serveClearFire_air _ _ _)
  | quiet => cases h; exact .request (serveQuiet_air _ _ _)
  | wake => cases h; exact .request (.beside (serveWake_zones _ _ _))
  | fetch => cases h; exact .request (.beside (serveFetch_zones _ _ _))
  | fetchDone => cases h; exact .request (.beside (by simp (disch := decide) [serveFetchDone]))
  | configure => cases h; exact .request (serveConfigure_air _ _ _)
  | go => cases h; exact .request (serveGo_air _ _ _)
  | restart => cases h; exact .request (serveRestart_air _ _ _)
  | discardedFrame | readTransfer =>
    cases h
    split
    · exact .beside ((readOut_frame (by decide) _ _).2 (.refl _ s))
    · exact .beside (by simp (disch := decide))
  | coldReset cause => cases h; exact .coldReset cause s
  | partTimeTick | fireLineChange | kioskWaitExpiry | showUntil | warmUntil =>
    cases h
    exact .beside (by simp (disch := decide))
  | fireLineActivation => cases h; exact .when (.activateFire s)
  | fireLineRelease => cases h; exact .when (.releaseFire s)
  | quietInChange asserted => cases h; exact quietInChange_air asserted s
  | airEvaluation => cases h; exact .when (.airEvaluation s)
  | holdExpiry =>
    cases h
    split
    · exact .refl s
    · exact .when (.changeBayEnding _ _ _ s)
  | steerExpiry =>
    cases h
    split
    · exact .refl s
    · exact .when ((KeepsAir.minors (retireSteer_minors _ _ s)).trans (.raise _ _ _ _))
  | stackEntryExpiry zone position => exact stackEntryExpiry_air zone position h
  | startEnds | rundownEnds | brightUntil =>
    cases h
    split
    · exact .refl s
    · exact .when (.beside (by simp (disch := decide)))
  | lostTimeReached =>
    cases h
    split
    · exact .refl s
    · next found => exact .when (.minors (loseHead_minors (head_mem found) _))
  | pollBuild => cases h; exact .ite (.refl s) (.beside (by simp (disch := decide)))
  | responseAccepted =>
    cases h
    split
    · exact .refl s
    · split
      · exact .beside (by simp (disch := decide))
      · exact .endExchange _ _ (fun v => .answerHead _ _ _ v) s
  | miss =>
    cases h
    split
    · exact .refl s
    · exact .endExchange _ _ (fun v => .minors (missHead_minors _ _ v)) s
  | sweepResume | startupSweepBegin => cases h; exact .when (.beside (by simp (disch := decide)))

end Sys2Proof.Machine
end

section
open Sys2Proof Sys2Proof.Machine

/-- Settles O39: an evaluation moves the averages toward readings that are clamped, a credit saturates, and no other
operation raises an accumulator. -/
theorem accumulatorsStayBounded : Obligations.AccumulatorsStayBounded := by
  intro s t hs h
  rcases step_next h with ⟨_, rfl⟩ | ⟨c, rest, _, h⟩
  · exact hs
  · have taken : KeepsAir s (s.setPending rest) := .beside (by simp (disch := decide))
    exact taken.trans (exec_air h) hs

end

section
/-!
SUPPORT. The air evaluation of the whole part (R77): the zone records after it, the raises it takes source by source (R95 to
R97), and O42.
-/
namespace Sys2Proof.Machine

variable {c : AirSettings} {now start : Nat} {heads : Table Head} {reports : List AirReport} {a : ZoneAir} {s t u v : State}
  {n src : Nat}

/-! ### Raises, source by source (R188) -/

/-- A list of raises leaves of each source the raises of that source, in order. -/
theorem raiseAll_source (hn : n < 16) (rs : List Raise) (s : State) :
    (raiseAll rs s).source n =
      (rs.filter (·.source = n)).foldl (fun r x => r.raise s.partTime (maskOf x.zones) x.detail) (s.source n) := by
  induction rs generalizing s with
  | nil => rfl
  | cons x rs ih =>
    have time : (raise x.source x.zones x.detail s).partTime = s.partTime := by
      have frame : SameExcept [.sources] s (raise x.source x.zones x.detail s) :=
        (raise_frame (by decide) _ _ _).2 (.refl _ s)
      exact frame .partTime (by decide)
    rw [show raiseAll (x :: rs) s = raiseAll rs (raise x.source x.zones x.detail s) from rfl, ih, State.source_raise, time]
    by_cases own : x.source = n
    · rw [List.filter_cons_of_pos (by simpa using own), List.foldl_cons, if_pos ⟨own.symm, own ▸ hn⟩, own]
    · rw [List.filter_cons_of_neg (by simpa using own), if_neg fun h => own h.1.symm]

/-- Raises of other sources leave a source as it was. -/
theorem raiseAll_source_other {rs : List Raise} (h : ∀ x ∈ rs, x.source ≠ n) (s : State) :
    (raiseAll rs s).source n = s.source n := by
  induction rs generalizing s with
  | nil => rfl
  | cons x rs ih =>
    rw [show raiseAll (x :: rs) s = raiseAll rs (raise x.source x.zones x.detail s) from rfl,
      ih fun y hy => h y (List.mem_cons_of_mem _ hy), State.source_raise,
      if_neg fun e => h x List.mem_cons_self e.1.symm]

/-! ### Zones that pass a test -/

/-- The numbers of the zones that pass a test name them in number order. -/
theorem namesZones_filter (wf : s.zones.wf = true) {f : Nat → Zone → Zone} (zone : ∀ n, t.zone n = (s.zone n).map (f n))
    {test : Nat × Zone → Bool} {p : Zone → Zone → Prop}
    (tests : ∀ n y, s.zone n = some y → (test (n, y) = true ↔ p y (f n y))) :
    NamesZones (Table.keys (s.zones.filter test)) p s t := by
  refine ⟨List.pairwise_map.2 ((Table.pairwise_of_wf wf).filter _), fun n => ?_⟩
  simp only [Table.keys, List.mem_map, List.mem_filter]
  constructor
  · rintro ⟨⟨m, y⟩, ⟨mem, passes⟩, rfl⟩
    have hy : s.zone m = some y := Table.find_of_mem wf mem
    exact ⟨y, f m y, hy, by rw [zone, hy, Option.map_some], (tests m y hy).1 passes⟩
  · rintro ⟨y, y', hy, hy', passes⟩
    rw [zone, hy, Option.map_some, Option.some.injEq] at hy'
    exact ⟨(n, y), ⟨Table.mem_of_find hy, (tests n y hy).2 (hy' ▸ passes)⟩, rfl⟩

/-- Raises made zone by zone, at most one of a source for each, raise it for the zones that pass their test. -/
theorem raisedOver_filter (hsrc : src < 16) (wf : s.zones.wf = true) {f : Nat → Zone → Zone}
    (zone : ∀ n, t.zone n = (s.zone n).map (f n)) {told : Zone → List Byte} {test : Nat × Zone → Bool}
    {raises : Nat × Zone → List Raise}
    (own : ∀ q, (raises q).filter (·.source = src) =
      if test q then [{ source := src, zones := [q.1], detail := number 1 q.1 ++ told (f q.1 q.2) }] else [])
    (time : u.partTime = s.partTime) (before : u.source src = s.source src)
    (after : t.source src = (raiseAll (s.zones.flatMap raises) u).source src) :
    RaisedOver src (Table.keys (s.zones.filter test)) (zoneDetail told t) s t := by
  rw [RaisedOver, after, raiseAll_source hsrc, before, time]
  have detail : ∀ q ∈ s.zones, zoneDetail told t q.1 = number 1 q.1 ++ told (f q.1 q.2) := fun q hq => by
    rw [zoneDetail, zone, show s.zone q.1 = some q.2 from Table.find_of_mem wf hq, Option.map_some]
  generalize s.source src = r
  revert detail
  generalize s.zones = l
  intro detail
  induction l generalizing r with
  | nil => rfl
  | cons q l ih =>
    have rest := fun r => ih r fun q hq => detail q (List.mem_cons_of_mem _ hq)
    rw [List.flatMap_cons, List.filter_append, List.foldl_append, own]
    by_cases passes : test q = true
    · rw [if_pos passes, List.filter_cons_of_pos passes, rest]
      show _ = (Table.keys (l.filter test)).foldl _ (r.raise s.partTime (maskOf [q.1]) (zoneDetail told t q.1))
      rw [detail q List.mem_cons_self]
      rfl
    · rw [if_neg passes, List.filter_cons_of_neg passes]
      exact rest r

/-! ### The raises of one zone (R95 to R97) -/

/-- Steps 1 to 4 of a zone's evaluation in a state. -/
def airSteps (s : State) (z : Zone) : ZoneAir :=
  evaluateState s.airSettings s.partTime (freshReports s.heads s.partTime z.config.airHeads) z.air

/-- The raises of a zone's evaluation in a state. -/
def airRaises (s : State) (q : Nat × Zone) : List Raise :=
  evaluationRaises s.airSettings s.partTime s.startTime s.heads q.1 q.2

theorem source_of_mem_stateRaises {before : ZoneAir} {x : Raise} (h : x ∈ stateRaises c n before a) :
    x.source = 1 ∨ x.source = 2 := by
  unfold stateRaises at h
  split_ifs at h
  · exact .inl (congrArg Raise.source (List.mem_singleton.1 h))
  · exact .inr (congrArg Raise.source (List.mem_singleton.1 h))
  · cases h

theorem source_of_mem_blindRaises {x : Raise} (h : x ∈ blindRaises c now start n a) : x.source = 3 := by
  unfold blindRaises at h
  split_ifs at h
  · exact congrArg Raise.source (List.mem_singleton.1 h)
  · cases h

theorem source_of_mem_exposureRaises {before : ZoneAir} {x : Raise} (h : x ∈ exposureRaises c n before a) :
    x.source = 4 := by
  unfold exposureRaises at h
  split_ifs at h
  · exact congrArg Raise.source (List.mem_singleton.1 h)
  · cases h

/-- A zone's evaluation raises no other source (R95 to R97). -/
theorem source_of_mem_airRaises {q : Nat × Zone} {x : Raise} (h : x ∈ airRaises s q) : x.source ∈ [1, 2, 3, 4] := by
  have parts : x.source = 1 ∨ x.source = 2 ∨ x.source = 3 ∨ x.source = 4 := by
    rcases List.mem_append.1 h with h | h
    · rcases List.mem_append.1 h with h | h
      · exact (source_of_mem_stateRaises h).elim .inl (.inr ∘ .inl)
      · exact .inr (.inr (.inl (source_of_mem_blindRaises h)))
    · exact .inr (.inr (.inr (source_of_mem_exposureRaises h)))
  simpa using parts

/-- The raises of a source, part by part. -/
theorem airRaises_filter (s : State) (q : Nat × Zone) (src : Nat) :
    (airRaises s q).filter (·.source = src) =
      (if src = 1 ∨ src = 2 then (stateRaises s.airSettings q.1 q.2.air (airSteps s q.2)).filter (·.source = src) else []) ++
      (if src = 3 then blindRaises s.airSettings s.partTime s.startTime q.1 (airSteps s q.2) else []) ++
      (if src = 4 then exposureRaises s.airSettings q.1 q.2.air (airSteps s q.2) else []) := by
  rw [airRaises, evaluationRaises, ← airSteps, List.filter_append, List.filter_append]
  congr 2
  · split
    · rfl
    · next other =>
      exact List.filter_eq_nil_iff.2 fun x hx => by
        have := source_of_mem_stateRaises hx
        simp only [decide_eq_true_eq]
        omega
  · split
    · next own => exact List.filter_eq_self.2 fun x hx => by simpa [own] using source_of_mem_blindRaises hx
    · next other =>
      exact List.filter_eq_nil_iff.2 fun x hx => by simpa [source_of_mem_blindRaises hx] using Ne.symm other
  · split
    · next own => exact List.filter_eq_self.2 fun x hx => by simpa [own] using source_of_mem_exposureRaises hx
    · next other =>
      exact List.filter_eq_nil_iff.2 fun x hx => by simpa [source_of_mem_exposureRaises hx] using Ne.symm other

/-- The code of the deciding gas, as a zone's averages give it (R95). -/
theorem u8_decidingGas (co no : Nat) (z : Zone) :
    u8 (decidingGas (co * 256 ≤ z.air.fCO) (no * 256 ≤ z.air.fNO)) = gasCode co no z := by
  unfold gasCode decidingGas
  by_cases coAt : co * 256 ≤ z.air.fCO <;> by_cases noAt : no * 256 ≤ z.air.fNO <;> simp [coAt, noAt] <;> decide

/-- AIR_BAR is raised of a zone that becomes BAR (R95). -/
theorem airRaises_bar (s : State) (q : Nat × Zone) :
    (airRaises s q).filter (·.source = 1) =
      if (airSteps s q.2).state = .bar ∧ q.2.air.state ≠ .bar then
        [{ source := 1, zones := [q.1],
           detail := number 1 q.1 ++ gasCode s.airSettings.barCO s.airSettings.barNO { q.2 with air := airSteps s q.2 } }]
      else [] := by
  rw [airRaises_filter, if_pos (.inl rfl), if_neg (by decide), if_neg (by decide), List.append_nil, List.append_nil, stateRaises,
    ← u8_decidingGas]
  split
  · rfl
  · split <;> rfl

/-- AIR_ACT is raised of a zone that becomes ACT from below it (R95). -/
theorem airRaises_act (s : State) (q : Nat × Zone) :
    (airRaises s q).filter (·.source = 2) =
      if (airSteps s q.2).state = .act ∧ q.2.air.state ≠ .act ∧ q.2.air.state ≠ .bar then
        [{ source := 2, zones := [q.1],
           detail := number 1 q.1 ++ gasCode s.airSettings.actCO s.airSettings.actNO { q.2 with air := airSteps s q.2 } }]
      else [] := by
  rw [airRaises_filter, if_pos (.inr rfl), if_neg (by decide), if_neg (by decide), List.append_nil, List.append_nil, stateRaises,
    ← u8_decidingGas]
  split
  · next bar =>
    rw [if_neg (by simp [bar.1])]
    rfl
  · split <;> rfl

/-- AIR_BLIND is raised of a zone for which it is due (R96). -/
theorem airRaises_blind (s : State) (q : Nat × Zone) :
    (airRaises s q).filter (·.source = 3) =
      if blindDue s.airSettings s.partTime s.startTime (airSteps s q.2) then
        [{ source := 3, zones := [q.1], detail := u8 q.1 ++ timeOpt ((airSteps s q.2).coReading.map Reading.time) }]
      else [] := by
  rw [airRaises_filter, if_neg (by decide), if_pos rfl, if_neg (by decide), List.nil_append, List.append_nil]
  rfl

/-- EXPOSURE is raised of a zone whose slow CO average rises to the act threshold (R97). -/
theorem airRaises_exposure (s : State) (q : Nat × Zone) :
    (airRaises s q).filter (·.source = 4) =
      if q.2.air.sCO < s.airSettings.actCO * 256 ∧ s.airSettings.actCO * 256 ≤ (airSteps s q.2).sCO then
        [{ source := 4, zones := [q.1], detail := u8 q.1 ++ u16 ((airSteps s q.2).sCO / 256) }]
      else [] := by
  rw [airRaises_filter, if_neg (by decide), if_neg (by decide), if_pos rfl, List.nil_append, List.nil_append]
  rfl

/-! ### The zone records after an evaluation (R77 to R92) -/

/-- The air fields of a zone after an evaluation in a state. -/
def airAfter (s : State) (z : Zone) : ZoneAir :=
  evaluateZone s.airSettings s.partTime s.startTime (s.device = .quiet) s.heads z

/-- A zone record after an evaluation in a state: its demand step and guidance state settled on its air fields, and the counts
of the redirect pass. -/
def Zone.evaluated (s : State) (x : Counts) (n : Nat) (z : Zone) : Zone :=
  { ({ z with air := airAfter s z } : Zone).settledBy s.device s.zones.keys s.zones.keys n with counts := x }

/-- An evaluation until its hand-on to the start gate, the lamps and the guidance (R88). -/
def airNoted (s : State) : State :=
  let u := raiseAll (zonesRaises s) (evaluateZones s)
  u.setNextEvaluation (u.nextEvaluation.map (· + evaluationInterval))

theorem airEvaluation_eq (s : State) : airEvaluation s = wakeByAir (handOnAir (airNoted s)) := rfl

theorem airNoted_aside (s : State) : Aside (evaluateZones s) (airNoted s) :=
  (raiseAll_aside _ _).trans (.of_unread ((State.setNextEvaluation_frame (by decide) _).2 (.refl _ _)))

theorem airNoted_keys (s : State) : (airNoted s).zones.keys = s.zones.keys := by
  rw [(airNoted_aside s).zones, evaluateZones, State.setZones_zones, Table.keys_mapWith]

/-- Every zone has its air fields of the evaluation, with its demand step and guidance state settled on them; the redirect
pass may move counts. -/
theorem handOnAir_zones (s : State) :
    ∃ x : Nat → Zone → Counts, (handOnAir (airNoted s)).zones = s.zones.mapWith fun n z => z.evaluated s (x n z) n := by
  let zs := s.zones.keys
  let handed := settleLampsOf zs (gate (settleDemand zs (airNoted s)))
  have asides : Aside (storeDemand zs (evaluateZones s)) handed :=
    ((airNoted_aside s).storeDemand zs).trans
      (((settleDemand_aside _ _).trans (gate_aside _)).trans (settleLampsOf_aside _ _))
  obtain ⟨zones, _⟩ := settledBy_zones (g := zs) (dev := s.device)
    (f := fun _ z => { z with air := airAfter s z }) asides
  obtain ⟨x, counted⟩ := (redirectPass_minors (ok := fun _ => True) (leavingOpen zs handed) (refreshGuidance zs handed)).zones
  have whole : handOnAir (airNoted s) = redirectPass (leavingOpen zs handed) (refreshGuidance zs handed) := by
    rw [handOnAir, airNoted_keys]
    rfl
  exact ⟨_, by rw [whole, counted, zones, Table.mapWith_mapWith]; rfl⟩

/-- The sources before the wake of an evaluation: its raises, and HOLD_ENDED by the redirect pass. -/
theorem handOnAir_source (hn : n ≠ 13) (s : State) :
    (handOnAir (airNoted s)).source n = (raiseAll (zonesRaises s) (evaluateZones s)).source n := by
  rw [handOnAir, deriveAndRedirect, redirectPass_source hn]
  generalize (airNoted s).zones.keys = zs
  have frame : SameExcept [.nextEvaluation, .fans, .lamps, .zones] (raiseAll (zonesRaises s) (evaluateZones s))
      (refreshGuidance zs (settleLampsOf zs (gate (settleDemand zs (airNoted s))))) := by
    simp (disch := decide) [airNoted]
  exact congrArg (fun l => fixedAt l n _) (frame .sources (by decide))

/-! ### The air fields after an evaluation -/

/-- The automatic demand stands at or above the floor of the air state (R90). -/
theorem demandFloor_airAfter_le (s : State) (z : Zone) :
    (match (airAfter s z).state with
      | .clear => if s.device = .quiet then z.config.quietBase else z.config.baseStep
      | .watch => 1
      | .act => 3
      | .bar => 4
      | .blind => z.config.blindStep) ≤ (airAfter s z).autoDemand := by
  rw [airAfter, evaluateZone_autoDemand]
  refine le_trans ?_ (le_max_right _ _)
  generalize (evaluateZone s.airSettings s.partTime s.startTime (decide (s.device = .quiet)) s.heads z).state = st
  cases st <;> simp [demandFloor]

/-- A zone BLIND after an evaluation had no fresh head, and its report of it is as before (R80, R96). -/
theorem evaluateState_blind (h : (evaluateState c now reports a).state = .blind) :
    (evaluateState c now reports a).blindReported = a.blindReported := by
  by_cases none_ : reports = []
  · rw [none_, evaluateState_stale, evaluateStale_eq]
  · exact absurd h (evaluateState_measures none_).2.2.2.2.2

theorem blindDue_airSteps (s : State) (z : Zone) :
    blindDue s.airSettings s.partTime s.startTime (airSteps s z) = true ↔
      (airSteps s z).state = .blind ∧ z.air.blindReported = false ∧
        ((airSteps s z).seeded = true ∨ s.startTime + s.airSettings.staleHold ≤ s.partTime) := by
  rw [blindDue]
  simp only [Bool.and_eq_true, Bool.or_eq_true, decide_eq_true_eq, Bool.not_eq_true', and_assoc]
  refine and_congr_right fun blind => ?_
  rw [show (airSteps s z).blindReported = z.air.blindReported from evaluateState_blind blind]

/-- The report of AIR_BLIND sets its flag (R96). -/
theorem airAfter_blindReported {z : Zone}
    (h : blindDue s.airSettings s.partTime s.startTime (airSteps s z) = true) : (airAfter s z).blindReported = true := by
  rw [airAfter, evaluateZone_eq, ← airSteps]
  simp only [h, Bool.or_true]

/-- With a fresh head the readings are the largest values, and the zone is seeded and not BLIND (R78, R81). -/
theorem airAfter_fresh {z : Zone} (h : freshReports s.heads s.partTime z.config.airHeads ≠ []) :
    ∃ co no, (airAfter s z).coReading = some { value := co, time := s.partTime } ∧
      (airAfter s z).noReading = some { value := no, time := s.partTime } ∧ (airAfter s z).seeded = true ∧
      (airAfter s z).state ≠ .blind ∧
      (∀ r ∈ freshReports s.heads s.partTime z.config.airHeads, r.co ≤ co ∧ r.no2 ≤ no) ∧
      (∃ r ∈ freshReports s.heads s.partTime z.config.airHeads, r.co = co) ∧
      ∃ r ∈ freshReports s.heads s.partTime z.config.airHeads, r.no2 = no := by
  obtain ⟨coReading, noReading, seeded, _, _, seen⟩ := evaluateState_measures (c := s.airSettings) (now := s.partTime)
    (a := z.air) h
  obtain ⟨co, no⟩ := ZoneAir.averaged_readings s.partTime
    (largest AirReport.co (freshReports s.heads s.partTime z.config.airHeads))
    (largest AirReport.no2 (freshReports s.heads s.partTime z.config.airHeads)) z.air
  exact ⟨_, _, coReading.trans co, noReading.trans no, seeded.trans (ZoneAir.averaged_seeded _ _ _ _), seen,
    fun r hr => ⟨le_largest _ hr, le_largest _ hr⟩, exists_largest _ h, exists_largest _ h⟩

/-- Without a fresh head the zone holds its state and dwell, or is BLIND (R79, R80). -/
theorem airAfter_stale {z : Zone} (h : freshReports s.heads s.partTime z.config.airHeads = []) :
    let a := airAfter s z
    a.coReading = z.air.coReading ∧ a.noReading = z.air.noReading ∧ a.fCO = z.air.fCO ∧ a.sCO = z.air.sCO ∧
      a.fNO = z.air.fNO ∧ a.sNO = z.air.sNO ∧ a.seeded = z.air.seeded ∧ a.candidate = none ∧
      a.state = (if canHold s.airSettings s.partTime z.air then z.air.state else .blind) ∧
      a.dwell = if canHold s.airSettings s.partTime z.air then z.air.dwell else 0 := by
  dsimp only
  rw [airAfter, evaluateZone_eq, h, evaluateState_stale, evaluateStale_eq]
  exact ⟨rfl, rfl, rfl, rfl, rfl, rfl, rfl, rfl, rfl, rfl⟩

/-- The zones whose readings let them hold do (R79). -/
theorem canHold_of {c : AirSettings} (recent : ∃ r, a.coReading = some r ∧ now ≤ r.time + c.staleHold)
    (seen : a.state ≠ .blind) : canHold c now a = true :=
  canHold_iff.2 ⟨recent, seen⟩

/-- A zone that is BLIND, has no reading, or whose stale hold is over cannot hold (R80). -/
theorem not_canHold {c : AirSettings}
    (h : a.state = .blind ∨ a.coReading = none ∨ ∃ r, a.coReading = some r ∧ r.time + c.staleHold < now) :
    canHold c now a = false := by
  rw [Bool.eq_false_iff, Ne, canHold_iff]
  rintro ⟨⟨r, hr, recent⟩, seen⟩
  rcases h with blind | none_ | ⟨r', hr', old⟩
  · exact seen blind
  · simp [none_] at hr
  · obtain rfl := Option.some.inj (hr.symm.trans hr')
    omega

/-! ### The whole of an evaluation -/

theorem wakeByAir_eq (s : State) :
    wakeByAir s = if wakingZones s = [] then s else wakeEvent .air (wakingZones s) s := by
  simp only [wakeByAir, List.isEmpty_iff]

/-- An evaluation's wake leaves the zone records. -/
theorem airEvaluation_zones_eq (s : State) : (airEvaluation s).zones = (handOnAir (airNoted s)).zones := by
  have wakes : SameExcept quietFields (handOnAir (airNoted s)) (airEvaluation s) := by
    rw [airEvaluation_eq]
    simp (disch := decide)
  exact wakes .zones (by decide)

theorem airEvaluation_zone (s : State) :
    ∃ x : Nat → Zone → Counts, ∀ n, (airEvaluation s).zone n = (s.zone n).map fun z => z.evaluated s (x n z) n := by
  obtain ⟨x, zones⟩ := handOnAir_zones s
  exact ⟨x, fun n => by rw [State.zone, airEvaluation_zones_eq, zones, Table.find_mapWith, State.zone]⟩

/-- The next evaluation is one interval after the last (R77). -/
theorem airEvaluation_nextEvaluation (s : State) :
    (airEvaluation s).nextEvaluation = s.nextEvaluation.map (· + evaluationInterval) := by
  have wakes : SameExcept (zoneFields ++ quietFields) (airNoted s) (airEvaluation s) := by
    rw [airEvaluation_eq]
    simp (disch := decide)
  have raises : SameExcept [.zones, .sources] s (raiseAll (zonesRaises s) (evaluateZones s)) := by
    simp (disch := decide)
  have before : (raiseAll (zonesRaises s) (evaluateZones s)).nextEvaluation = s.nextEvaluation :=
    raises .nextEvaluation (by decide)
  have later : (airEvaluation s).nextEvaluation = (airNoted s).nextEvaluation := wakes .nextEvaluation (by decide)
  rw [later, ← before]
  rfl

theorem airEvaluation_source (h13 : n ≠ 13) (h15 : n ≠ 15) (s : State) :
    (airEvaluation s).source n = (raiseAll (zonesRaises s) (evaluateZones s)).source n := by
  rw [← handOnAir_source h13, airEvaluation_eq, wakeByAir]
  split
  · rfl
  · exact (wakeEvent_except _ _ _).2 n h15

theorem airEvaluation_source_other (h : n ∉ [1, 2, 3, 4, 13, 15]) (s : State) :
    (airEvaluation s).source n = s.source n := by
  simp only [List.mem_cons, List.not_mem_nil, or_false, not_or] at h
  obtain ⟨h1, h2, h3, h4, h13, h15⟩ := h
  rw [airEvaluation_source h13 h15]
  refine raiseAll_source_other (fun x hx => ?_) _
  obtain ⟨q, _, hx⟩ := List.mem_flatMap.1 hx
  have others := source_of_mem_airRaises (s := s) hx
  simp only [List.mem_cons, List.not_mem_nil, or_false] at others
  omega

/-- A source's raises of an evaluation: the zones that they name, and what each leaves of the source (R95 to R97). -/
theorem airEvaluation_raised (hsrc : src < 13) (wf : s.zones.wf = true) {x : Nat → Zone → Counts}
    (zone : ∀ n, (airEvaluation s).zone n = (s.zone n).map fun z => z.evaluated s (x n z) n) {told : Zone → List Byte}
    {due : Nat × Zone → Prop} [DecidablePred due] {p : Zone → Zone → Prop}
    (own : ∀ q, (airRaises s q).filter (·.source = src) =
      if due q then [{ source := src, zones := [q.1], detail := number 1 q.1 ++ told (q.2.evaluated s (x q.1 q.2) q.1) }]
      else [])
    (tests : ∀ n y, due (n, y) ↔ p y (y.evaluated s (x n y) n)) :
    NamesZones (Table.keys (s.zones.filter fun q => due q)) p s (airEvaluation s) ∧
      RaisedOver src (Table.keys (s.zones.filter fun q => due q)) (zoneDetail told (airEvaluation s)) s (airEvaluation s) :=
  ⟨namesZones_filter wf zone fun n y _ => by simpa using tests n y,
    raisedOver_filter (u := evaluateZones s) (raises := airRaises s) (by omega) wf zone (fun q => by simpa using own q) rfl rfl
      (airEvaluation_source (by omega) (by omega) s)⟩

/-- The zones that an evaluation's wake names (R88, R154). -/
theorem namesZones_wakingZones (wf : s.zones.wf = true) :
    NamesZones (wakingZones (handOnAir (airNoted s)))
      (fun _ y' => y'.air.candidate = some .watch ∨ y'.air.candidate = some .act ∨ y'.air.candidate = some .bar)
      s (airEvaluation s) := by
  obtain ⟨x, zones⟩ := handOnAir_zones s
  have table := (airEvaluation_zones_eq s).trans zones
  have wf' : (airEvaluation s).zones.wf = true := by
    rw [table]
    exact Table.wf_mapWith wf _
  rw [wakingZones, ← airEvaluation_zones_eq]
  obtain ⟨increasing, names⟩ := namesZones_filter (s := airEvaluation s) (t := airEvaluation s) wf'
    (f := fun _ z => z) (fun _ => Option.map_id_apply.symm) (test := fun p => p.2.air.candidate = some .watch ||
      p.2.air.candidate = some .act || p.2.air.candidate = some .bar)
    (p := fun _ y' => y'.air.candidate = some .watch ∨ y'.air.candidate = some .act ∨ y'.air.candidate = some .bar)
    (fun n y _ => by simp [or_assoc])
  refine ⟨increasing, fun n => (names n).trans ?_⟩
  constructor
  · rintro ⟨y, y', hy, hy', passes⟩
    have hy0 := hy
    rw [State.zone, table, Table.find_mapWith, Option.map_eq_some_iff] at hy0
    obtain ⟨z, hz, _⟩ := hy0
    exact ⟨z, y', hz, hy', passes⟩
  · rintro ⟨y, y', _, hy', passes⟩
    exact ⟨y', y', hy', hy', passes⟩

/-- Before its wake an evaluation writes the next evaluation and what zone records reach (R77, R88). -/
theorem handOnAir_airNoted_except (s : State) :
    SameExcept (.nextEvaluation :: zoneFields) s (handOnAir (airNoted s)) := by
  simp (disch := decide) [airNoted]

/-- An evaluation wakes the part in QUIET, where it has zones to name, and not otherwise (R88, R154). -/
theorem airEvaluation_wakes (s : State) :
    let zs := wakingZones (handOnAir (airNoted s))
    (s.device = .quiet → zs ≠ [] → WakeTaken .air zs s (airEvaluation s)) ∧
      (s.device ≠ .quiet ∨ zs = [] → NotWoken s (airEvaluation s)) := by
  have frame := handOnAir_airNoted_except s
  have device : (handOnAir (airNoted s)).device = s.device := frame .device (by decide)
  have quietSame : (handOnAir (airNoted s)).quiet = s.quiet := frame .quiet (by decide)
  have time : (handOnAir (airNoted s)).partTime = s.partTime := frame .partTime (by decide)
  have heads : (handOnAir (airNoted s)).heads = s.heads := frame .heads (by decide)
  have source : (handOnAir (airNoted s)).source 15 = s.source 15 := by
    rw [handOnAir_source (by decide)]
    refine raiseAll_source_other (fun x hx => ?_) _
    obtain ⟨q, _, hx⟩ := List.mem_flatMap.1 hx
    intro e
    simpa [e] using source_of_mem_airRaises (s := s) hx
  intro zs
  refine ⟨fun quiet named => ?_, fun stays => ?_⟩
  · obtain ⟨woken, mode, told⟩ := (wakeEvent_quiet .air zs (device.trans quiet)).2.1
    rw [airEvaluation_eq, wakeByAir_eq, if_neg named]
    rw [quietSame, time, heads] at mode
    rw [source, time] at told
    exact ⟨woken, mode, told⟩
  · have same : airEvaluation s = handOnAir (airNoted s) := by
      rw [airEvaluation_eq, wakeByAir_eq]
      split
      · rfl
      · next named => exact wakeEvent_awake _ (device ▸ stays.resolve_right named)
    rw [same]
    exact ⟨device, quietSame, source⟩

/-- An evaluation leaves the device state, or takes QUIET to WARMING; both derive the same guidance states (R10, R88). -/
theorem deriveGuidance_airEvaluation (s : State) (z : Zone) :
    deriveGuidance (airEvaluation s).device z = deriveGuidance s.device z := by
  let zs := wakingZones (handOnAir (airNoted s))
  obtain ⟨woken, notWoken⟩ := airEvaluation_wakes s
  by_cases stays : s.device ≠ .quiet ∨ zs = []
  · rw [(notWoken stays).1]
  · obtain ⟨quiet, named⟩ := not_or.1 stays
    rw [(woken (not_not.1 quiet) named).1, not_not.1 quiet]
    exact deriveGuidance_guides rfl rfl z

end Sys2Proof.Machine

open Sys2Proof Sys2Proof.Machine

/-- Settles O42: the zones' steps, their raises source by source, the hand-on, and the wake. -/
theorem anAirEvaluationSettlesEveryZone : Obligations.AnAirEvaluationSettlesEveryZone := by
  intro s
  refine ⟨fun idle => ?_, fun w configured next due => ?_⟩
  · have none_ : ¬((s.device ≠ .unconfigured && reached s.partTime s.nextEvaluation) = true) := by
      rcases idle with unconfigured | never | ⟨w, next, early⟩
      · simp [unconfigured]
      · simp [never, reached]
      · simp [next, reached, Nat.not_le.2 early]
    exact congrArg Host.Outcome.next (if_neg none_)
  have goes : (s.device ≠ .unconfigured && reached s.partTime s.nextEvaluation) = true := by
    simp [configured, next, reached, due]
  obtain ⟨x, zone⟩ := airEvaluation_zone s
  have frame : SameExcept (writes .airEvaluation) s (airEvaluation s) := by
    simp (disch := decide)
  refine ⟨airEvaluation s, congrArg Host.Outcome.next (if_pos goes), frame, ?_, fun n y hy => ?_,
    fun wf => ⟨?_, ?_, ?_, ?_, ?_, ?_⟩⟩
  · exact (airEvaluation_nextEvaluation s).trans (congrArg _ next)
  · have mem : n ∈ s.zones.keys := Table.mem_keys_of_find hy
    refine ⟨y.evaluated s (x n y) n, by rw [zone, hy, Option.map_some], rfl, rfl, rfl, rfl, rfl, ?_, ?_, ?_,
      demandFloor_airAfter_le s y, ?_, ?_⟩
    · show (airAfter s y).antCO = y.air.antCO / 2
      rw [airAfter, evaluateZone_eq]
    · exact (if_pos mem).trans (deriveGuidance_airEvaluation s _).symm
    · exact if_pos mem
    · exact airAfter_fresh
    · intro none_
      obtain ⟨co, no, fCO, sCO, fNO, sNO, seeded, candidate, state, dwell⟩ := airAfter_stale none_
      refine ⟨co, no, fCO, sCO, fNO, sNO, seeded, candidate, fun recent seen => ?_, fun past => ?_⟩
      · rw [canHold_of recent seen] at state dwell
        exact ⟨state, dwell⟩
      · rw [not_canHold past] at state dwell
        exact ⟨state, dwell⟩
  · exact ⟨_, airEvaluation_raised (by decide) wf zone (airRaises_bar s) fun _ _ => and_comm⟩
  · exact ⟨_, airEvaluation_raised (by decide) wf zone (airRaises_act s) fun _ _ => and_rotate⟩
  · let due := fun y y' : Zone => y'.air.state = .blind ∧ y.air.blindReported = false ∧
      (y'.air.seeded = true ∨ s.startTime + s.airSettings.staleHold ≤ s.partTime)
    obtain ⟨names, raised⟩ := airEvaluation_raised (src := 3) (p := due) (by decide) wf zone
      (told := fun y => optBytes (number 4) (y.air.coReading.map Reading.time)) (airRaises_blind s)
      fun n y => blindDue_airSteps s y
    refine ⟨_, names, raised, fun n hn y' hy' => ?_⟩
    obtain ⟨y, y'', hy, hy'', isDue⟩ := (names.2 n).1 hn
    rw [zone, hy, Option.map_some, Option.some.injEq] at hy' hy''
    subst hy' hy''
    exact airAfter_blindReported ((blindDue_airSteps s y).2 isDue)
  · exact ⟨_, airEvaluation_raised (by decide) wf zone (airRaises_exposure s) fun _ _ => .rfl⟩
  · exact ⟨_, namesZones_wakingZones wf, airEvaluation_wakes s⟩
  · exact fun m hm => airEvaluation_source_other hm s

end

section
/-!
SUPPORT. GO (R185): the cross-check passes where each record's check does, the start leaves no zone OPEN, and O10.
-/
namespace Sys2Proof.Machine

variable {s : State}

/-! ### The cross-check -/

theorem firstFailure_eq_none {α : Type} {check : Nat → α → Option GoFailure} {l : Table α} :
    firstFailure check l = none ↔ ∀ q ∈ l, check q.1 q.2 = none := List.findSome?_eq_none_iff

theorem zonesThere_iff {l : List Nat} : zonesThere s l = true ↔ ∀ z ∈ l, (s.zone z).isSome = true := List.all_eq_true

theorem checkZone_eq_none {n : Nat} {z : Zone} : checkZone n z = none ↔ z.config.airHeads ≠ [] := by
  simp [checkZone]

/-- A bay passes where its binding, if any, has a head of kind BAY and stands at no lower bay (R185). -/
theorem checkBay_eq_none {g : Nat} {b : Bay} :
    checkBay s g b = none ↔ ∀ x, b.binding = some x →
      (∃ h, s.head x.segment x.address = some h ∧ h.kind = .bay) ∧ ∀ p ∈ s.bays, p.1 < g → p.2.binding ≠ some x := by
  unfold checkBay
  cases binding : b.binding with
  | none => simp
  | some x =>
    have kind : bindsBayHead s x = true ↔ ∃ h, s.head x.segment x.address = some h ∧ h.kind = .bay := by
      unfold bindsBayHead
      cases s.head x.segment x.address <;> simp
    have twice : (s.bays.any fun p => decide (p.1 < g) && decide (p.2.binding = some x)) = false ↔
        ∀ p ∈ s.bays, p.1 < g → p.2.binding ≠ some x := by simp [List.any_eq_false]
    simp only [Option.some.injEq, forall_eq', ← kind, ← twice]
    cases bindsBayHead s x <;> simp

/-- A passage passes where its zones are configured and an ENTRY has a preference list (R185). -/
theorem checkPassage_eq_none {n : Nat} {p : Passage} :
    checkPassage s n p = none ↔
      (∀ z ∈ p.config.zones, (s.zone z).isSome = true) ∧ (p.config.kind = .entry → p.config.preference ≠ []) := by
  rw [← zonesThere_iff, checkPassage]
  cases zonesThere s p.config.zones <;> simp

theorem checkFan_eq_none {n : Nat} {f : Fan} :
    checkFan s n f = none ↔ ∀ z ∈ f.zone :: optList f.assist, (s.zone z).isSome = true := by
  rw [← zonesThere_iff, checkFan]
  cases zonesThere s (f.zone :: optList f.assist) <;> simp

theorem checkLamp_eq_none {n : Nat} {g : LampGroup} : checkLamp s n g = none ↔ (s.zone g.zone).isSome = true := by
  rw [← List.forall_mem_singleton (p := fun z => (s.zone z).isSome = true), ← zonesThere_iff, checkLamp]
  cases zonesThere s [g.zone] <;> simp

theorem checkSign_eq_none {n : Nat} {r : Sign} :
    checkSign s n r = none ↔
      ∀ z ∈ r.config.watched ++ r.config.directions.map Prod.fst, (s.zone z).isSome = true := by
  rw [← zonesThere_iff, checkSign]
  cases zonesThere s (r.config.watched ++ r.config.directions.map Prod.fst) <;> simp

/-- With a zone configured the cross-check passes where every record passes its check (R185). -/
theorem crossCheck_eq_none (some_ : s.zones ≠ []) :
    crossCheck s = none ↔
      (∀ q ∈ s.zones, checkZone q.1 q.2 = none) ∧ (∀ q ∈ s.bays, checkBay s q.1 q.2 = none) ∧
      (∀ q ∈ s.passages, checkPassage s q.1 q.2 = none) ∧ (∀ q ∈ s.fans, checkFan s q.1 q.2 = none) ∧
      (∀ q ∈ s.lamps, checkLamp s q.1 q.2 = none) ∧ ∀ q ∈ s.signs, checkSign s q.1 q.2 = none := by
  rw [crossCheck, if_neg (by simpa using some_)]
  simp only [Option.or_eq_none_iff, firstFailure_eq_none]

/-! ### The start -/

/-- In UNCONFIGURED and in STARTING no zone is OPEN (R10). -/
theorem deriveGuidance_ne_opened {dev : DeviceState} (h : dev = .unconfigured ∨ dev = .starting) (z : Zone) :
    deriveGuidance dev z ≠ .opened := by
  unfold deriveGuidance
  rcases h with rfl | rfl
  all_goals split_ifs <;> simp_all

/-- Where no zone is OPEN, nothing leaves OPEN and nothing is redirected (R12, R66). -/
theorem deriveAndRedirect_of_closed (zs : List Nat) (closed : ∀ n z, s.zone n = some z → z.guidance ≠ .opened) :
    deriveAndRedirect zs s = refreshGuidance zs s := by
  have none_ : leavingOpen zs s = [] := List.filter_eq_nil_iff.2 fun z _ => by
    unfold State.zoneIs
    split
    · simp
    · next r hr => simp [closed z r hr]
  have still : redirected [] (refreshGuidance zs s) = [] :=
    List.eq_nil_iff_forall_not_mem.2 fun m hm => by simpa using (mem_redirected [] _ m).1 hm
  rw [deriveAndRedirect, none_, redirectPass, still]
  rfl

/-- The part in STARTING, before guidance and lamps follow (R77, R139, R174). -/
def startTaken (s : State) : State := takeUpFire (enterStarting s)

theorem startTaken_except (s : State) :
    SameExcept [.fans, .startTime, .nextEvaluation, .segments, .device] s (startTaken s) := by
  simp (disch := decide) [startTaken]

/-- In UNCONFIGURED, with guidance settled, no zone is OPEN (R10). -/
theorem not_opened_of_unconfigured (guided : GuidanceSettled s) (bare : s.device = .unconfigured) {n : Nat} {z : Zone}
    (hz : s.zone n = some z) : z.guidance ≠ .opened := by
  rw [guided.2 _ (Table.mem_of_find hz)]
  exact deriveGuidance_ne_opened (.inl bare) z

theorem start_eq (guided : GuidanceSettled s) (bare : s.device = .unconfigured) :
    start s = settleAllLamps (refreshGuidance s.zones.keys (startTaken s)) := by
  have zones : (startTaken s).zones = s.zones := startTaken_except s .zones (by decide)
  have closed : ∀ n z, (startTaken s).zone n = some z → z.guidance ≠ .opened := fun n z hz =>
    not_opened_of_unconfigured guided bare (by rwa [State.zone, zones] at hz)
  rw [start, ← startTaken, deriveAndRedirect_of_closed _ closed, zones]

/-- What a start writes where nothing is redirected. -/
theorem start_except (guided : GuidanceSettled s) (bare : s.device = .unconfigured) :
    SameExcept [.device, .startTime, .nextEvaluation, .segments, .zones, .fans, .lamps] s (start s) := by
  rw [start_eq guided bare, settleAllLamps_frame (by decide), refreshGuidance_frame (by decide)]
  exact (startTaken_except s).mono (by decide)

theorem startTaken_device (s : State) : (startTaken s).device = .starting := rfl

/-- Guidance and lamps leave the scalars, the segments and the fans of a start. -/
theorem start_after (guided : GuidanceSettled s) (bare : s.device = .unconfigured) :
    SameExcept [.zones, .lamps] (startTaken s) (start s) := by
  rw [start_eq guided bare, settleAllLamps_frame (by decide), refreshGuidance_frame (by decide)]
  exact .refl _ _

theorem start_scalars (guided : GuidanceSettled s) (bare : s.device = .unconfigured) :
    (start s).device = .starting ∧ (start s).startTime = s.partTime ∧
      (start s).nextEvaluation = some (s.partTime + 15) := by
  have after := start_after guided bare
  exact ⟨after .device (by decide), after .startTime (by decide), after .nextEvaluation (by decide)⟩

theorem start_segment (guided : GuidanceSettled s) (bare : s.device = .unconfigured) {i : Nat} (h : i < 4) :
    (start s).segment i = Segment.restarted := by
  have segments : (start s).segments = (enterStarting s).segments := start_after guided bare .segments (by decide)
  rw [State.segment, segments]
  exact enterStarting_segment s h

/-- The lamps are settled last, beside the zone records. -/
theorem start_zones_eq (guided : GuidanceSettled s) (bare : s.device = .unconfigured) :
    (start s).zones = (refreshGuidance s.zones.keys (startTaken s)).zones := by
  have lamps : SameExcept [.lamps] (refreshGuidance s.zones.keys (startTaken s)) (start s) := by
    rw [start_eq guided bare, settleAllLamps_frame (by decide)]
    exact .refl _ _
  exact lamps .zones (by decide)

theorem start_zone (guided : GuidanceSettled s) (bare : s.device = .unconfigured) (n : Nat) :
    (start s).zone n = (s.zone n).map fun z => { z with guidance := deriveGuidance .starting z } := by
  have zones := start_zones_eq guided bare
  have before : (startTaken s).zones = s.zones := startTaken_except s .zones (by decide)
  rw [State.zone, zones, ← State.zone, refreshGuidance_zone, State.zone, before, ← State.zone]
  cases hz : s.zone n with
  | none => rfl
  | some z =>
    have mem : s.zones.keys.contains n = true := by simpa using Table.mem_keys_of_find hz
    simp only [Option.map_some, mem, if_true, startTaken_device]

/-- An UNREACHED fan takes its target and stays (R106). -/
theorem retarget_unreached {f : Fan} (h : f.state = .unreached) (now off target : Nat) :
    (if target = f.target then f else f.retarget now off target) = { f with target := target } := by
  split
  · next same => rw [same]
  · unfold Fan.retarget
    simp only [h]

/-- An UNREACHED fan of a zone in fire takes the target of its fire role, and every other UNREACHED fan stands (R139). -/
theorem start_fan (guided : GuidanceSettled s) (bare : s.device = .unconfigured) {n : Nat} {f : Fan}
    (hf : s.fans.find n = some f) (unreached : f.state = .unreached) :
    (start s).fans.find n = some (match s.zone f.zone with
      | none => f
      | some z => if z.fire = .active then { f with target := if z.config.haltRole = true then 0 else 4 } else f) := by
  have fans : (start s).fans = (startTaken s).fans := start_after guided bare .fans (by decide)
  have begun : SameExcept [.startTime, .nextEvaluation, .segments, .device] s (enterStarting s) := by
    simp (disch := decide)
  have before : (enterStarting s).fans = s.fans := begun .fans (by decide)
  have zones : (enterStarting s).zones = s.zones := begun .zones (by decide)
  have zone : (enterStarting s).zone f.zone = s.zone f.zone := congrArg (Table.find · _) zones
  rw [fans, startTaken, takeUpFire_find, before, hf, Option.map_some, State.zoneIs, fanTarget, zone]
  cases s.zone f.zone with
  | none => rfl
  | some z =>
    by_cases active : z.fire = .active
    · simp only [active, decide_true, if_true, retarget_unreached unreached]
    · simp only [active, decide_false, if_false, Bool.false_eq_true]

/-- In STARTING a group is commanded 100 or its guard level (R124). -/
theorem lampLevel_starting (zone : Option Zone) (g : LampGroup) :
    (lampLevel .starting zone g).1 = 100 ∨ (lampLevel .starting zone g).1 = g.guardLevel := by
  cases zone with
  | none => exact .inl rfl
  | some z =>
    unfold lampLevel
    dsimp only
    split
    · exact .inl rfl
    · split
      · exact .inl rfl
      · split
        · exact .inl rfl
        · exact .inr rfl
        · split
          · exact .inl rfl
          · exact .inr rfl
        · exact .inl rfl

theorem start_lamp (guided : GuidanceSettled s) (bare : s.device = .unconfigured) (n : Nat) :
    (start s).lamps.find n = (s.lamps.find n).map fun g => settleGroup .starting ((start s).zone g.zone) g := by
  have zones := start_zones_eq guided bare
  have before : (startTaken s).lamps = s.lamps := startTaken_except s .lamps (by decide)
  have zone (m : Nat) : (start s).zone m = (refreshGuidance s.zones.keys (startTaken s)).zone m :=
    congrArg (Table.find · m) zones
  simp only [zone]
  rw [start_eq guided bare]
  exact (settleLampsWhere_find _ _ n).trans (congrArg (fun l => Option.map _ (Table.find l n)) before)

/-- GO in UNCONFIGURED starts the part where the cross-check passes (R185). -/
theorem serveGo_passes {client : Nat} {body : List Byte} (bare : s.device = .unconfigured) (passes : crossCheck s = none) :
    serveGo client body s = (Reply.done [], start s) := by
  rw [serveGo, if_neg (not_not.2 bare), passes]

theorem serveGo_fails {client : Nat} {body : List Byte} {f : GoFailure} (bare : s.device = .unconfigured)
    (fails : crossCheck s = some f) :
    serveGo client body s = ({ result := .combination, detail := f.detail, body := f.name }, s) := by
  rw [serveGo, if_neg (not_not.2 bare), fails]

end Sys2Proof.Machine

open Sys2Proof Sys2Proof.Machine

/-- Settles O10: the cross-check passes, and the start redirects nothing, as no zone was OPEN. -/
theorem goTakesTheDeviceToStarting : Obligations.GoTakesTheDeviceToStarting := by
  intro client tag body s hr
  let s' := received body s
  refine ⟨fun configured => answered_unchanged hr (if_pos configured), fun bare empty => answered_unchanged hr ?_,
    fun bare guided some_ heads bound named listed fanZones lampZones signZones => ?_⟩
  · have fails : crossCheck s' = some { detail := 1, name := [] } := if_pos (List.isEmpty_iff.2 empty)
    exact serveGo_fails (s := s') bare fails
  have passes : crossCheck s' = none := (crossCheck_eq_none (s := s') some_).2
    ⟨fun q hq => checkZone_eq_none.2 (heads q hq), fun q hq => checkBay_eq_none.2 (bound q hq),
      fun q hq => checkPassage_eq_none.2 ⟨named q hq, listed q hq⟩, fun q hq => checkFan_eq_none.2 (fanZones q hq),
      fun q hq => checkLamp_eq_none.2 (lampZones q hq), fun q hq => checkSign_eq_none.2 (signZones q hq)⟩
  have serve : serveGo client.toNat body s' = (Reply.done [], start s') := serveGo_passes bare passes
  have frame := respond_except tag (Reply.done []) (start_except (s := s') guided bare)
  obtain ⟨device, startTime, evaluation⟩ := start_scalars (s := s') guided bare
  have zone := start_zone (s := s') guided bare
  have segment := fun i => start_segment (s := s') guided bare (i := i)
  have fan := fun n f => start_fan (s := s') guided bare (n := n) (f := f)
  have lamp := start_lamp (s := s') guided bare
  generalize start s' = w at *
  refine ⟨_, congrArg Host.Outcome.next (request_of_rule hr serve), frame, rfl, device, startTime, evaluation,
    fun i hi => ?_, zone, fun n z hz => ?_, fan, fun n => ⟨?_, fun g h hg hh => ?_⟩⟩
  · exact ⟨congrArg Segment.sweepCount (segment i hi), congrArg Segment.sweep (segment i hi),
      congrArg Segment.exchange (segment i hi)⟩
  · obtain ⟨y, _, rfl⟩ := Option.map_eq_some_iff.1 ((zone n).symm.trans hz)
    exact deriveGuidance_ne_opened (.inr rfl) y
  · exact (iff_of_eq (congrArg (· = none) (lamp n))).trans Option.map_eq_none_iff
  · obtain rfl : settleGroup .starting (w.zone g.zone) g = h :=
      Option.some.inj (((lamp n).trans (congrArg (Option.map _) hg)).symm.trans hh)
    exact ⟨lampLevel_starting _ g, rfl, rfl⟩

end

section
/-!
SUPPORT. The fan drive's operations, one rule each: what shortness and a target rest on (R103, R104), what a fan keeps as it
takes a target (R106), what the gate admits (R108), and what a changed fan record leaves of the other fans.
-/
namespace Sys2Proof.Machine

variable {s t : State}

/-! ### Shortness (R103) -/

theorem Fan.unhealthy_iff {f : Fan} : f.unhealthy = true ↔
    f.state = .unreached ∨ f.state = .tripped ∨ f.state = .lockedOut ∨ f.state = .localControl := by
  unfold Fan.unhealthy
  cases f.state <;> simp

theorem Fan.unhealthy_of_state {f g : Fan} (h : g.state = f.state) : g.unhealthy = f.unhealthy := by
  rw [Fan.unhealthy, h, ← Fan.unhealthy]

/-- The fan is an unhealthy one of the zone. -/
def Fan.shortens (z : Nat) (f : Fan) : Bool := f.zone = z && f.unhealthy

theorem short_iff {z : Nat} : s.short z = true ↔
    (s.zone z).isSome = true ∧ ∃ q ∈ s.fans, q.2.shortens z = true := by
  rw [State.short, Bool.and_eq_true, List.any_eq_true, Table.has, ← State.zone]
  rfl

/-- A zone stays short, or not, where it stays configured and each of its fans stays healthy or unhealthy. -/
theorem short_congr (ws : s.fans.wf = true) (wt : t.fans.wf = true) {z : Nat}
    (zone : (t.zone z).isSome = (s.zone z).isSome)
    (fans : ∀ n, (t.fans.find n).any (Fan.shortens z) = (s.fans.find n).any (Fan.shortens z)) : t.short z = s.short z := by
  have through {u v : State} (wu : u.fans.wf = true)
      (h : ∀ n, (u.fans.find n).any (Fan.shortens z) = (v.fans.find n).any (Fan.shortens z)) :
      (∃ q ∈ u.fans, q.2.shortens z = true) → ∃ q ∈ v.fans, q.2.shortens z = true := by
    rintro ⟨⟨n, f⟩, mem, short⟩
    have found := h n
    rw [Table.find_of_mem wu mem, Option.any_some, short, eq_comm, Option.any_eq_true_iff_get] at found
    obtain ⟨there, short'⟩ := found
    exact ⟨(n, _), Table.mem_of_find (Option.some_get there).symm, short'⟩
  rw [Bool.eq_iff_iff, short_iff, short_iff, zone]
  exact and_congr_right fun _ => ⟨through wt fans, through ws fun n => (fans n).symm⟩

/-! ### What a target rests on (R104) -/

/-- What R104 reads of a zone record: whether it is in fire, its fire role and its demand step. -/
def Zone.drive (z : Zone) : Bool × Bool × Nat := (z.fire = .active, z.config.haltRole, z.demand)

/-- What R104 reads of a zone, if it is configured. -/
def State.drive (s : State) (n : Nat) : Option (Bool × Bool × Nat) := (s.zone n).map Zone.drive

/-- The fan's target rests on the zone: its own, or the one it assists. -/
def Fan.restsOn (z : Nat) (f : Fan) : Prop := f.zone = z ∨ f.assist = some z

theorem drive_of_zones (h : t.zones = s.zones) (n : Nat) : t.drive n = s.drive n := by
  rw [State.drive, State.zone, h, ← State.zone, ← State.drive]

theorem zone_isSome_of_drive {z : Nat} (h : t.drive z = s.drive z) : (t.zone z).isSome = (s.zone z).isSome := by
  simpa [State.drive] using congrArg Option.isSome h

theorem demandOf_eq (s : State) (z : Nat) : s.demandOf z = ((s.drive z).map fun d => d.2.2).getD 0 := by
  unfold State.demandOf State.drive
  cases s.zone z <;> rfl

theorem fanTarget_eq (s : State) (f : Fan) : fanTarget s f = match s.drive f.zone with
    | some (true, halt, _) => if halt then 0 else 4
    | _ => assistedStep s f := by
  unfold fanTarget State.drive
  cases s.zone f.zone with
  | none => rfl
  | some z => by_cases fire : z.fire = .active <;> simp [Zone.drive, fire]

/-- A target rests on its fan's zone and assist zone alone. -/
theorem fanTarget_congr {f g : Fan} (zone : g.zone = f.zone) (assist : g.assist = f.assist)
    (drive : ∀ z, f.restsOn z → t.drive z = s.drive z) (short : ∀ z, f.restsOn z → t.short z = s.short z) :
    fanTarget t g = fanTarget s f := by
  have demand (z : Nat) (h : f.restsOn z) : t.demandOf z = s.demandOf z := by rw [demandOf_eq, drive z h, ← demandOf_eq]
  have own : t.ownStep f.zone = s.ownStep f.zone := by
    rw [State.ownStep, demand _ (.inl rfl), short _ (.inl rfl), ← State.ownStep]
  have assisted : assistedStep t g = assistedStep s f := by
    unfold assistedStep
    rw [zone, assist, own]
    split
    · rfl
    · next a ha => rw [short a (.inr ha), demand a (.inr ha)]
  rw [fanTarget_eq, fanTarget_eq, zone, drive _ (.inl rfl), assisted]

/-! ### A fan takes a target (R106) -/

/-- A fan takes a target computed again: one that differs from its own it takes and moves on (R104, R106). -/
def Fan.settleTo (now off t : Nat) (f : Fan) : Fan := if t = f.target then f else f.retarget now off t

theorem takeUpFire_eq (s : State) : takeUpFire s = s.setFans (s.fans.mapWith fun _ f =>
    if s.zoneIs f.zone fun r => r.fire = .active then
      f.settleTo s.partTime s.fanSettings.minOffTime (fanTarget s f)
    else f) := rfl

theorem retargetFan_eq (n : Nat) (s : State) : retargetFan n s = s.setFans (s.fans.upd n fun f =>
    f.settleTo s.partTime s.fanSettings.minOffTime (fanTarget s f)) := rfl

/-- What a fan keeps as it takes a target: its zone, its assist zone, its health, whether it is STARTING or UNREACHED, and
that it stands on its target. -/
structure Fan.Retargeted (f g : Fan) : Prop where
  zone : g.zone = f.zone
  assist : g.assist = f.assist
  unhealthy : g.unhealthy = f.unhealthy
  starting : g.state = .starting ↔ f.state = .starting
  unreached : f.state = .unreached → g.state = .unreached
  stands : FanStands f → FanStands g

theorem Fan.Retargeted.refl (f : Fan) : f.Retargeted f := ⟨rfl, rfl, rfl, .rfl, id, id⟩

/-- In these states a fan takes any target without a move. -/
def FanState.parked : FanState → Prop
  | .stopped | .queued | .starting | .running => False
  | _ => True

theorem Fan.retarget_parked {f : Fan} (h : f.state.parked) (now off t : Nat) :
    f.retarget now off t = { f with target := t } := by
  unfold Fan.retarget
  cases e : f.state <;> simp_all [FanState.parked]

theorem Fan.settleTo_parked {f : Fan} (h : f.state.parked) (now off t : Nat) :
    f.settleTo now off t = { f with target := t } := by
  unfold Fan.settleTo
  split
  · next same => rw [same]
  · exact f.retarget_parked h now off t

theorem Fan.retarget_target (f : Fan) (now off t : Nat) : (f.retarget now off t).target = t := by
  unfold Fan.retarget
  split
  · split <;> rfl
  · split <;> rfl
  · rfl
  · split <;> rfl
  · rfl

/-- The state in which a new target leaves a fan (R106). -/
theorem Fan.retarget_state (f : Fan) (now off t : Nat) : (f.retarget now off t).state = match f.state with
    | .stopped => if 0 < t then .queued else .stopped
    | .queued => if t = 0 then .stopped else .queued
    | .running => if t = 0 then .rundown else .running
    | st => st := by
  cases e : f.state <;> simp only [Fan.retarget, e]
  case stopped | queued | running => split <;> rfl

theorem Fan.retarget_seat (f : Fan) (now off t : Nat) :
    (f.retarget now off t).zone = f.zone ∧ (f.retarget now off t).assist = f.assist := by
  unfold Fan.retarget
  split
  · split <;> exact ⟨rfl, rfl⟩
  · split <;> exact ⟨rfl, rfl⟩
  · exact ⟨rfl, rfl⟩
  · split <;> exact ⟨rfl, rfl⟩
  · exact ⟨rfl, rfl⟩

/-! ### A fan stands on its target (R105, R106) -/

theorem toRundown_stands {f : Fan} (trips : f.trips.length ≤ 3) (now off : Nat) : FanStands (f.toRundown now off) := by
  simpa [FanStands, Fan.toRundown] using trips

theorem toUnhealthy_stands {f : Fan} (trips : f.trips.length ≤ 3) {st : FanState}
    (h : st = .unreached ∨ st = .tripped ∨ st = .lockedOut ∨ st = .localControl) : FanStands (f.toUnhealthy st) := by
  rcases h with rfl | rfl | rfl | rfl <;> simpa [FanStands, Fan.toUnhealthy] using trips

theorem toQueued_stands {f : Fan} (trips : f.trips.length ≤ 3) (starts : f.startEnds = none) (target : 0 < f.target)
    (now : Nat) : FanStands (f.toQueued now) := by
  simpa [FanStands, Fan.toQueued, starts, target] using trips

theorem toStopped_stands {f : Fan} (trips : f.trips.length ≤ 3) (starts : f.startEnds = none) (target : f.target = 0) :
    FanStands f.toStopped := by
  simpa [FanStands, Fan.toStopped, starts, target] using trips

theorem FanStands.trips_le {f : Fan} (h : FanStands f) : f.trips.length ≤ 3 := by
  obtain ⟨_, _, _, _, _, _, trips⟩ := h
  exact trips

theorem FanStands.startEnds_none {f : Fan} (h : FanStands f) (st : f.state ≠ .starting) : f.startEnds = none := by
  obtain ⟨_, _, _, starts, _⟩ := h
  simpa [st] using starts

theorem FanStands.rundownEnds_none {f : Fan} (h : FanStands f) (st : f.state ≠ .rundown) : f.rundownEnds = none := by
  obtain ⟨_, _, _, _, ends, _⟩ := h
  simpa [st] using ends

theorem admitted_stands {f : Fan} (h : FanStands f) (st : f.state = .queued) (now start : Nat) :
    FanStands (f.admitted now start) := by
  simpa [FanStands, Fan.admitted, h.rundownEnds_none (by rw [st]; nofun)] using h.trips_le

theorem endStart_stands {f : Fan} (h : FanStands f) (st : f.state = .starting) (now off : Nat) :
    FanStands (f.endStart now off) := by
  unfold Fan.endStart
  split
  · next pos =>
    obtain ⟨_, _, _, _, ends, queued, trips⟩ := h
    simp_all [FanStands]
  · exact toRundown_stands h.trips_le now off

theorem endRundown_stands {f : Fan} (h : FanStands f) (st : f.state = .rundown) (now : Nat) :
    FanStands (f.endRundown now) := by
  have starts := h.startEnds_none (by rw [st]; nofun)
  unfold Fan.endRundown
  split
  · next pos => exact toQueued_stands h.trips_le starts pos now
  · next zero => exact toStopped_stands h.trips_le starts (by omega)

/-- Another target leaves a fan standing where it needs no move, or is commanded where it runs. -/
theorem retarget_stands {f : Fan} (h : FanStands f) (now off t : Nat) : FanStands (f.retarget now off t) := by
  have trips := h.trips_le
  cases e : f.state
  case stopped =>
    have starts := h.startEnds_none (by rw [e]; nofun)
    simp only [Fan.retarget, e]
    split
    · next pos => exact toQueued_stands (f := { f with target := t }) trips starts pos now
    · next zero => simp_all [FanStands]
  case queued =>
    have starts := h.startEnds_none (by rw [e]; nofun)
    simp only [Fan.retarget, e]
    split
    · next zero => exact toStopped_stands (f := { f with target := t }) trips starts zero
    · next pos => simp_all [FanStands, Nat.pos_iff_ne_zero]
  case starting =>
    simp only [Fan.retarget, e]
    simp_all [FanStands]
  case running =>
    simp only [Fan.retarget, e]
    split
    · exact toRundown_stands (f := { f with target := t }) trips now off
    · next pos => simp_all [FanStands, Nat.pos_iff_ne_zero]
  all_goals
    rw [f.retarget_parked (by rw [e]; trivial)]
    simp_all [FanStands]

theorem Fan.retarget_retargeted (f : Fan) (now off t : Nat) : f.Retargeted (f.retarget now off t) where
  zone := (f.retarget_seat now off t).1
  assist := (f.retarget_seat now off t).2
  unhealthy := by
    rw [Bool.eq_iff_iff, Fan.unhealthy_iff, Fan.unhealthy_iff, f.retarget_state]
    cases f.state
    case stopped | queued | running => dsimp only; split <;> simp
    all_goals rfl
  starting := by
    rw [f.retarget_state]
    cases f.state <;> simp only
    case stopped | queued | running => split <;> simp
  unreached h := by rw [f.retarget_state, h]
  stands h := retarget_stands h now off t

theorem Fan.settleTo_retargeted (f : Fan) (now off t : Nat) : f.Retargeted (f.settleTo now off t) := by
  unfold Fan.settleTo
  split
  · exact .refl f
  · exact f.retarget_retargeted now off t

theorem Fan.settleTo_target (f : Fan) (now off t : Nat) : (f.settleTo now off t).target = t := by
  unfold Fan.settleTo
  split
  · next same => exact same.symm
  · exact f.retarget_target now off t

/-! ### Fans that take targets where they stand -/

theorem Fan.Retargeted.shortens {f g : Fan} (h : f.Retargeted g) (z : Nat) : g.shortens z = f.shortens z := by
  rw [Fan.shortens, h.zone, h.unhealthy, ← Fan.shortens]

variable {g : Nat → Fan → Fan}

theorem short_mapWith (h : ∀ n f, Fan.Retargeted f (g n f)) (z : Nat) (s : State) :
    (s.setFans (s.fans.mapWith g)).short z = s.short z := by
  rw [Bool.eq_iff_iff, short_iff, short_iff]
  refine and_congr_right fun _ => ?_
  simp [Table.mapWith, (h _ _).shortens]

theorem startingCount_mapWith (h : ∀ n f, Fan.Retargeted f (g n f)) (s : State) :
    startingCount (s.setFans (s.fans.mapWith g)) = startingCount s := by
  have same (q : Nat × Fan) : decide ((g q.1 q.2).state = .starting) = decide (q.2.state = .starting) :=
    decide_eq_decide.2 (h q.1 q.2).starting
  simp only [startingCount, State.setFans_fans, Table.mapWith, List.filter_map, List.length_map, Function.comp_def, same]

/-- The fan as a retargeting of a zone leaves it (R103, R104). -/
def retargeted (z : Nat) (s : State) (f : Fan) : Fan :=
  if f.zone = z || f.assist = some z then f.settleTo s.partTime s.fanSettings.minOffTime (fanTarget s f) else f

theorem retargeted_retargeted (z : Nat) (s : State) (f : Fan) : f.Retargeted (retargeted z s f) := by
  unfold retargeted
  split
  · exact f.settleTo_retargeted _ _ _
  · exact .refl f

theorem retargeted_of_restsOn {z : Nat} {f : Fan} (h : f.restsOn z) (s : State) :
    retargeted z s f = f.settleTo s.partTime s.fanSettings.minOffTime (fanTarget s f) :=
  if_pos (by simpa [Fan.restsOn] using h)

theorem retargeted_of_apart {z : Nat} {f : Fan} (h : ¬f.restsOn z) (s : State) : retargeted z s f = f :=
  if_neg (by simpa [Fan.restsOn] using h)

theorem retargetZone_fans (z : Nat) (s : State) :
    (retargetZone z s).fans = s.fans.mapWith fun _ f => retargeted z s f := rfl

theorem retargetZone_find (z n : Nat) (s : State) :
    (retargetZone z s).fans.find n = (s.fans.find n).map (retargeted z s) := by
  rw [retargetZone_fans, Table.find_mapWith]

theorem retargetZone_short (z w : Nat) (s : State) : (retargetZone z s).short w = s.short w :=
  short_mapWith (fun _ f => retargeted_retargeted z s f) w s

end Sys2Proof.Machine
end

section
/-!
SUPPORT. The start queue and the start gate (R107, R108): what an admission is, what the gate keeps, and what it leaves.
-/
namespace Sys2Proof.Machine

variable {s t : State}

/-! ### The start queue (R107) -/

/-- One fan stands no later in the start queue than another: by urgency class, then time queued, then fan number. -/
def NoLater (s : State) (p q : Nat × Fan) : Prop :=
  urgency s p.2.zone < urgency s q.2.zone ∨
    (urgency s p.2.zone = urgency s q.2.zone ∧
      (p.2.timeQueued.getD 0 < q.2.timeQueued.getD 0 ∨
        (p.2.timeQueued.getD 0 = q.2.timeQueued.getD 0 ∧ p.1 ≤ q.1)))

theorem NoLater.total (p q : Nat × Fan) : NoLater s p q ∨ NoLater s q p := by
  unfold NoLater
  omega

theorem NoLater.trans {p q r : Nat × Fan} (h : NoLater s p q) (k : NoLater s q r) : NoLater s p r := by
  unfold NoLater at *
  omega

theorem NoLater.number_eq {p q : Nat × Fan} (h : NoLater s p q) (k : NoLater s q p) : p.1 = q.1 := by
  unfold NoLater at *
  omega

theorem startQueue_perm (s : State) : (startQueue s).Perm (s.fans.filter fun p => p.2.state = .queued) :=
  List.perm_insertionSort _ _

theorem startQueue_pairwise (s : State) : (startQueue s).Pairwise (NoLater s) := by
  let r : Nat × Fan → Nat × Fan → Prop := fun p q =>
    urgency s p.2.zone < urgency s q.2.zone ∨
      (urgency s p.2.zone = urgency s q.2.zone ∧
        (p.2.timeQueued.getD 0 < q.2.timeQueued.getD 0 ∨
          (p.2.timeQueued.getD 0 = q.2.timeQueued.getD 0 ∧ p.1 ≤ q.1)))
  have total : Std.Total r := ⟨NoLater.total⟩
  have trans : IsTrans _ r := ⟨fun _ _ _ => NoLater.trans⟩
  exact List.pairwise_insertionSort r _

theorem mem_startQueue {q : Nat × Fan} : q ∈ startQueue s ↔ q ∈ s.fans ∧ q.2.state = .queued := by
  rw [(startQueue_perm s).mem_iff, List.mem_filter, decide_eq_true_iff]

/-- Over a canonical table the queue holds the QUEUED fans, each under its number. -/
theorem mem_startQueue_iff (wf : s.fans.wf = true) {n : Nat} {f : Fan} :
    (n, f) ∈ startQueue s ↔ s.fans.find n = some f ∧ f.state = .queued :=
  mem_startQueue.trans (and_congr_left fun _ => ⟨Table.find_of_mem wf, Table.mem_of_find⟩)

theorem startQueue_numbers_distinct (wf : s.fans.wf = true) : (startQueue s).Pairwise fun p q => p.1 ≠ q.1 :=
  ((startQueue_perm s).pairwise_iff Ne.symm).2 (((Table.pairwise_of_wf wf).filter _).imp fun {_ _} lt => Nat.ne_of_lt lt)

theorem startQueue_nodup (wf : s.fans.wf = true) : (startQueue s).Nodup :=
  (startQueue_numbers_distinct wf).imp fun {_ _} ne e => ne (congrArg Prod.fst e)

/-! ### An admission (R108) -/

/-- A record changed under a number that a canonical table lists is a record put there. -/
theorem Table.upd_eq_put {α : Type} {l : Table α} (wf : l.wf = true) {n : Nat} {x : α} (hx : l.find n = some x)
    (f : α → α) : l.upd n f = l.put n (f x) := by
  induction l with
  | nil => simp at hx
  | cons p l ih =>
    obtain ⟨k, v⟩ := p
    obtain ⟨below, rest⟩ := Table.wf_cons.1 wf
    rw [Table.find] at hx
    rw [Table.put]
    by_cases hn : n = k
    · subst hn
      obtain rfl : v = x := by simpa using hx
      have others : Table.upd l n f = l := by
        have apart : ∀ q ∈ l, ¬q.1 = n := fun q hq => (below q.1 (List.mem_map_of_mem hq)).ne'
        simp only [Table.upd, Table.mapWith]
        refine (List.map_congr_left fun q hq => ?_).trans (List.map_id l)
        rw [if_neg (apart q hq), id]
      simpa [Table.upd, Table.mapWith] using others
    · rw [if_neg hn] at hx
      have := below n (Table.mem_keys_of_find hx)
      rw [if_neg (by omega), if_neg hn, ← ih rest hx]
      simp [Table.upd, Table.mapWith, Ne.symm hn]

/-- The state with a fan admitted. -/
def admitFan (n : Nat) (f : Fan) (s : State) : State :=
  s.setFans (s.fans.put n (f.admitted s.partTime s.fanSettings.startTime))

theorem admitFans_full (k : Nat) (full : s.fanSettings.startLimit ≤ startingCount s) : admitFans k s = s := by
  cases k with
  | zero => rfl
  | succ k => rw [admitFans, if_neg (by omega)]

theorem admitFans_idle (k : Nat) (idle : startQueue s = []) : admitFans k s = s := by
  cases k with
  | zero => rfl
  | succ k =>
    rw [admitFans, idle]
    exact ite_self s

theorem admitFans_admits (k : Nat) (wf : s.fans.wf = true) {n : Nat} {f : Fan} {rest : List (Nat × Fan)}
    (room : startingCount s < s.fanSettings.startLimit) (head : startQueue s = (n, f) :: rest) :
    admitFans (k + 1) s = admitFans k (admitFan n f s) := by
  have found : s.fans.find n = some f := ((mem_startQueue_iff wf).1 (head ▸ List.mem_cons_self)).1
  rw [admitFans, if_pos room, head, admitFan, ← Table.upd_eq_put wf found]

theorem admitFan_wf (wf : s.fans.wf = true) (n : Nat) (f : Fan) : (admitFan n f s).fans.wf = true := Table.wf_put wf _ _

theorem admitFan_find (n m : Nat) (f : Fan) (s : State) : (admitFan n f s).fans.find m =
    if m = n then some (f.admitted s.partTime s.fanSettings.startTime) else s.fans.find m := Table.find_put _ _ _ _

theorem admitFan_frame (n : Nat) (f : Fan) (s : State) : SameExcept [.fans] s (admitFan n f s) := by
  simp (disch := decide) [admitFan]

/-- A fan admitted leaves the head of the queue, and the rest of it stands. -/
theorem startQueue_admitFan (wf : s.fans.wf = true) {n : Nat} {f : Fan} {rest : List (Nat × Fan)}
    (head : startQueue s = (n, f) :: rest) : startQueue (admitFan n f s) = rest := by
  have wf' := admitFan_wf wf n f
  have distinct := head ▸ startQueue_numbers_distinct wf
  have sorted := head ▸ startQueue_pairwise s
  obtain ⟨apart, _⟩ := List.pairwise_cons.1 distinct
  have members (q : Nat × Fan) : q ∈ startQueue (admitFan n f s) ↔ q ∈ rest := by
    obtain ⟨m, g⟩ := q
    have before : (m, g) ∈ startQueue s ↔ (m, g) = (n, f) ∨ (m, g) ∈ rest := by rw [head, List.mem_cons]
    rw [mem_startQueue_iff wf] at before
    rw [mem_startQueue_iff wf', admitFan_find]
    by_cases hm : m = n
    · subst hm
      have out : (m, g) ∉ rest := fun hg => apart _ hg rfl
      simp only [if_true, Option.some.injEq, out, iff_false, not_and]
      rintro rfl
      nofun
    · simpa [hm] using before
  have perm : (startQueue (admitFan n f s)).Perm rest :=
    (List.perm_ext_iff_of_nodup (startQueue_nodup wf') ((head ▸ startQueue_nodup wf).of_cons)).2 members
  have order : (startQueue (admitFan n f s)).Pairwise (NoLater s) := startQueue_pairwise (admitFan n f s)
  refine perm.eq_of_pairwise (fun p q hp hq h k => Prod.ext (h.number_eq k) ?_) order (List.pairwise_cons.1 sorted).2
  have left := ((mem_startQueue_iff wf').1 hp).1
  have right := ((mem_startQueue_iff wf').1 ((members q).2 hq)).1
  exact Option.some.inj (left.symm.trans (h.number_eq k ▸ right))

/-! ### What the gate leaves (R108) -/

/-- The state t is s with the fans at the front of its queue admitted. -/
structure Admits (front : List (Nat × Fan)) (s t : State) : Prop where
  frame : SameExcept [.fans] s t
  wf : t.fans.wf = true
  find : ∀ n, t.fans.find n = if n ∈ front.map Prod.fst then
    (s.fans.find n).map (Fan.admitted s.partTime s.fanSettings.startTime) else s.fans.find n
  queue : startQueue s = front ++ startQueue t

theorem Admits.nil (wf : s.fans.wf = true) : Admits [] s s := ⟨.refl _ s, wf, fun _ => rfl, rfl⟩

theorem Admits.cons {front : List (Nat × Fan)} {n : Nat} {f : Fan} (wf : s.fans.wf = true)
    (head : startQueue s = (n, f) :: startQueue (admitFan n f s)) (h : Admits front (admitFan n f s) t) :
    Admits ((n, f) :: front) s t where
  frame := (admitFan_frame n f s).trans h.frame
  wf := h.wf
  queue := by rw [head, h.queue, List.cons_append]
  find m := by
    have found : s.fans.find n = some f := ((mem_startQueue_iff wf).1 (head ▸ List.mem_cons_self)).1
    have distinct := head ▸ startQueue_numbers_distinct wf
    obtain ⟨apart, _⟩ := List.pairwise_cons.1 distinct
    rw [h.find, admitFan_find]
    simp only [List.map_cons, List.mem_cons]
    by_cases hm : m = n
    · subst hm
      have out : m ∉ front.map Prod.fst := fun hmem => by
        obtain ⟨q, hq, e⟩ := List.mem_map.1 hmem
        exact apart q (h.queue ▸ List.mem_append_left _ hq) e.symm
      rw [if_neg out, if_pos rfl, if_pos (.inl rfl), found, Option.map_some]
    · simp only [hm, if_false, false_or]
      rfl

/-- So many admissions take a front of the queue, and stop where it is empty or the start limit is reached. -/
theorem admitFans_takes_front (k : Nat) (wf : s.fans.wf = true) : ∃ front, Admits front s (admitFans k s) ∧
    (startQueue (admitFans k s) = [] ∨ s.fanSettings.startLimit ≤ startingCount (admitFans k s) ∨ front.length = k) := by
  induction k generalizing s with
  | zero => exact ⟨[], .nil wf, .inr (.inr rfl)⟩
  | succ k ih =>
    by_cases room : startingCount s < s.fanSettings.startLimit
    · cases head : startQueue s with
      | nil =>
        rw [admitFans_idle _ head]
        exact ⟨[], .nil wf, .inl head⟩
      | cons p rest =>
        obtain ⟨n, f⟩ := p
        rw [admitFans_admits k wf room head]
        obtain ⟨front, admits, stops⟩ := ih (admitFan_wf wf n f)
        refine ⟨(n, f) :: front, admits.cons wf (by rw [head, startQueue_admitFan wf head]), ?_⟩
        exact stops.imp_right (.imp_right fun e => by rw [List.length_cons, e])
    · rw [admitFans_full _ (not_lt.1 room)]
      exact ⟨[], .nil wf, .inr (.inl (not_lt.1 room))⟩

theorem gate_admits (wf : s.fans.wf = true) : ∃ front, Admits front s (gate s) := by
  obtain ⟨front, admits, _⟩ := admitFans_takes_front Config.fanSlots wf
  exact ⟨front, admits⟩

/-- The queue over a table of 24 slots is no longer than that. -/
theorem startQueue_length_le (wf : s.fans.wf = true) {k : Nat} (below : KeysBelow k s.fans) : (startQueue s).length ≤ k := by
  have numbers : ((startQueue s).map Prod.fst).Nodup := List.pairwise_map.2 (startQueue_numbers_distinct wf)
  have sub : (startQueue s).map Prod.fst ⊆ List.range k := fun n hn => by
    obtain ⟨q, hq, rfl⟩ := List.mem_map.1 hn
    exact List.mem_range.2 (below _ (List.mem_map_of_mem (mem_startQueue.1 hq).1))
  simpa using (List.subperm_of_subset numbers sub).length_le

/-- The gate leaves no fan waiting while there is room (R108). -/
theorem gate_leaves (wf : s.fans.wf = true) (below : KeysBelow Config.fanSlots s.fans) :
    startQueue (gate s) = [] ∨ s.fanSettings.startLimit ≤ startingCount (gate s) := by
  obtain ⟨front, admits, stops⟩ := admitFans_takes_front Config.fanSlots wf
  rcases stops with empty | full | all
  · exact .inl empty
  · exact .inr full
  · have short := startQueue_length_le wf below
    rw [admits.queue, List.length_append] at short
    exact .inl (List.length_eq_zero_iff.1 (show (startQueue (gate s)).length = 0 by unfold gate; omega))

/-- What an admission keeps while there is room, the gate keeps. -/
theorem gate_keeps {P : State → Prop} (wf : ∀ s, P s → s.fans.wf = true)
    (step : ∀ s n f, P s → s.fans.find n = some f → f.state = .queued → startingCount s < s.fanSettings.startLimit →
      P (admitFan n f s)) (hs : P s) : P (gate s) := by
  have fuel (k : Nat) (s : State) (hs : P s) : P (admitFans k s) := by
    induction k generalizing s with
    | zero => exact hs
    | succ k ih =>
      by_cases room : startingCount s < s.fanSettings.startLimit
      · cases head : startQueue s with
        | nil => rwa [admitFans_idle _ head]
        | cons p rest =>
          obtain ⟨n, f⟩ := p
          obtain ⟨found, queued⟩ := (mem_startQueue_iff (wf s hs)).1 (head ▸ List.mem_cons_self)
          rw [admitFans_admits k (wf s hs) room head]
          exact ih _ (step s n f hs found queued room)
      · rwa [admitFans_full _ (not_lt.1 room)]
  exact fuel _ s hs

/-! ### A fan record after the gate -/

theorem gate_except (s : State) : SameExcept [.fans] s (gate s) := (gate_frame (by decide)).2 (.refl _ s)

theorem gate_wf (wf : s.fans.wf = true) : (gate s).fans.wf = true :=
  let ⟨_, admits⟩ := gate_admits wf
  admits.wf

/-- The gate admits a QUEUED fan, or leaves the record. -/
theorem gate_find (wf : s.fans.wf = true) (n : Nat) : (gate s).fans.find n = s.fans.find n ∨
    ∃ f, s.fans.find n = some f ∧ f.state = .queued ∧
      (gate s).fans.find n = some (f.admitted s.partTime s.fanSettings.startTime) := by
  obtain ⟨front, admits⟩ := gate_admits wf
  rw [admits.find]
  split
  · next mem =>
    obtain ⟨⟨m, f⟩, hq, rfl⟩ := List.mem_map.1 mem
    obtain ⟨found, queued⟩ := (mem_startQueue_iff wf).1 (admits.queue ▸ List.mem_append_left _ hq)
    exact .inr ⟨f, found, queued, by rw [found, Option.map_some]⟩
  · exact .inl rfl

theorem gate_find_standing (wf : s.fans.wf = true) {n : Nat} {f : Fan} (found : s.fans.find n = some f)
    (standing : f.state ≠ .queued) : (gate s).fans.find n = some f := by
  rcases gate_find wf n with same | ⟨g, found', queued, _⟩
  · exact same.trans found
  · exact absurd (Option.some.inj (found.symm.trans found') ▸ queued) standing

theorem gate_short (wf : s.fans.wf = true) (z : Nat) : (gate s).short z = s.short z := by
  refine short_congr wf (gate_wf wf) (congrArg _ (congrArg (Table.find · z) (gate_except s .zones (by decide)))) fun n => ?_
  rcases gate_find wf n with same | ⟨f, found, queued, admitted⟩
  · rw [same]
  · rw [found, admitted]
    simp [Fan.shortens, Fan.unhealthy, Fan.admitted, queued]

end Sys2Proof.Machine
end

section
/-!
SUPPORT. Targets and their moves by cases, and the urgency classes (R104, R106, R107).
-/
namespace Sys2Proof.Machine

variable {s : State}

/-! ### Target steps by their stages (R104) -/

theorem ownStep_eq (s : State) (z : Nat) : s.ownStep z =
    if s.short z = true ∧ 1 ≤ s.demandOf z then min 4 (s.demandOf z + 1) else s.demandOf z := by
  simp only [State.ownStep, Bool.and_eq_true, decide_eq_true_eq]

theorem fanTarget_inFire {f : Fan} {y : Zone} (zone : s.zone f.zone = some y) (fire : y.fire = .active) :
    fanTarget s f = if y.config.haltRole = true then 0 else 4 := by
  simp only [fanTarget, zone, fire, if_true]

theorem fanTarget_outsideFire {f : Fan} (none_ : ¬∃ y, s.zone f.zone = some y ∧ y.fire = .active) :
    fanTarget s f = assistedStep s f := by
  unfold fanTarget
  split
  · rfl
  · next y zone => exact if_neg fun fire => none_ ⟨y, zone, fire⟩

theorem assistedStep_assisting {f : Fan} {a : Nat} (assist : f.assist = some a) (short : s.short a = true) :
    assistedStep s f = max (s.ownStep f.zone) (s.demandOf a - 1) := by
  simp only [assistedStep, assist, short, if_true]

theorem assistedStep_own {f : Fan} (none_ : ∀ a, f.assist = some a → s.short a = false) :
    assistedStep s f = s.ownStep f.zone := by
  unfold assistedStep
  split
  · rfl
  · next a assist => rw [none_ a assist, if_neg Bool.false_ne_true]

/-! ### Moves on a new target (R106) -/

section
variable {f : Fan} {now off t : Nat}

theorem retarget_stopped (st : f.state = .stopped) (pos : 0 < t) : f.retarget now off t =
    { f with target := t, state := .queued, commanded := 0, rundownEnds := none, timeQueued := some now } := by
  simp only [Fan.retarget, st, if_pos pos, Fan.toQueued]

theorem retarget_queued (st : f.state = .queued) (zero : t = 0) : f.retarget now off t =
    { f with target := 0, state := .stopped, commanded := 0, rundownEnds := none, timeQueued := none } := by
  simp only [Fan.retarget, st, zero, if_true, Fan.toStopped]

theorem retarget_commanded (st : f.state = .starting ∨ (f.state = .running ∧ 0 < t)) : f.retarget now off t =
    { f with target := t, commanded := t } := by
  rcases st with st | ⟨st, pos⟩
  · simp only [Fan.retarget, st]
  · simp only [Fan.retarget, st, if_neg (Nat.ne_of_gt pos)]

theorem retarget_running (st : f.state = .running) (zero : t = 0) : f.retarget now off t =
    { f with target := 0, state := .rundown, commanded := 0, startEnds := none, timeQueued := none,
             rundownEnds := some (now + off) } := by
  simp only [Fan.retarget, st, zero, if_true, Fan.toRundown]

theorem retarget_other (starting : f.state ≠ .starting) (running : f.state ≠ .running)
    (stopped : f.state = .stopped → t = 0) (queued : f.state = .queued → 0 < t) :
    f.retarget now off t = { f with target := t } := by
  unfold Fan.retarget
  split
  · next st => rw [if_neg (by rw [stopped st]; exact lt_irrefl 0)]
  · next st => rw [if_neg (Nat.ne_of_gt (queued st))]
  · next st => exact absurd st starting
  · next st => exact absurd st running
  · rfl

end

/-! ### Urgency classes (R107) -/

theorem urgency_inFire {z : Nat} {r : Zone} (zone : s.zone z = some r) (fire : r.fire = .active) : urgency s z = 0 := by
  simp only [urgency, zone, fire, if_true]

theorem urgency_outsideFire {z : Nat} {r : Zone} (zone : s.zone z = some r) (fire : r.fire ≠ .active) : urgency s z =
    if r.air.state = .bar then 1 else if r.air.state = .act then 2 else 3 := by
  simp only [urgency, zone, fire, if_false]

theorem NoLater.spelled {p q : Nat × Fan} (h : NoLater s p q) : urgency s p.2.zone ≤ urgency s q.2.zone ∧
    (urgency s p.2.zone = urgency s q.2.zone → p.2.timeQueued.getD 0 ≤ q.2.timeQueued.getD 0 ∧
      (p.2.timeQueued.getD 0 = q.2.timeQueued.getD 0 → p.1 ≤ q.1)) := by
  unfold NoLater at h
  omega

/-- The fans that the gate admits are those of a front of its queue. -/
theorem Admits.changes_front {front : List (Nat × Fan)} {t : State} (wf : s.fans.wf = true) (h : Admits front s t) {i : Nat}
    {p : Nat × Fan} (hp : (startQueue s)[i]? = some p) : i < front.length ↔ t.fans.find p.1 ≠ s.fans.find p.1 := by
  have queued := (mem_startQueue_iff wf).1 (List.mem_of_getElem? hp)
  have distinct := startQueue_numbers_distinct wf
  have found := h.find p.1
  rw [h.queue] at hp distinct
  by_cases first : i < front.length
  · rw [List.getElem?_append_left first] at hp
    rw [if_pos (List.mem_map_of_mem (List.mem_of_getElem? hp)), queued.1, Option.map_some] at found
    refine iff_of_true first fun same => ?_
    have states := congrArg Fan.state (Option.some.inj (found.symm.trans (same.trans queued.1)))
    exact nomatch states.trans queued.2
  · rw [List.getElem?_append_right (not_lt.1 first)] at hp
    obtain ⟨_, _, apart⟩ := List.pairwise_append.1 distinct
    have out : p.1 ∉ front.map Prod.fst := fun mem => by
      obtain ⟨q, hq, e⟩ := List.mem_map.1 mem
      exact apart q hq p (List.mem_of_getElem? hp) e
    rw [if_neg out] at found
    exact iff_of_false first fun ne => ne found

end Sys2Proof.Machine
end

section
open Sys2Proof Sys2Proof.Machine

/-- Settles O46: targets, moves and urgency case by case; the gate admits a front of its queue, and stops where that is
empty or the start limit is reached. -/
theorem theGateAdmitsInQueueOrder : Obligations.TheGateAdmitsInQueueOrder := by
  refine ⟨fun s => ⟨fun z => ?_,
    fun f => ⟨fun y => fanTarget_inFire, fun outside => ⟨fun a assist short => ?_, fun none_ => ?_⟩⟩,
    fun z => ⟨?_, fun n none_ => ?_, fun n f found => ⟨fun apart => ?_, fun rests differs => ?_⟩⟩⟩,
    fun s => ⟨startQueue_perm s, (startQueue_pairwise s).imp NoLater.spelled,
      fun z r zone => ⟨urgency_inFire zone, fun fire => ?_⟩,
      fun wf below => ⟨gate_except s, ?_, fun n => gate_find wf n, ?_⟩⟩⟩
  · rw [short_iff]
    simp only [Fan.shortens, Bool.and_eq_true, decide_eq_true_eq, Fan.unhealthy_iff]
  · rw [fanTarget_outsideFire outside, assistedStep_assisting assist short, ownStep_eq]
    rfl
  · rw [fanTarget_outsideFire outside, assistedStep_own none_, ownStep_eq]
    rfl
  · exact (retargetZone_frame (by decide) z).2 (.refl _ s)
  · rw [retargetZone_find, none_, Option.map_none]
  · rw [retargetZone_find, found, Option.map_some]
    by_cases rests : f.restsOn z
    · have same := apart.resolve_left fun ⟨zone, assist⟩ => rests.elim zone assist
      rw [retargeted_of_restsOn rests, Fan.settleTo, if_pos same]
    · rw [retargeted_of_apart rests]
  · rw [retargetZone_find, found, Option.map_some, retargeted_of_restsOn rests, Fan.settleTo, if_neg differs]
    exact ⟨fun st pos => congrArg some (retarget_stopped st pos), fun st zero => congrArg some (retarget_queued st zero),
      fun st => congrArg some (retarget_commanded st), fun st zero => congrArg some (retarget_running st zero),
      fun starting running stopped queued => congrArg some (retarget_other starting running stopped queued)⟩
  · rw [urgency_outsideFire zone fire]
    exact ⟨fun bar => if_pos bar, fun act => by rw [act]; rfl, fun bar act => by rw [if_neg bar, if_neg act]⟩
  · exact (gate_leaves wf below).imp_left List.isEmpty_iff.2
  · obtain ⟨front, admits⟩ := gate_admits wf
    exact ⟨front.length, fun i p hp => admits.changes_front wf hp⟩

end

section
/-!
SUPPORT. A fan's record replaced, and what follows from it: its zone's shortness, the targets that rest on it, and the gate
(R103, R104, R108, R109 to R114).
-/
namespace Sys2Proof.Machine

variable {s t u : State} {n : Nat} {f g : Fan}

/-! ### A record replaced -/

theorem short_put (wf : s.fans.wf = true) (found : s.fans.find n = some f) (zone : g.zone = f.zone) {z : Nat}
    (same : z = f.zone → g.unhealthy = f.unhealthy) : (s.setFans (s.fans.put n g)).short z = s.short z := by
  refine short_congr (t := s.setFans (s.fans.put n g)) wf (Table.wf_put wf n g) rfl fun m => ?_
  rw [State.setFans_fans, Table.find_put]
  split
  · next e =>
    rw [e, found, Option.any_some, Option.any_some, Fan.shortens, Fan.shortens, zone]
    by_cases own : f.zone = z
    · rw [same own.symm]
    · simp [own]
  · rfl

theorem startingCount_put (wf : s.fans.wf = true) (found : s.fans.find n = some f)
    (starting : g.state = .starting → f.state = .starting) :
    startingCount (s.setFans (s.fans.put n g)) ≤ startingCount s := by
  have moved := Table.countP_put wf found g fun p => decide (p.2.state = .starting)
  simp only [startingCount, State.setFans_fans, ← List.countP_eq_length_filter]
  by_cases new : g.state = .starting
  · simp only [Table.one, new, starting new, decide_true, if_true] at moved
    omega
  · simp only [Table.one, new, decide_false] at moved
    simp only [Bool.false_eq_true, if_false] at moved
    omega

theorem startingCount_put_apart (wf : s.fans.wf = true) (found : s.fans.find n = some f) (before : f.state ≠ .starting)
    (after : g.state ≠ .starting) : startingCount (s.setFans (s.fans.put n g)) = startingCount s := by
  have moved := Table.countP_put wf found g fun p => decide (p.2.state = .starting)
  simp only [startingCount, State.setFans_fans, ← List.countP_eq_length_filter]
  simpa [Table.one, before, after] using moved

/-! ### Targets settled where shortness has moved (R103) -/

/-- The targets that rest on a zone computed again where its shortness is no longer the one given (R103). -/
def resettle (z : Nat) (before : Bool) (s : State) : State := if s.short z = before then s else retargetZone z s

theorem putFan_eq (n : Nat) (f : Fan) (s : State) :
    putFan n f s = gate (resettle f.zone (s.short f.zone) (s.setFans (s.fans.put n f))) := rfl

theorem fanDown_eq (n : Nat) (f : Fan) (s : State) :
    fanDown n f s = gate (resettle f.zone (s.short f.zone) (gate (s.setFans (s.fans.put n f)))) := rfl

theorem resettle_except (z : Nat) (before : Bool) (s : State) : SameExcept [.fans] s (resettle z before s) := by
  unfold resettle
  split
  · exact .refl _ s
  · exact (retargetZone_frame (by decide) z).2 (.refl _ s)

theorem resettle_wf (wf : s.fans.wf = true) (z : Nat) (before : Bool) : (resettle z before s).fans.wf = true := by
  unfold resettle
  split
  · exact wf
  · exact Table.wf_mapWith wf fun _ f => retargeted z s f

theorem resettle_short (z w : Nat) (before : Bool) (s : State) : (resettle z before s).short w = s.short w := by
  unfold resettle
  split
  · rfl
  · exact retargetZone_short z w s

/-- A target is computed as before where the zone records stand and no zone's shortness has moved. -/
theorem fanTarget_of_short (zones : t.zones = s.zones) (short : ∀ z, t.short z = s.short z) (f : Fan) :
    fanTarget t f = fanTarget s f :=
  fanTarget_congr rfl rfl (fun z _ => drive_of_zones zones z) fun z _ => short z

theorem resettle_fanTarget (z : Nat) (before : Bool) (s : State) (f : Fan) :
    fanTarget (resettle z before s) f = fanTarget s f :=
  fanTarget_of_short (resettle_except z before s .zones (by decide)) (resettle_short z · before s) f

theorem gate_fanTarget (wf : s.fans.wf = true) (f : Fan) : fanTarget (gate s) f = fanTarget s f :=
  fanTarget_of_short (gate_except s .zones (by decide)) (gate_short wf) f

theorem resettle_find_apart {z : Nat} (found : s.fans.find n = some f) (apart : ¬f.restsOn z) (before : Bool) :
    (resettle z before s).fans.find n = some f := by
  unfold resettle
  split
  · exact found
  · rw [retargetZone_find, found, Option.map_some, retargeted_of_apart apart]

theorem resettle_find_parked (found : s.fans.find n = some f) (parked : f.state.parked) (before : Bool) :
    (resettle f.zone before s).fans.find n =
      some { f with target := if s.short f.zone = before then f.target else fanTarget s f } := by
  unfold resettle
  split
  · exact found
  · rw [retargetZone_find, found, Option.map_some, retargeted_of_restsOn (.inl rfl), Fan.settleTo_parked parked]

/-! ### A fan moved, with what follows -/

/-- The fan n is left with the record g, its target that of R104 where its zone's shortness has moved (R103); no fan changes
that neither rests on that zone nor waits. -/
structure FanMoved (n : Nat) (g : Fan) (s t : State) : Prop where
  record : t.fans.find n = some { g with target := if t.short g.zone = s.short g.zone then g.target else fanTarget t g }
  others : ∀ m h, m ≠ n → s.fans.find m = some h → ¬h.restsOn g.zone → h.state ≠ .queued → t.fans.find m = some h

theorem FanState.parked.ne_queued {st : FanState} (h : st.parked) : st ≠ .queued := by
  rintro rfl
  exact h

/-- A fan put in a state without a move on its target, then its zone settled and the gate run. -/
theorem FanMoved.resettled (wf : u.fans.wf = true) (found : u.fans.find n = some g) (parked : g.state.parked)
    (others : ∀ m h, m ≠ n → s.fans.find m = some h → h.state ≠ .queued → u.fans.find m = some h) :
    FanMoved n g s (gate (resettle g.zone (s.short g.zone) u)) where
  record := by
    have settled := resettle_wf wf g.zone (s.short g.zone)
    rw [gate_short settled, gate_fanTarget settled, resettle_short, resettle_fanTarget]
    exact gate_find_standing settled (resettle_find_parked found parked _) parked.ne_queued
  others m h ne hm apart standing :=
    gate_find_standing (resettle_wf wf _ _) (resettle_find_apart (others m h ne hm standing) apart _) standing

theorem put_find_other {m : Nat} {h : Fan} (ne : m ≠ n) (hm : s.fans.find m = some h) :
    (s.setFans (s.fans.put n g)).fans.find m = some h := by
  rw [State.setFans_fans, Table.find_put, if_neg ne, hm]

theorem putFan_moved (wf : s.fans.wf = true) (parked : g.state.parked) : FanMoved n g s (putFan n g s) :=
  .resettled (Table.wf_put wf n g) (Table.find_put_same _ _ _) parked fun _ _ ne hm _ => put_find_other ne hm

theorem fanDown_moved (wf : s.fans.wf = true) (parked : g.state.parked) : FanMoved n g s (fanDown n g s) :=
  have put : (s.setFans (s.fans.put n g)).fans.wf = true := Table.wf_put wf n g
  .resettled (gate_wf put) (gate_find_standing put (Table.find_put_same _ _ _) parked.ne_queued) parked
    fun _ _ ne hm standing => gate_find_standing put (put_find_other ne hm) standing

/-- A fan moved after its record was replaced by one of the same zone and health. -/
theorem FanMoved.of_put {x : Fan} (wf : s.fans.wf = true) (found : s.fans.find n = some f) (zone : g.zone = f.zone)
    (same : g.unhealthy = f.unhealthy) (h : FanMoved n x (s.setFans (s.fans.put n g)) t) : FanMoved n x s t where
  record := by rw [h.record, short_put wf found zone fun _ => same]
  others m k ne hm apart standing := h.others m k ne (put_find_other ne hm) apart standing

theorem FanMoved.raised (h : FanMoved n g s t) (source : Nat) (zones : List Nat) (detail : List Byte) :
    FanMoved n g s (raise source zones detail t) := ⟨h.record, h.others⟩

/-! ### A fan that stays healthy (R109, R110) -/

section
variable (wf : s.fans.wf = true) (found : s.fans.find n = some f) (zone : g.zone = f.zone)
  (before : f.unhealthy = false) (after : g.unhealthy = false)
include wf found zone before after

/-- A healthy fan that stays so leaves every target: the gate alone follows. -/
theorem putFan_healthy : putFan n g s = gate (s.setFans (s.fans.put n g)) := by
  rw [putFan_eq, resettle, short_put wf found zone fun _ => after.trans before.symm, if_pos rfl]

theorem putFan_healthy_others : SameExcept [.fans] s (putFan n g s) ∧
    ∀ m h, m ≠ n → s.fans.find m = some h → h.state ≠ .queued → (putFan n g s).fans.find m = some h := by
  refine ⟨(putFan_frame (by decide) n g).2 (.refl _ s), fun m h ne hm standing => ?_⟩
  rw [putFan_healthy wf found zone before after]
  exact gate_find_standing (Table.wf_put wf n g) (put_find_other ne hm) standing

theorem putFan_healthy_find (standing : g.state ≠ .queued) : (putFan n g s).fans.find n = some g := by
  rw [putFan_healthy wf found zone before after]
  exact gate_find_standing (s := s.setFans (s.fans.put n g)) (Table.wf_put wf n g) (Table.find_put_same _ _ _) standing

end

/-- With the start limit reached the gate leaves the queue. -/
theorem gate_full (full : s.fanSettings.startLimit ≤ startingCount s) : gate s = s := admitFans_full _ full

/-- With room and one fan waiting the gate admits that fan. -/
theorem gate_admits_only (wf : s.fans.wf = true) (found : s.fans.find n = some g) (queued : g.state = .queued)
    (only : ∀ m h, s.fans.find m = some h → h.state = .queued → m = n)
    (room : startingCount s < s.fanSettings.startLimit) : gate s = admitFan n g s := by
  have head : startQueue s = [(n, g)] := by
    refine List.perm_singleton.1 ((List.perm_ext_iff_of_nodup (startQueue_nodup wf) (List.nodup_singleton _)).2 ?_)
    rintro ⟨m, h⟩
    rw [mem_startQueue_iff wf, List.mem_singleton]
    refine ⟨fun ⟨hm, st⟩ => ?_, ?_⟩
    · obtain rfl := only m h hm st
      rw [Option.some.inj (hm.symm.trans found)]
    · rintro ⟨⟩
      exact ⟨found, queued⟩
  rw [gate, Config.fanSlots, admitFans_admits _ wf room head, admitFans_idle _ (startQueue_admitFan wf head)]

end Sys2Proof.Machine
end

section
/-!
SUPPORT. The ends of starts and rundowns (R109, R110), and a fan head's report (R105, R111 to R114).
-/
namespace Sys2Proof.Machine

variable {s t : State} {n : Nat} {f : Fan} {w : Nat}

/-! ### START_ENDS and RUNDOWN_ENDS -/

theorem execStartEnds_eq (found : s.fans.find n = some f) (st : f.state = .starting) (ends : f.startEnds = some w) :
    exec (.startEnds n) s = .next
      (if w ≤ s.partTime then putFan n (f.endStart s.partTime s.fanSettings.minOffTime) s else s) := by
  show execStartEnds n s = _
  simp only [execStartEnds, found, st, ends, reached, decide_true, Bool.true_and, decide_eq_true_eq]

theorem execRundownEnds_eq (found : s.fans.find n = some f) (st : f.state = .rundown) (ends : f.rundownEnds = some w) :
    exec (.rundownEnds n) s = .next (if w ≤ s.partTime then putFan n (f.endRundown s.partTime) s else s) := by
  show execRundownEnds n s = _
  simp only [execRundownEnds, found, st, ends, reached, decide_true, Bool.true_and, decide_eq_true_eq]

theorem endStart_running (pos : 0 < f.target) (now off : Nat) :
    f.endStart now off = { f with state := .running, commanded := f.target, startEnds := none } := if_pos pos

theorem endStart_rundown (zero : f.target = 0) (now off : Nat) : f.endStart now off =
    { f with state := .rundown, commanded := 0, startEnds := none, timeQueued := none, rundownEnds := some (now + off) } :=
  if_neg (by omega)

theorem endRundown_queued (pos : 0 < f.target) (now : Nat) : f.endRundown now =
    { f with state := .queued, commanded := 0, rundownEnds := none, timeQueued := some now } := if_pos pos

theorem endRundown_stopped (zero : f.target = 0) (now : Nat) : f.endRundown now =
    { f with state := .stopped, commanded := 0, rundownEnds := none, timeQueued := none } := if_neg (by omega)

/-- A fan whose rundown ends with a target above 0 waits while the start limit is reached (R108, R110). -/
theorem endRundown_waits (wf : s.fans.wf = true) (found : s.fans.find n = some f) (st : f.state = .rundown)
    (full : s.fanSettings.startLimit ≤ startingCount s) :
    (putFan n (f.toQueued s.partTime) s).fans.find n = some (f.toQueued s.partTime) := by
  have count := startingCount_put_apart (g := f.toQueued s.partTime) wf found (by rw [st]; nofun) (by nofun)
  rw [putFan_healthy (g := f.toQueued s.partTime) wf found rfl (by rw [Fan.unhealthy, st]) rfl,
    gate_full (by rw [count]; exact full)]
  exact Table.find_put_same _ _ _

/-- A fan whose rundown ends with a target above 0 starts where there is room and no fan waits (R108, R110). -/
theorem endRundown_starts (wf : s.fans.wf = true) (found : s.fans.find n = some f) (st : f.state = .rundown)
    (room : startingCount s < s.fanSettings.startLimit) (none_ : ∀ q ∈ s.fans, q.2.state ≠ .queued) :
    (putFan n (f.toQueued s.partTime) s).fans.find n =
      some ((f.toQueued s.partTime).admitted s.partTime s.fanSettings.startTime) := by
  have count := startingCount_put_apart (g := f.toQueued s.partTime) wf found (by rw [st]; nofun) (by nofun)
  have only (m : Nat) (h : Fan) (hm : (s.fans.put n (f.toQueued s.partTime)).find m = some h) (queued : h.state = .queued) :
      m = n := by
    by_contra ne
    rw [Table.find_put, if_neg ne] at hm
    exact none_ _ (Table.mem_of_find hm) queued
  rw [putFan_healthy (g := f.toQueued s.partTime) wf found rfl (by rw [Fan.unhealthy, st]) rfl,
    gate_admits_only (Table.wf_put wf _ _) (Table.find_put_same _ _ _) rfl only (by rw [count]; exact room)]
  exact Table.find_put_same _ _ _

/-! ### A report's flags (R111 to R114) -/

/-- The flags leave a fan: LOCKED_OUT, or TRIPPED while the trip flag is set, or LOCAL while the local flag is, or healthy
with neither. -/
def Fan.flagsKeep (f : Fan) : Prop :=
  f.state = .lockedOut ∨ (f.state = .tripped ∧ f.tripFlag = true) ∨
    (f.state = .localControl ∧ f.tripFlag = false ∧ f.localFlag = true) ∨
    ((f.state ≠ .lockedOut ∧ f.state ≠ .tripped ∧ f.state ≠ .unreached ∧ f.state ≠ .localControl) ∧
      f.tripFlag = false ∧ f.localFlag = false)

theorem applyFanFlags_keep (h : f.flagsKeep) : applyFanFlags n f s = s := by
  unfold Fan.flagsKeep at h
  cases st : f.state <;> simp_all [applyFanFlags]

theorem applyFanFlags_trip (locked : f.state ≠ .lockedOut) (tripped : f.state ≠ .tripped) (flag : f.tripFlag = true) :
    applyFanFlags n f s = fanTrip n f s := by
  cases st : f.state <;> simp_all [applyFanFlags]

theorem applyFanFlags_local (locked : f.state ≠ .lockedOut) (local_ : f.state ≠ .localControl) (trip : f.tripFlag = false)
    (flag : f.localFlag = true) : applyFanFlags n f s = fanDown n (f.toUnhealthy .localControl) s := by
  cases st : f.state <;> simp_all [applyFanFlags]

theorem applyFanFlags_back (st : f.state = .tripped ∨ f.state = .unreached ∨ f.state = .localControl)
    (trip : f.tripFlag = false) (local_ : f.localFlag = false) :
    applyFanFlags n f s = putFan n (f.toRundown s.partTime s.fanSettings.minOffTime) s := by
  rcases st with st | st | st <;> simp [applyFanFlags, st, trip, local_]

/-- The flags keep a fan, trip it, take it to LOCAL, or give it back to the cycle. -/
theorem Fan.flags_cases (f : Fan) : f.flagsKeep ∨ (f.state ≠ .lockedOut ∧ f.state ≠ .tripped ∧ f.tripFlag = true) ∨
    (f.state ≠ .lockedOut ∧ f.state ≠ .localControl ∧ f.tripFlag = false ∧ f.localFlag = true) ∨
    ((f.state = .tripped ∨ f.state = .unreached ∨ f.state = .localControl) ∧ f.tripFlag = false ∧ f.localFlag = false) := by
  unfold Fan.flagsKeep
  cases f.state <;> cases f.tripFlag <;> cases f.localFlag <;> simp

/-! ### Trips (R111) -/

theorem addTrip_eq {now : Nat} {trips : List Nat} (h : trips.length ≤ 3) :
    addTrip now trips = (if trips.length < 3 then trips else trips.drop 1) ++ [now] := by
  unfold addTrip
  split
  · rfl
  · next full => rw [show trips.length - 2 = 1 by omega]

theorem locksOut_addTrip {now : Nat} {trips : List Nat} (h : trips.length ≤ 3) : locksOut (addTrip now trips) = true ↔
    (addTrip now trips).length = 3 ∧ now ≤ (addTrip now trips).headD 0 + 600 := by
  match trips with
  | [] => simp [addTrip, locksOut]
  | [a] => simp [addTrip, locksOut]
  | [a, b] => simp [addTrip, locksOut]; omega
  | [a, b, c] => simp [addTrip, locksOut]; omega
  | _ :: _ :: _ :: _ :: _ => simp at h; omega

/-- The state that a trip takes a fan to (R111). -/
def Fan.tripState (now : Nat) (f : Fan) : FanState := if locksOut (addTrip now f.trips) then .lockedOut else .tripped

/-- The record that a trip leaves of a fan, but for its target (R111). -/
def Fan.tripRecord (now : Nat) (f : Fan) : Fan := { f with trips := addTrip now f.trips }.toUnhealthy (f.tripState now)

theorem fanTrip_eq (n : Nat) (f : Fan) (s : State) : fanTrip n f s =
    raise srcFanFault [f.zone] (number 1 n ++ number 4 s.partTime ++ number 1 (f.tripState s.partTime).code)
      (fanDown n (f.tripRecord s.partTime) s) := rfl

theorem Fan.tripRecord_parked (now : Nat) (f : Fan) : (f.tripRecord now).state.parked := by
  show (f.tripState now).parked
  unfold Fan.tripState
  split <;> trivial

theorem fanTrip_moved (wf : s.fans.wf = true) : FanMoved n (f.tripRecord s.partTime) s (fanTrip n f s) :=
  (fanDown_moved wf (f.tripRecord_parked _)).raised _ _ _

theorem fanTrip_source (n m : Nat) (f : Fan) (s : State) : (fanTrip n f s).source m = if m = 5 then
      (s.source 5).raise s.partTime (maskOf [f.zone])
        (number 1 n ++ number 4 s.partTime ++ number 1 (f.tripState s.partTime).code)
    else s.source m := by
  have frame : SameExcept [.fans] s (fanDown n (f.tripRecord s.partTime) s) := (fanDown_frame (by decide) _ _).2 (.refl _ s)
  have sources : (fanDown n (f.tripRecord s.partTime) s).sources = s.sources := frame .sources (by decide)
  have time : (fanDown n (f.tripRecord s.partTime) s).partTime = s.partTime := frame .partTime (by decide)
  rw [fanTrip_eq, State.source_raise, State.source, State.source, sources, time]
  simp only [srcFanFault, show (5 : Nat) < 16 by decide, and_true]
  rfl

/-! ### The report of a head -/

theorem fanOf_none {i a : Nat} (h : ∀ q ∈ s.fans, q.2.head ≠ { segment := i, address := a }) : fanOf i a s = none :=
  List.find?_eq_none.2 fun q hq => by simpa using h q hq

theorem fanOf_unique {i a : Nat} (wf : s.fans.wf = true) (mem : (n, f) ∈ s.fans)
    (head : f.head = { segment := i, address := a })
    (only : ∀ q ∈ s.fans, q.2.head = { segment := i, address := a } → q.1 = n) : fanOf i a s = some (n, f) :=
  Table.find?_unique wf mem (by simpa using head) fun q hq h => only q hq (by simpa using h)

theorem fanReport_eq {i a : Nat} (found : fanOf i a s = some (n, f)) (payload : List Byte) : fanReport i a payload s =
    applyFanFlags n (f.observe s.partTime payload) (s.setFans (s.fans.put n (f.observe s.partTime payload))) := by
  simp only [fanReport, found]

/-- The record of a fan with a report of two bytes, step and flags (R105, R161). -/
def Fan.reported (now : Nat) (step flags : Byte) (f : Fan) : Fan :=
  { f with observed := min 4 step.toNat, runFlag := flags.getLsbD 0, tripFlag := flags.getLsbD 1,
           localFlag := flags.getLsbD 2, reportTime := some now }

section
variable {i a : Nat} {step flags : Byte} {g : Fan} (wf : s.fans.wf = true) (found : fanOf i a s = some (n, f))
  (hg : f.reported s.partTime step flags = g)
include found hg

theorem fanReport_kept (h : g.flagsKeep) : fanReport i a [step, flags] s = s.setFans (s.fans.put n g) := by
  subst hg
  exact (fanReport_eq found _).trans (applyFanFlags_keep h)

/-- But by a trip a report writes the fans alone. -/
theorem fanReport_sources (h : g.tripFlag = false ∨ g.state = .tripped ∨ g.state = .lockedOut) :
    (fanReport i a [step, flags] s).sources = s.sources := by
  have put : SameExcept [.fans] s (s.setFans (s.fans.put n g)) := by simp (disch := decide)
  have report : fanReport i a [step, flags] s = applyFanFlags n g (s.setFans (s.fans.put n g)) := by
    subst hg
    exact fanReport_eq found _
  have quiet : SameExcept [.fans] s (applyFanFlags n g (s.setFans (s.fans.put n g))) := by
    rcases g.flags_cases with keep | ⟨locked, tripped, flag⟩ | ⟨locked, local_, trip, flag⟩ | ⟨st, trip, local_⟩
    · rwa [applyFanFlags_keep keep]
    · simp [flag, tripped, locked] at h
    · rw [applyFanFlags_local locked local_ trip flag]
      exact (fanDown_frame (by decide) _ _).2 put
    · rw [applyFanFlags_back st trip local_]
      exact (putFan_frame (by decide) _ _).2 put
  rw [report]
  exact quiet .sources (by decide)

include wf

/-- What the report's flags make of the fan, they make of it from the state with the report stored. -/
theorem fanReport_moved {x : Fan} (h : FanMoved n x (s.setFans (s.fans.put n g)) (fanReport i a [step, flags] s)) :
    FanMoved n x s (fanReport i a [step, flags] s) := by
  have held := Table.find_of_mem wf (List.mem_of_find?_eq_some found)
  subst hg
  exact FanMoved.of_put (g := f.reported s.partTime step flags) wf held rfl rfl h

theorem fanReport_trips (locked : g.state ≠ .lockedOut) (tripped : g.state ≠ .tripped) (flag : g.tripFlag = true) :
    FanMoved n (g.tripRecord s.partTime) s (fanReport i a [step, flags] s) ∧
      ∀ m, (fanReport i a [step, flags] s).source m = if m = 5 then
          (s.source 5).raise s.partTime (maskOf [g.zone])
            (number 1 n ++ number 4 s.partTime ++ number 1 (g.tripState s.partTime).code)
        else s.source m := by
  have trip : fanReport i a [step, flags] s = fanTrip n g (s.setFans (s.fans.put n g)) := by
    subst hg
    exact (fanReport_eq found _).trans (applyFanFlags_trip locked tripped flag)
  refine ⟨fanReport_moved wf found hg ?_, fun m => ?_⟩
  · rw [trip]
    exact fanTrip_moved (s := s.setFans (s.fans.put n g)) (Table.wf_put wf n g)
  · rw [trip, fanTrip_source]
    rfl

theorem fanReport_local (locked : g.state ≠ .lockedOut) (local_ : g.state ≠ .localControl) (trip : g.tripFlag = false)
    (flag : g.localFlag = true) :
    FanMoved n (g.toUnhealthy .localControl) s (fanReport i a [step, flags] s) := by
  refine fanReport_moved wf found hg ?_
  have down : fanReport i a [step, flags] s = fanDown n (g.toUnhealthy .localControl) (s.setFans (s.fans.put n g)) := by
    subst hg
    exact (fanReport_eq found _).trans (applyFanFlags_local locked local_ trip flag)
  rw [down]
  exact fanDown_moved (Table.wf_put wf n g) trivial

theorem fanReport_back (st : g.state = .tripped ∨ g.state = .unreached ∨ g.state = .localControl)
    (trip : g.tripFlag = false) (local_ : g.localFlag = false) :
    FanMoved n (g.toRundown s.partTime s.fanSettings.minOffTime) s (fanReport i a [step, flags] s) := by
  refine fanReport_moved wf found hg ?_
  have back : fanReport i a [step, flags] s =
      putFan n (g.toRundown s.partTime s.fanSettings.minOffTime) (s.setFans (s.fans.put n g)) := by
    subst hg
    exact (fanReport_eq found _).trans (applyFanFlags_back st trip local_)
  rw [back]
  exact putFan_moved (Table.wf_put wf n g) trivial

/-- No fan changes that neither rests on the reporting fan's zone nor waits. -/
theorem fanReport_others {m : Nat} {h : Fan} (ne : m ≠ n) (hm : s.fans.find m = some h) (apart : ¬h.restsOn f.zone)
    (standing : h.state ≠ .queued) : (fanReport i a [step, flags] s).fans.find m = some h := by
  have zone : g.zone = f.zone := by rw [← hg]; rfl
  rw [← zone] at apart
  rcases g.flags_cases with keep | ⟨locked, tripped, flag⟩ | ⟨locked, local_, trip, flag⟩ | ⟨st, trip, local_⟩
  · rw [fanReport_kept found hg keep]
    exact put_find_other ne hm
  · exact (fanReport_trips wf found hg locked tripped flag).1.others m h ne hm apart standing
  · exact (fanReport_local wf found hg locked local_ trip flag).others m h ne hm apart standing
  · exact (fanReport_back wf found hg st trip local_).others m h ne hm apart standing

end

end Sys2Proof.Machine
end

section
open Sys2Proof Sys2Proof.Machine

/-- Settles O47: the ends of starts and rundowns leave every target, so the gate alone follows them; a report's flags keep
a fan, trip it, take it to LOCAL, or give it back to the cycle. -/
theorem fanTimersMoveTheFan : Obligations.FanTimersMoveTheFan := by
  refine ⟨fun n f w s wf found => ⟨fun st ends => ?_, fun st ends => ?_⟩, fun i a step flags s wf => ⟨fun free => ?_, ?_⟩⟩
  · rw [execStartEnds_eq found st ends]
    have healthy : f.unhealthy = false := by rw [Fan.unhealthy, st]
    refine ⟨fun early => by rw [if_neg (by omega)], fun due pos => ?_, fun due zero => ?_⟩
    · rw [if_pos due, endStart_running pos]
      exact ⟨_, rfl, putFan_healthy_others wf found rfl healthy rfl, putFan_healthy_find wf found rfl healthy rfl (by nofun)⟩
    · rw [if_pos due, endStart_rundown zero]
      exact ⟨_, rfl, putFan_healthy_others wf found rfl healthy rfl, putFan_healthy_find wf found rfl healthy rfl (by nofun)⟩
  · rw [execRundownEnds_eq found st ends]
    have healthy : f.unhealthy = false := by rw [Fan.unhealthy, st]
    refine ⟨fun early => by rw [if_neg (by omega)], fun due zero => ?_, fun due pos full => ?_, fun due pos room none_ => ?_⟩
    · rw [if_pos due, endRundown_stopped zero]
      exact ⟨_, rfl, putFan_healthy_others wf found rfl healthy rfl, putFan_healthy_find wf found rfl healthy rfl (by nofun)⟩
    · rw [if_pos due, endRundown_queued pos]
      exact ⟨_, rfl, putFan_healthy_others wf found rfl healthy rfl, endRundown_waits wf found st full⟩
    · rw [if_pos due, endRundown_queued pos]
      exact ⟨_, rfl, putFan_healthy_others wf found rfl healthy rfl, endRundown_starts wf found st room none_⟩
  · show fanReport i a [step, flags] s = s
    rw [fanReport, fanOf_none free]
  · intro n f mem head only trips g out trips' target locked healthy
    have fan := fanOf_unique wf mem head only
    refine ⟨(fanReport_frame (by decide) i a _).2 (.refl _ s), fun m h ne hm zone assist standing => ?_, fun quiet => ?_,
      fun keep => ?_, fun locked_ tripped flag => ?_, fun locked_ local_ trip flag => ?_, fun st trip local_ => ?_⟩
    · exact fanReport_others (g := g) wf fan rfl ne hm (not_or.2 ⟨zone, assist⟩) standing
    · exact fanReport_sources (g := g) fan rfl quiet
    · exact congrArg State.fans (fanReport_kept (g := g) fan rfl keep)
    · obtain ⟨moved, sources⟩ := fanReport_trips (g := g) wf fan rfl locked_ tripped flag
      have held : addTrip s.partTime f.trips = trips' := addTrip_eq trips
      have state : g.tripState s.partTime = if locked then .lockedOut else .tripped := by
        have lock := locksOut_addTrip (now := s.partTime) trips
        rw [held] at lock
        show (if locksOut (addTrip s.partTime f.trips) = true then _ else _) = _
        simp only [held, lock]
        rfl
      have record := moved.record
      rw [Fan.tripRecord, state, show addTrip s.partTime g.trips = trips' from held] at record
      rw [state] at sources
      exact ⟨record, sources 5, fun m ne => (sources m).trans (if_neg ne)⟩
    · exact (fanReport_local (g := g) wf fan rfl locked_ local_ trip flag).record
    · exact (fanReport_back (g := g) wf fan rfl st trip local_).record

end

section
/-!
SUPPORT. The end of an exchange with its result settled: the warm set, the sweep, the end of WARMING and the end of STARTING
(R157, R160, R166, R174, R186).
-/
namespace Sys2Proof.Machine

variable {s t v w : State} {i : Nat} {x : Exchange}

/-! ### The sweep goes on (R166) -/

theorem walkOn_goesOn (s : State) (i : Nat) (g : Segment) : SweepGoesOn s i g (walkOn s i g) := by
  refine ⟨fun none_ => ?_, fun before a after sweep passed visited => ?_, fun todo sweep passed => ?_⟩
  · unfold walkOn
    split
    · next todo sweep => exact absurd sweep (none_ todo)
    · rfl
  · simp only [walkOn, sweep, dropWhile_passed passed visited]
  · simp only [walkOn, sweep, dropWhile_allPassed passed, Segment.sweepEnded, countUpTo_eq]
    exact nextSweep_begun s i _

theorem nextSweep_exchange (s : State) (i : Nat) (g : Segment) : (nextSweep s i g).exchange = g.exchange := by
  unfold nextSweep
  split
  · rfl
  · split <;> rfl

theorem walkOn_exchange (s : State) (i : Nat) (g : Segment) : (walkOn s i g).exchange = g.exchange := by
  unfold walkOn
  split
  · split
    · exact nextSweep_exchange s i _
    · rfl
  · rfl

/-! ### The warm set (R157) -/

/-- Quiet control after the exchange: its head leaves the warm set where it was polled since the wake (R157). -/
def polledQuiet (i : Nat) (x : Exchange) (warming : Bool) (q : Quiet) : Quiet :=
  if warming && !x.beforeWake then { q with warmSet := q.warmSet.filter fun k => k ≠ 32 * i + x.address } else q

theorem warmPolled_eq (i : Nat) (x : Exchange) (warming : Bool) (s : State) :
    warmPolled i x warming s = s.setQuiet (polledQuiet i x warming s.quiet) := by
  unfold warmPolled polledQuiet
  split <;> rfl

/-- The state with an exchange's result settled, after quiet control and the sweep have taken its end. -/
def walked (i : Nat) (x : Exchange) (warming : Bool) (v : State) : State := walkSegment i (warmPolled i x warming v)

theorem walked_except (i : Nat) (x : Exchange) (warming : Bool) (v : State) :
    SameExcept [.segments, .quiet] v (walked i x warming v) :=
  (walkSegment_frame (by decide) i).2 ((warmPolled_frame (by decide) _ _ _).2 (.refl _ v))

theorem walked_quiet (i : Nat) (x : Exchange) (warming : Bool) (v : State) :
    (walked i x warming v).quiet = polledQuiet i x warming v.quiet := by
  rw [walked, warmPolled_eq]
  rfl

theorem walked_segment (low : i < 4) (x : Exchange) (warming : Bool) (v : State) (j : Nat) :
    (walked i x warming v).segment j = if j = i then walkOn v i (v.segment i) else v.segment j := by
  have swept (q : Quiet) (g : Segment) : walkOn (v.setQuiet { v.quiet with warmSet := q.warmSet }) i g = walkOn v i g := rfl
  rw [walked, walkSegment, State.segment_putSegment, warmPolled_eq]
  simp only [low, and_true]
  split
  · unfold polledQuiet
    split <;> rfl
  · rfl

/-! ### The end of WARMING (R157) -/

/-- WARMING ends in this state: the warm set is empty and warm-until reached (R157). -/
def WarmDone (s : State) : Prop :=
  s.device = .warming ∧ s.quiet.warmSet = [] ∧ ∃ w, s.quiet.warmUntil = some w ∧ w ≤ s.partTime

theorem warmDone_iff : (s.device = .warming && s.quiet.warmSet.isEmpty && reached s.partTime s.quiet.warmUntil) = true ↔
    WarmDone s := by
  unfold WarmDone reached
  cases s.quiet.warmUntil <;> simp [and_assoc]

theorem endWarming_of_not (h : ¬WarmDone s) : endWarming s = s := if_neg (mt warmDone_iff.1 h)

theorem endWarming_of_done (h : WarmDone s) : endWarming s = raise 15 [] [0x02]
    (settleAllLamps ((s.setDevice .running).setQuiet { s.quiet with warmUntil := none })) := if_pos (warmDone_iff.2 h)

theorem raise_lamps (n : Nat) (zs : List Nat) (d : List Byte) (s : State) : (raise n zs d s).lamps = s.lamps := rfl

theorem settleAllLamps_find (s : State) (n : Nat) :
    (settleAllLamps s).lamps.find n = (s.lamps.find n).map fun g => settleGroup s.device (s.zone g.zone) g :=
  settleLampsWhere_find _ s n

/-- What the end of WARMING leaves: RUNNING, every lamp group settled for it, and QUIET_CHANGE raised (R125, R157, R158). -/
theorem endWarming_leaves (h : WarmDone s) :
    SameExcept [.quiet, .device, .lamps, .sources] s (endWarming s) ∧ (endWarming s).device = .running ∧
      (endWarming s).quiet = { s.quiet with warmUntil := none } ∧
      (∀ n, (endWarming s).lamps.find n = (s.lamps.find n).map fun g => settleGroup .running (s.zone g.zone) g) ∧
      ∀ n, (endWarming s).source n = if n = 15 then (s.source 15).raise s.partTime 0 [0x02] else s.source n := by
  rw [endWarming_of_done h]
  refine ⟨by simp (disch := decide), rfl, rfl, fun n => ?_, fun n => ?_⟩
  · rw [raise_lamps, settleAllLamps_find]
    rfl
  · rw [State.source_raise]
    simp only [show (15 : Nat) < 16 by decide, and_true]
    rfl

/-! ### The end of STARTING (R174, R186) -/

theorem startupDone_iff : startupDone s = true ↔ ∀ j, j < 4 → 3 ≤ (s.segment j).sweepCount ∨ s.listed j = [] := by
  have segments (j : Nat) : j ∈ [0, 1, 2, 3] ↔ j < 4 := by simp; omega
  simp only [startupDone, List.all_eq_true, Bool.or_eq_true, decide_eq_true_eq, List.isEmpty_iff, segments]
  rfl

/-- STARTING ends in this state: it is complete on every segment (R174). -/
def StartDone (s : State) : Prop :=
  s.device = .starting ∧ ∀ j, j < 4 → 3 ≤ (s.segment j).sweepCount ∨ s.listed j = []

theorem startDone_iff : (s.device = .starting && startupDone s) = true ↔ StartDone s := by
  rw [StartDone, ← startupDone_iff, Bool.and_eq_true, decide_eq_true_eq]

theorem endStarting_of_not (h : ¬StartDone s) : endStarting s = s := if_neg (mt startDone_iff.1 h)

theorem endStarting_of_done (h : StartDone s) :
    endStarting s = settleAllLamps (deriveAndRedirect s.zones.keys (s.setDevice .running)) := if_pos (startDone_iff.2 h)

/-- The records that stand at the end of STARTING, whatever is redirected. -/
theorem endStarting_except (s : State) : SameExcept (.device :: redirectFields) s (endStarting s) :=
  (endStarting_frame (by decide)).2 (.refl _ s)

theorem refreshGuidance_zone_keys (s : State) (n : Nat) :
    (refreshGuidance s.zones.keys s).zone n = (s.zone n).map fun z => { z with guidance := deriveGuidance s.device z } := by
  rw [refreshGuidance_zone]
  cases hz : s.zone n with
  | none => rfl
  | some z => simp [Table.mem_keys_of_find hz]

theorem settleAllLamps_zone (s : State) (n : Nat) : (settleAllLamps s).zone n = s.zone n := rfl

/-- Every zone is guided for RUNNING; the redirect pass may move its counts (R11, R66). -/
theorem endStarting_zone (h : StartDone s) {n : Nat} {z : Zone} (hz : s.zone n = some z) :
    ∃ c, (endStarting s).zone n = some { z with guidance := deriveGuidance .running z, counts := c } := by
  have derived := refreshGuidance_zone_keys (s.setDevice .running) n
  rw [show (s.setDevice .running).zone n = some z from hz] at derived
  rw [endStarting_of_done h, settleAllLamps_zone]
  exact (redirectPass_minors (ok := fun _ => True) _ _).zone derived

theorem settleGroup_guidance (dev : DeviceState) (zone : Option Zone) (guide : Zone → Guidance) (g : LampGroup) :
    settleGroup dev (zone.map fun z => { z with guidance := guide z }) g = settleGroup dev zone g := by
  cases zone <;> rfl

/-- With guidance settled no zone was OPEN in STARTING, and its end redirects nothing. -/
theorem endStarting_eq (guided : GuidanceSettled s) (h : StartDone s) :
    endStarting s = settleAllLamps (refreshGuidance s.zones.keys (s.setDevice .running)) := by
  rw [endStarting_of_done h, deriveAndRedirect_of_closed]
  intro n z hz
  rw [guided.2 _ (Table.mem_of_find hz)]
  exact deriveGuidance_ne_opened (.inr h.1) z

theorem endStarting_leaves (guided : GuidanceSettled s) (h : StartDone s) :
    SameExcept [.device, .zones, .lamps] s (endStarting s) ∧
      (∀ n, (endStarting s).lamps.find n = (s.lamps.find n).map fun g => settleGroup .running (s.zone g.zone) g) ∧
      ∀ n, (endStarting s).zone n = (s.zone n).map fun z => { z with guidance := deriveGuidance .running z } := by
  have zone (n : Nat) : (refreshGuidance s.zones.keys (s.setDevice .running)).zone n =
      (s.zone n).map fun z => { z with guidance := deriveGuidance .running z } :=
    refreshGuidance_zone_keys (s.setDevice .running) n
  rw [endStarting_eq guided h]
  refine ⟨by simp (disch := decide), fun n => ?_, zone⟩
  rw [settleAllLamps_find]
  refine congrArg (Option.map · _) (funext fun g => ?_)
  rw [zone g.zone]
  exact settleGroup_guidance _ _ _ g

theorem endStarting_device (h : StartDone s) : (endStarting s).device = .running := by
  have derived : SameExcept redirectFields (s.setDevice .running) (endStarting s) := by
    rw [endStarting_of_done h]
    simp (disch := decide)
  exact derived .device (by decide)

/-! ### The exchange concluded -/

/-- The end of WARMING or of STARTING, where an exchange with its result settled completes it. -/
def concluded (i : Nat) (x : Exchange) (warming : Bool) (v : State) : State :=
  endStarting (endWarming (walked i x warming v))

theorem endExchange_eq (i : Nat) (x : Exchange) (settle : State → State) (s : State) : endExchange i x settle s =
    if x.discarded then s.putSegment i { s.segment i with exchange := none }
    else concluded i x (s.device = .warming) (settle (s.putSegment i { s.segment i with exchange := none })) := rfl

/-- Neither end touches a segment or a head. -/
theorem concluded_except (i : Nat) (x : Exchange) (warming : Bool) (v : State) :
    SameExcept (.quiet :: .device :: redirectFields) (walked i x warming v) (concluded i x warming v) := by
  simp (disch := decide) [concluded]

theorem concluded_segment (low : i < 4) (x : Exchange) (warming : Bool) (v : State) (j : Nat) :
    (concluded i x warming v).segment j = if j = i then walkOn v i (v.segment i) else v.segment j := by
  rw [← walked_segment low x warming v j]
  exact congrArg (fixedAt · j _) (concluded_except i x warming v .segments (by decide))

theorem concluded_heads (i : Nat) (x : Exchange) (warming : Bool) (v : State) :
    (concluded i x warming v).heads = v.heads :=
  Eq.trans (concluded_except i x warming v .heads (by decide)) (walked_except i x warming v .heads (by decide))

theorem concluded_exchanged (low : i < 4) (x : Exchange) (warming : Bool) (v : State) :
    ExchangeConcluded i x (warming = true) v (concluded i x warming v) := by
  have frame := walked_except i x warming v
  have segment := concluded_segment low x warming v
  have segments : (concluded i x warming v).segments = (walked i x warming v).segments :=
    concluded_except i x warming v .segments (by decide)
  have quiet := walked_quiet i x warming v
  refine ⟨polledQuiet i x warming v.quiet, fun warms after => ?_, fun stays => if_neg ?_, fun j ne => ?_, ?_, ?_⟩
  · rw [polledQuiet, warms, after]
    rfl
  · rcases stays with h | h <;> simp [h]
  · rw [segment, if_neg ne]
  · rw [segment, if_pos rfl]
    exact walkOn_goesOn v i _
  have warm : (v.device = .warming ∧ (polledQuiet i x warming v.quiet).warmSet = [] ∧
      ∃ w, v.quiet.warmUntil = some w ∧ w ≤ v.partTime) ↔ WarmDone (walked i x warming v) := by
    have until_ : (polledQuiet i x warming v.quiet).warmUntil = v.quiet.warmUntil := by
      unfold polledQuiet
      split <;> rfl
    rw [WarmDone, quiet, until_, show (walked i x warming v).device = v.device from frame .device (by decide),
      show (walked i x warming v).partTime = v.partTime from frame .partTime (by decide)]
  have started : (v.device = .starting ∧ ∀ j, j < 4 →
      3 ≤ ((concluded i x warming v).segment j).sweepCount ∨ v.listed j = []) ↔ StartDone (walked i x warming v) := by
    rw [StartDone, show (walked i x warming v).device = v.device from frame .device (by decide)]
    simp only [State.segment, segments, State.listed,
      show (walked i x warming v).heads = v.heads from frame .heads (by decide)]
  simp only [warm, started]
  have ends : concluded i x warming v = endStarting (endWarming (walked i x warming v)) := rfl
  clear warm started segment segments
  generalize walked i x warming v = y at *
  have zone (n : Nat) : y.zone n = v.zone n := congrArg (Table.find · n) (frame .zones (by decide))
  have lamps : y.lamps = v.lamps := frame .lamps (by decide)
  have sources (n : Nat) : y.source n = v.source n := congrArg (fixedAt · n _) (frame .sources (by decide))
  refine ⟨fun cold unstarted => ?_, fun warm => ?_, fun started => ?_⟩
  · rw [ends, endWarming_of_not cold, endStarting_of_not unstarted]
    exact ⟨frame, quiet⟩
  · obtain ⟨writes, device, quiet', lamps', sources'⟩ := endWarming_leaves warm
    have ended : concluded i x warming v = endWarming y :=
      ends.trans (endStarting_of_not fun h => by rw [StartDone, device] at h; exact nomatch h.1)
    rw [ended]
    refine ⟨(frame.mono (by decide)).trans (writes.mono (by decide)), device, by rw [quiet', quiet], fun n => ?_, ?_,
      fun n ne => ?_⟩
    · simp only [lamps', lamps, zone]
    · rw [sources', if_pos rfl, sources, show y.partTime = v.partTime from frame .partTime (by decide)]
    · rw [sources', if_neg ne, sources]
  · have ended : concluded i x warming v = endStarting y :=
      ends.trans (congrArg endStarting (endWarming_of_not fun h => by simpa [h.1] using started.1))
    rw [ended]
    refine ⟨endStarting_device started, Eq.trans (endStarting_except y .quiet (by decide)) quiet,
      fun n z hz => endStarting_zone started ((zone n).trans hz), fun guided => ?_⟩
    have guided' : GuidanceSettled y := by
      rw [GuidanceSettled, show y.zones = v.zones from frame .zones (by decide),
        show y.device = v.device from frame .device (by decide)]
      exact guided
    obtain ⟨writes, lamps', zones'⟩ := endStarting_leaves guided' started
    refine ⟨(frame.mono (by decide)).trans (writes.mono (by decide)), fun n => ?_, fun n => ?_⟩
    · simp only [lamps', lamps, zone]
    · rw [zones', zone]

end Sys2Proof.Machine
end

section
/-!
SUPPORT. A head that goes LOST (R114, R157, R170, R172, R173), and O58.
-/
namespace Sys2Proof.Machine

variable {s u : State} {i a n : Nat} {h : Head} {f : Fan}

/-! ### The fan of a head that goes (R114) -/

theorem fanUnreached_free (free : fanOf i a s = none) : fanUnreached i a s = s := by
  rw [fanUnreached, free]

theorem fanUnreached_stays (found : fanOf i a s = some (n, f)) (st : f.state = .lockedOut ∨ f.state = .unreached) :
    fanUnreached i a s = s := by
  rw [fanUnreached, found]
  exact if_pos (by simpa using st)

theorem fanUnreached_down (found : fanOf i a s = some (n, f)) (locked : f.state ≠ .lockedOut)
    (unreached : f.state ≠ .unreached) : fanUnreached i a s = fanDown n (f.toUnhealthy .unreached) s := by
  rw [fanUnreached, found]
  exact if_neg (by simp [locked, unreached])

/-! ### The sources of a head that goes (R42, R188) -/

theorem tellSteers_source (h : Nat × Nat) (e : HoldEnding) (n : Nat) (s : State) :
    (tellSteers h e s).source n = s.source n := by
  have frame : SameExcept [.zones, .steers, .passages] s (tellSteers h e s) := (tellSteers_frame (by decide) h e).2 (.refl _ s)
  exact congrArg (fixedAt · n _) (frame .sources (by decide))

/-- The end of a hold raises HOLD_ENDED alone (R43). -/
theorem changeBayEnding_source {n : Nat} (hn : n ≠ 13) (g : Nat) {e : HoldEnding} (he : e ≠ .taken) (f : Bay → Bay)
    (s : State) : (changeBayEnding g e f s).source n = s.source n := by
  have changed (k : Bay → Bay) : (changeBay g k s).source n = s.source n := by
    have frame : SameExcept [.bays, .zones] s (changeBay g k s) := (changeBay_frame (by decide) g k).2 (.refl _ s)
    exact congrArg (fixedAt · n _) (frame .sources (by decide))
  unfold changeBayEnding
  split
  · simp only
    split
    · rw [tellSteers_source, reportEnding_source he, if_neg hn, changed]
    · exact changed _
  · rfl

theorem headGone_source {n : Nat} (hn : n ≠ 13) (i a : Nat) (s : State) : (headGone i a s).source n = s.source n := by
  have fans (u : State) : (fanUnreached i a u).source n = u.source n := by
    have frame : SameExcept [.fans] u (fanUnreached i a u) := (fanUnreached_frame (by decide) i a).2 (.refl _ u)
    exact congrArg (fixedAt · n _) (frame .sources (by decide))
  rw [headGone, fans, baysUnsensed]
  induction baysOf i a s generalizing s with
  | nil => rfl
  | cons p l ih => exact (ih _).trans (changeBayEnding_source hn _ (by decide) _ s)

/-! ### SILENT and LOST (R169, R170) -/

theorem Head.goesLost_iff {now lostTime : Nat} : h.goesLost now lostTime = true ↔
    (h.state = .listed ∨ h.state = .live ∨ h.state = .silent) ∧ 3 ≤ h.misses ∧
      ∃ r, h.reference = some r ∧ r + lostTime ≤ now := by
  have time : reached now (h.reference.map (· + lostTime)) = true ↔ ∃ r, h.reference = some r ∧ r + lostTime ≤ now := by
    cases h.reference <;> simp [reached]
  rw [Head.goesLost, Bool.and_eq_true, Bool.and_eq_true, time, and_assoc]
  simp only [Bool.or_eq_true, decide_eq_true_eq, or_assoc]
  rfl

/-- The state with a head's record replaced. -/
def State.putHead (i a : Nat) (h : Head) (s : State) : State := s.setHeads (s.heads.put (32 * i + a) h)

theorem State.putHead_head (i a : Nat) (h : Head) (s : State) (j b : Nat) :
    (s.putHead i a h).head j b = if 32 * j + b = 32 * i + a then some h else s.head j b :=
  Table.find_put _ _ _ _

/-- What is handed on when a head goes LOST: HEAD_LOST raised, then its bays and its fan (R170, R172, R173). -/
theorem loseHead_eq (i a : Nat) (h : Head) (s : State) : loseHead i a h s = headGone i a
    (raise 6 (zonesServed i a h.kind s) (number 1 i ++ number 1 a ++ number 1 h.kind.code ++ optBytes (number 4) h.lastValid)
      (s.putHead i a { h with state := .lost, lostSince := some s.partTime })) := rfl

theorem missHead_lost (found : s.head i a = some h) (lost : h.missed.goesLost s.partTime s.lostTime = true) :
    missHead i a s = loseHead i a h.missed s := by
  simp only [missHead, found]
  exact if_pos lost

/-- The state of a head that a miss does not lose (R169). -/
def Head.silenced (m : Nat) (h : Head) : Head :=
  { h with misses := m, state := if h.state = .live ∧ 3 ≤ m then .silent else h.state }

theorem Head.missed_eq (h : Head) : h.missed = { h with misses := min 255 (h.misses + 1) } := by
  rw [Head.missed, countUpTo_eq]
  rfl

theorem missHead_kept (found : s.head i a = some h) (kept : ¬h.missed.goesLost s.partTime s.lostTime = true) :
    missHead i a s = s.putHead i a (h.silenced (min 255 (h.misses + 1))) := by
  have silenced : (if h.missed.state = .live ∧ missLimit ≤ h.missed.misses then { h.missed with state := .silent }
      else h.missed) = h.silenced (min 255 (h.misses + 1)) := by
    rw [h.missed_eq, Head.silenced]
    by_cases silent : h.state = .live ∧ 3 ≤ min 255 (h.misses + 1)
    · exact (if_pos silent).trans (by rw [if_pos silent])
    · exact (if_neg silent).trans (by rw [if_neg silent])
  simp only [missHead, found]
  rw [if_neg kept, silenced]
  rfl

/-- What the handing on of a head that goes LOST leaves of the heads and of HEAD_LOST. -/
theorem loseHead_leaves (i a : Nat) (h : Head) (s : State) :
    (loseHead i a h s).heads = (s.putHead i a { h with state := .lost, lostSince := some s.partTime }).heads ∧
      (loseHead i a h s).segments = s.segments ∧
      (loseHead i a h s).source 6 = (s.source 6).raise s.partTime (maskOf (zonesServed i a h.kind s))
        (number 1 i ++ number 1 a ++ number 1 h.kind.code ++ optBytes (number 4) h.lastValid) := by
  have gone (u : State) : SameExcept (.fans :: steerFields) u (headGone i a u) := (headGone_frame (by decide) i a).2 (.refl _ u)
  rw [loseHead_eq]
  refine ⟨?_, ?_, ?_⟩
  · exact gone _ .heads (by decide)
  · exact gone _ .segments (by decide)
  · rw [headGone_source (by decide), State.source_raise, if_pos (by decide)]
    rfl

/-! ### A miss (R160, R169, R170) -/

theorem endWarming_source {n : Nat} (hn : n ≠ 15) (s : State) : (endWarming s).source n = s.source n := by
  by_cases done : WarmDone s
  · obtain ⟨_, _, _, _, sources⟩ := endWarming_leaves done
    rw [sources, if_neg hn]
  · rw [endWarming_of_not done]

theorem endStarting_source {n : Nat} (hn : n ≠ 13) (s : State) : (endStarting s).source n = s.source n := by
  by_cases done : StartDone s
  · rw [endStarting_of_done done]
    exact (redirectPass_source hn _ _).trans rfl
  · rw [endStarting_of_not done]

/-- The end of an exchange raises QUIET_CHANGE and, by the redirect pass, HOLD_ENDED alone. -/
theorem concluded_source {n : Nat} (h13 : n ≠ 13) (h15 : n ≠ 15) (i : Nat) (x : Exchange) (warming : Bool) (v : State) :
    (concluded i x warming v).source n = v.source n := by
  rw [concluded, endStarting_source h13, endWarming_source h15]
  exact congrArg (fixedAt · n _) (walked_except i x warming v .sources (by decide))

/-- A segment's exchange has ended. -/
def State.freed (i : Nat) (s : State) : State := s.putSegment i { s.segment i with exchange := none }

theorem State.freed_segment {i : Nat} (low : i < 4) (s : State) (j : Nat) :
    (s.freed i).segment j = if j = i then { s.segment i with exchange := none } else s.segment j := by
  rw [State.freed, State.segment_putSegment]
  simp only [low, and_true]

theorem execMiss_idle (none_ : (s.segment i).exchange = none) : exec (.miss i) s = .next s := by
  show execMiss i s = _
  simp only [execMiss, none_]

theorem execMiss_eq {x : Exchange} (some_ : (s.segment i).exchange = some x) :
    exec (.miss i) s = .next (if x.discarded = true then s.freed i
      else concluded i x (s.device = .warming) (missHead i x.address (s.freed i))) := by
  show execMiss i s = _
  simp only [execMiss, some_]
  rfl

theorem execMiss_frame {t : State} (h : exec (.miss i) s = .next t) : SameExcept (writes (.miss i)) s t := by
  cases none_ : (s.segment i).exchange with
  | none =>
    obtain rfl := Host.Outcome.next.inj ((execMiss_idle none_).symm.trans h)
    exact .refl _ s
  | some x =>
    have run : exec (.miss i) s = .next (endExchange i x (missHead i x.address) s) := by
      show execMiss i s = _
      simp only [execMiss, none_]
    obtain rfl := Host.Outcome.next.inj (run.symm.trans h)
    exact endExchange_frame fun u => (missHead_frame (by decide) i x.address).2 (.refl _ u)

theorem execLostTimeReached_eq (found : s.head i a = some h) : exec (.lostTimeReached i a) s =
    .next (if h.goesLost s.partTime s.lostTime then loseHead i a h s else s) := by
  show execLostTimeReached i a s = _
  simp only [execLostTimeReached, found]

/-- What a miss leaves where its exchange's result is used: v is the state with the miss taken. -/
theorem miss_concluded {x : Exchange} {v : State} {h' : Head} (low : i < 4) (some_ : (s.segment i).exchange = some x)
    (used : x.discarded = false) (taken : missHead i x.address (s.freed i) = v)
    (segments : v.segments = (s.freed i).segments) (heads : v.heads = (s.putHead i x.address h').heads) :
    ∃ t, (exec (.miss i) s = .next t ∧ SameExcept (writes (.miss i)) s t ∧
      (∀ j b, 32 * j + b ≠ 32 * i + x.address → t.head j b = s.head j b) ∧ (t.segment i).exchange = none ∧
      t.head i x.address = some h' ∧ ExchangeConcluded i x (s.device = .warming) v t) ∧
      ∀ n, n ≠ 13 → n ≠ 15 → t.source n = v.source n := by
  have run : exec (.miss i) s = .next (concluded i x (s.device = .warming) v) := by
    rw [execMiss_eq some_, if_neg (by simp [used]), taken]
  have head (j b : Nat) : (concluded i x (s.device = .warming) v).head j b = (s.putHead i x.address h').head j b := by
    rw [State.head, concluded_heads, heads]
    rfl
  have exchanged := concluded_exchanged low x (s.device = .warming) v
  rw [decide_eq_true_eq] at exchanged
  refine ⟨_, ⟨run, execMiss_frame run, fun j b ne => ?_, ?_, ?_, exchanged⟩, fun n h13 h15 => ?_⟩
  · rw [head, State.putHead_head, if_neg ne]
  · rw [concluded_segment low, if_pos rfl, walkOn_exchange, State.segment, segments, ← State.segment,
      State.freed_segment low, if_pos rfl]
  · rw [head, State.putHead_head, if_pos rfl]
  · exact concluded_source h13 h15 i x _ v

end Sys2Proof.Machine
end

section
open Sys2Proof Sys2Proof.Machine

/-- Settles O58: a miss puts the head's record, and hands a LOST head on, before the exchange is concluded. -/
theorem missesAndTimeLoseAHead : Obligations.MissesAndTimeLoseAHead := by
  refine ⟨fun i a h s low _ found => ?_, fun i a s wf => ⟨fun free => fanUnreached_free (fanOf_none free), ?_⟩⟩
  · intro lost others detail reported gone ended
    have lost_iff {g : Head} (state : g.state = h.state) (reference : g.reference = h.reference) :
        g.goesLost s.partTime s.lostTime = true ↔ lost g.misses := by
      rw [Head.goesLost_iff, state, reference]
    refine ⟨fun idle => execMiss_idle idle, fun x some_ address => ?_, fun kept => ?_, fun loses => ?_⟩
    · subst address
      intro m concluded
      have found' : (s.freed i).head i x.address = some h := found
      have misses : h.missed.misses = m := by rw [h.missed_eq]
      have loses : h.missed.goesLost (s.freed i).partTime (s.freed i).lostTime = true ↔ lost m :=
        misses ▸ lost_iff (g := h.missed) rfl rfl
      refine ⟨fun dropped => ⟨s.freed i, ?_, ?_, fun j ne => ?_, ?_⟩, fun used kept => ?_, fun used loses_ => ?_⟩
      · rw [execMiss_eq some_, if_pos dropped]
      · exact (State.putSegment_frame (by decide) _ _).2 (.refl _ s)
      · rw [State.freed_segment low, if_neg ne]
      · rw [State.freed_segment low, if_pos rfl]
      · obtain ⟨t, ends, _⟩ := miss_concluded (h' := h.silenced m) low some_ used
          (missHead_kept found' (mt loses.1 kept)) rfl rfl
        exact ⟨t, ends⟩
      · obtain ⟨heads, segments, source⟩ := loseHead_leaves i x.address h.missed (s.freed i)
        obtain ⟨t, ends, sources⟩ := miss_concluded (h' := { h with misses := m, state := .lost, lostSince := some s.partTime })
          low some_ used (missHead_lost found' (loses.2 loses_)) segments (by rw [heads, h.missed_eq]; rfl)
        have handed : loseHead i x.address h.missed (s.freed i) =
            gone { h with misses := m, state := .lost, lostSince := some s.partTime } ended := by
          rw [loseHead_eq, h.missed_eq]
          rfl
        exact ⟨t, handed ▸ ends, (sources 6 (by decide) (by decide)).trans source⟩
    · rw [execLostTimeReached_eq found, if_neg (mt (lost_iff rfl rfl).1 kept)]
    · have run : exec (.lostTimeReached i a) s = .next (loseHead i a h s) := by
        rw [execLostTimeReached_eq found, if_pos ((lost_iff rfl rfl).2 loses)]
      obtain ⟨heads, _, source⟩ := loseHead_leaves i a h s
      have head (j b : Nat) : (loseHead i a h s).head j b =
          (s.putHead i a { h with state := .lost, lostSince := some s.partTime }).head j b := congrArg (Table.find · _) heads
      have frame : SameExcept (.heads :: .fans :: steerFields) s (loseHead i a h s) :=
        (loseHead_frame (by decide) i a h).2 (.refl _ s)
      refine ⟨_, run, frame, fun j b ne => ?_, source, ?_, loseHead_eq i a h s⟩
      · rw [head, State.putHead_head, if_neg ne]
      · rw [head, State.putHead_head, if_pos rfl]
  · intro n f mem head only
    have fan := fanOf_unique wf mem head only
    refine ⟨fun stays => fanUnreached_stays fan stays, fun locked unreached => ?_⟩
    rw [fanUnreached_down fan locked unreached]
    have moved : FanMoved n (f.toUnhealthy .unreached) s _ := fanDown_moved wf trivial
    exact ⟨(fanDown_frame (by decide) n _).2 (.refl _ s), moved.record,
      fun m k ne hm zone assist standing => moved.others m k ne hm (not_or.2 ⟨zone, assist⟩) standing⟩

end

section
/-!
SUPPORT. What a change keeps of the fan drive: the start limit, that every fan stands on its target, and that every target,
but for those that the change has left to be settled, is the one of R104 (R103 to R108); and the rule of each change of fan
records, of zone records and of the device state.
-/
namespace Sys2Proof.Machine

variable {s t u : State} {n : Nat} {f g : Fan} {b : Prop}

/-! ### Targets left to be settled -/

/-- What names a fan and what its target rests on: its number, its zone and its assist zone. -/
abbrev Seat := Nat × Nat × Option Nat

def Fan.seat (n : Nat) (f : Fan) : Seat := (n, f.zone, f.assist)

/-- The seats whose fan's target rests on a zone of a set. -/
def restingIn (zs : Set Nat) : Set Seat := {x | x.2.1 ∈ zs ∨ ∃ z ∈ zs, x.2.2 = some z}

theorem seat_mem_restingIn {zs : Set Nat} : f.seat n ∈ restingIn zs ↔ ∃ z ∈ zs, f.restsOn z := by
  simp [Fan.seat, restingIn, Fan.restsOn, and_or_left, exists_or]

theorem not_restsOn_of_seat {zs : Set Nat} (h : f.seat n ∉ restingIn zs) {z : Nat} (rests : f.restsOn z) : z ∉ zs :=
  fun mem => h (seat_mem_restingIn.2 ⟨z, mem, rests⟩)

theorem restingIn_empty : restingIn ∅ = ∅ := by simp [restingIn]

/-- The seats of a fan number. -/
def numbered (n : Nat) : Set Seat := {x | x.1 = n}

/-- Every fan's target is the one of R104, but for the seats of a set, over canonical zone and fan tables. -/
def OnTargetBut (p : Set Seat) (s : State) : Prop :=
  s.zones.wf = true ∧ s.fans.wf = true ∧ EachRecord (fun n f => f.seat n ∉ p → f.target = fanTarget s f) s.fans

theorem onTargetBut_empty : OnTargetBut ∅ s ↔ FansOnTarget s := by
  simp [OnTargetBut, FansOnTarget]

theorem onTargetBut_univ : OnTargetBut Set.univ s ↔ s.zones.wf = true ∧ s.fans.wf = true := by
  simp [OnTargetBut, EachRecord]

theorem OnTargetBut.mono {p q : Set Seat} (sub : p ⊆ q) (h : OnTargetBut p s) : OnTargetBut q s := by
  obtain ⟨zones, fans, target⟩ := h
  exact ⟨zones, fans, target.imp fun _ _ on out => on fun mem => out (sub mem)⟩

theorem OnTargetBut.canonical {p : Set Seat} (h : OnTargetBut p s) : s.fans.wf = true := by
  obtain ⟨_, canonical, _⟩ := h
  exact canonical

theorem StartGateHolds.canonical (h : StartGateHolds s) : s.fans.wf = true := by
  obtain ⟨canonical, _⟩ := h
  exact canonical

theorem StartGateHolds.within (h : StartGateHolds s) : startingCount s ≤ s.fanSettings.startLimit := by
  obtain ⟨_, within, _⟩ := h
  exact within

theorem StartGateHolds.unreached (h : StartGateHolds s) (bare : s.device = .unconfigured) :
    EachRecord (fun _ f => f.state = .unreached) s.fans := by
  obtain ⟨_, _, idle⟩ := h
  exact (idle bare).1

theorem StartGateHolds.noExchange (h : StartGateHolds s) (bare : s.device = .unconfigured) (i : Nat) :
    (s.segment i).exchange = none := by
  obtain ⟨_, _, idle⟩ := h
  exact (idle bare).2 i

theorem FansStand.canonical (h : FansStand s) : s.fans.wf = true := by
  obtain ⟨canonical, _⟩ := h
  exact canonical

theorem FansStand.of_find (h : FansStand s) (found : s.fans.find n = some f) : FanStands f := by
  obtain ⟨_, each⟩ := h
  exact each.of_find found

/-- A change keeps what every step keeps of the fan drive, where `b` excuses the start limit; of the targets it takes those
but for `p` to those but for `q`. -/
structure FansKept (b : Prop) (p q : Set Seat) (s t : State) : Prop where
  gate : ¬b → StartGateHolds s → StartGateHolds t
  stand : FansStand s → FansStand t
  target : OnTargetBut p s → OnTargetBut q t

namespace FansKept

variable {p q r : Set Seat}

theorem refl (s : State) : FansKept b p p s s := ⟨fun _ => id, id, id⟩

theorem trans (h : FansKept b p q s t) (k : FansKept b q r t u) : FansKept b p r s u :=
  ⟨fun nb => k.gate nb ∘ h.gate nb, k.stand ∘ h.stand, k.target ∘ h.target⟩

theorem widen (h : FansKept b p q s t) (sub : q ⊆ r) : FansKept b p r s t := ⟨h.gate, h.stand, fun hs => (h.target hs).mono sub⟩

theorem foldl {α : Type} {f : State → α → State} (h : ∀ s x, FansKept b p p s (f s x)) (l : List α) (s : State) :
    FansKept b p p s (l.foldl f s) := by
  induction l generalizing s with
  | nil => exact refl s
  | cons x l ih => exact (h s x).trans (ih _)

theorem ite {c : Prop} [Decidable c] (h : FansKept b p q s t) (k : FansKept b p q s u) :
    FansKept b p q s (if c then t else u) := by
  split
  exacts [h, k]

theorem when {c : Prop} [Decidable c] (h : FansKept b p p s t) : FansKept b p p s (if c then t else s) := ite h (refl s)

end FansKept

/-! ### Changes beside the fans -/

/-- The fields beside the fans and what their targets and the start gate read. -/
def besideFans : List Field :=
  [.pending, .partTime, .resetCause, .bays, .settleTime, .holdCount, .steers, .passages, .passageSettings, .signs,
    .patterns, .airSettings, .startTime, .nextEvaluation, .lamps, .faultThreshold, .fireLine, .quiet, .heads, .lostTime,
    .clients, .sources, .fetchMask, .response, .miso]

theorem startingCount_congr (fans : t.fans = s.fans) : startingCount t = startingCount s := by
  rw [startingCount, fans, ← startingCount]

theorem short_of_fans (fans : t.fans = s.fans) {z : Nat} (zone : (t.zone z).isSome = (s.zone z).isSome) :
    t.short z = s.short z := by
  rw [Bool.eq_iff_iff, short_iff, short_iff, zone, fans]

namespace FansKept

variable {p q r : Set Seat}

/-- A change of zone records, of the device state and of the segments: targets rest on the zones whose drive moves. -/
theorem driven (frame : SameExcept (.device :: .segments :: .zones :: besideFans) s t)
    (bare : t.device = .unconfigured →
      s.device = .unconfigured ∧ ∀ i, (s.segment i).exchange = none → (t.segment i).exchange = none)
    (wf : s.zones.wf = true → t.zones.wf = true) (zs : Set Nat) (drive : ∀ z ∉ zs, t.drive z = s.drive z) :
    FansKept b p (p ∪ restingIn zs) s t := by
  have fans : t.fans = s.fans := frame .fans (by decide)
  have settings : t.fanSettings = s.fanSettings := frame .fanSettings (by decide)
  refine ⟨fun _ hs => ?_, fun hs => ?_, fun hs => ?_⟩
  · obtain ⟨canonical, limit, idle⟩ := hs
    refine ⟨fans ▸ canonical, by rw [startingCount_congr fans, settings]; exact limit, fun ht => ?_⟩
    obtain ⟨hs, exchange⟩ := bare ht
    obtain ⟨each, none_⟩ := idle hs
    exact ⟨fans ▸ each, fun i => exchange i (none_ i)⟩
  · rwa [FansStand, fans]
  · obtain ⟨zones, canonical, target⟩ := hs
    refine ⟨wf zones, fans ▸ canonical, ?_⟩
    rw [fans]
    refine target.imp fun x _ on out => ?_
    have apart := fun hp => out (.inl hp)
    have still (z : Nat) (rests : x.2.restsOn z) : t.drive z = s.drive z :=
      drive z (not_restsOn_of_seat (fun hr => out (.inr hr)) rests)
    rw [on apart]
    exact (fanTarget_congr rfl rfl still fun z rests => short_of_fans fans (zone_isSome_of_drive (still z rests))).symm

/-- A change of zone records alone. -/
theorem drivenBy (frame : SameExcept (.zones :: besideFans) s t) (wf : s.zones.wf = true → t.zones.wf = true) (zs : Set Nat)
    (drive : ∀ z ∉ zs, t.drive z = s.drive z) : FansKept b p (p ∪ restingIn zs) s t :=
  driven (frame.mono (by decide))
    (fun ht => ⟨Eq.trans (frame .device (by decide)).symm ht, fun i h => by
      rwa [State.segment, show t.segments = s.segments from frame .segments (by decide)]⟩) wf zs drive

/-- A change that leaves every zone's drive. -/
theorem undriven (frame : SameExcept (.zones :: besideFans) s t) (wf : s.zones.wf = true → t.zones.wf = true)
    (drive : ∀ z, t.drive z = s.drive z) : FansKept b p p s t :=
  (drivenBy frame wf ∅ fun z _ => drive z).widen (by rw [restingIn_empty, Set.union_empty])

theorem beside (frame : SameExcept besideFans s t) : FansKept b p p s t :=
  have zones : t.zones = s.zones := frame .zones (by decide)
  undriven (frame.mono (by decide)) (fun h => zones ▸ h) (drive_of_zones zones)

/-- A change of the device state and of the segments. -/
theorem aside (frame : SameExcept (.device :: .segments :: besideFans) s t)
    (bare : t.device = .unconfigured →
      s.device = .unconfigured ∧ ∀ i, (s.segment i).exchange = none → (t.segment i).exchange = none) :
    FansKept b p p s t :=
  have zones : t.zones = s.zones := frame .zones (by decide)
  (driven (frame.mono (by decide)) bare (fun h => zones ▸ h) ∅ fun z _ => drive_of_zones zones z).widen
    (by rw [restingIn_empty, Set.union_empty])

/-- The zone records changed one by one, each with its drive kept. -/
theorem zones {f : Nat → Zone → Zone} (frame : SameExcept (.zones :: besideFans) s t) (eq : t.zones = s.zones.mapWith f)
    (drive : ∀ n z, (f n z).drive = z.drive) : FansKept b p p s t := by
  refine undriven frame (fun h => eq ▸ Table.wf_mapWith h f) fun z => ?_
  rw [State.drive, State.zone, eq, Table.find_mapWith, Option.map_map, ← State.zone]
  exact congrArg (Option.map · _) (funext fun x => drive z x)

/-- Changes of bays and of steers leave every zone's drive. -/
theorem minors (h : Minors (fun _ => True) s t) (frame : SameExcept (.zones :: besideFans) s t) : FansKept b p p s t := by
  obtain ⟨_, eq⟩ := h.zones
  exact zones frame eq fun _ _ => rfl

end FansKept

/-! ### Fans that take targets where they stand -/

theorem Fan.Retargeted.seat (h : f.Retargeted g) (n : Nat) : g.seat n = f.seat n := by
  rw [Fan.seat, h.zone, h.assist, ← Fan.seat]

namespace FansKept

variable {p q r : Set Seat}

/-- Fans take targets where they stand: each that of R104, or it stays as it was. -/
theorem retargeted {k : Nat → Fan → Fan} (h : ∀ n f, Fan.Retargeted f (k n f))
    (settled : ∀ n f, f.seat n ∉ q → (k n f).target = fanTarget s f ∨ (k n f = f ∧ f.seat n ∉ p)) :
    FansKept b p q s (s.setFans (s.fans.mapWith k)) := by
  refine ⟨fun _ hs => ?_, fun hs => ?_, fun hs => ?_⟩
  · obtain ⟨canonical, limit, idle⟩ := hs
    refine ⟨Table.wf_mapWith canonical k, by rw [startingCount_mapWith h]; exact limit, fun bare => ?_⟩
    obtain ⟨each, none_⟩ := idle bare
    exact ⟨EachRecord.mapWith_iff.2 (each.imp fun x _ st => (h x.1 x.2).unreached st), none_⟩
  · obtain ⟨canonical, each⟩ := hs
    exact ⟨Table.wf_mapWith canonical k, EachRecord.mapWith_iff.2 (each.imp fun x _ st => (h x.1 x.2).stands st)⟩
  · obtain ⟨zones, canonical, target⟩ := hs
    refine ⟨zones, Table.wf_mapWith canonical k, EachRecord.mapWith_iff.2 (target.imp fun x _ on out => ?_)⟩
    obtain ⟨n, f⟩ := x
    have same : fanTarget (s.setFans (s.fans.mapWith k)) (k n f) = fanTarget s f :=
      fanTarget_congr (h n f).zone (h n f).assist (fun z _ => rfl) fun z _ => short_mapWith h z s
    rw [(h n f).seat] at out
    rw [same]
    rcases settled n f out with new | ⟨old, apart⟩
    · exact new
    · rw [old]
      exact on apart

theorem retargetZone (z : Nat) (s : State) : FansKept b p (p \ restingIn {z}) s (retargetZone z s) := by
  refine retargeted (fun _ f => retargeted_retargeted z s f) fun n f out => ?_
  by_cases rests : f.restsOn z
  · exact .inl ((congrArg Fan.target (retargeted_of_restsOn rests s)).trans (f.settleTo_target _ _ _))
  · have apart : f.seat n ∉ restingIn {z} := by simpa [seat_mem_restingIn] using rests
    exact .inr ⟨retargeted_of_apart rests s, fun hp => out ⟨hp, apart⟩⟩

/-- The targets that rest on the zones of a list are settled. -/
theorem retargetZones (zs : List Nat) (s : State) : FansKept b p (p \ restingIn {z | z ∈ zs}) s (retargetZones zs s) := by
  induction zs generalizing s p with
  | nil => exact (refl s).widen (by simp [restingIn])
  | cons z zs ih =>
    refine ((retargetZone z s).trans (ih _)).widen ?_
    rintro ⟨n, own, assist⟩ ⟨⟨hp, head⟩, tail⟩
    simp_all [restingIn]

theorem retargetZones_again (zs : List Nat) (s : State) : FansKept b p p s (Machine.retargetZones zs s) :=
  (retargetZones zs s).widen Set.sdiff_subset

/-- The targets that a change of zone records has left are settled by the retargeting of those zones. -/
theorem settledBy {zs : List Nat} (h : FansKept b p (q ∪ restingIn {z | z ∈ zs}) s t) :
    FansKept b p q s (Machine.retargetZones zs t) :=
  (h.trans (retargetZones zs t)).widen (by rw [Set.union_sdiff_right]; exact Set.sdiff_subset)

theorem takeUpFire (s : State) : FansKept b p p s (takeUpFire s) := by
  rw [takeUpFire_eq]
  refine retargeted (fun _ f => ?_) fun n f out => ?_
  · split
    exacts [f.settleTo_retargeted _ _ _, .refl f]
  · split
    exacts [.inl (f.settleTo_target _ _ _), .inr ⟨rfl, out⟩]

/-- One fan's target is settled. -/
theorem retargetFan (n : Nat) (s : State) : FansKept b p (p \ numbered n) s (retargetFan n s) := by
  rw [retargetFan_eq, Table.upd]
  refine retargeted (fun _ f => ?_) fun m f out => ?_
  · split
    exacts [f.settleTo_retargeted _ _ _, .refl f]
  · split
    · exact .inl (f.settleTo_target _ _ _)
    · next ne => exact .inr ⟨rfl, fun hp => out ⟨hp, ne⟩⟩

end FansKept

/-! ### The gate (R108) -/

/-- An admission with room keeps the start limit, every fan standing and every target. -/
theorem FansKept.admitFan {p : Set Seat} (wf : s.fans.wf = true) (found : s.fans.find n = some f)
    (queued : f.state = .queued) (room : startingCount s < s.fanSettings.startLimit) :
    FansKept b p p s (admitFan n f s) := by
  have healthy : (f.admitted s.partTime s.fanSettings.startTime).unhealthy = f.unhealthy := by
    simp [Fan.unhealthy, Fan.admitted, queued]
  refine ⟨fun _ hs => ?_, fun hs => ?_, fun hs => ?_⟩
  · obtain ⟨_, _, idle⟩ := hs
    refine ⟨Table.wf_put wf _ _, ?_, fun bare => ?_⟩
    · have moved := Table.countP_put wf found (f.admitted s.partTime s.fanSettings.startTime)
        fun x => decide (x.2.state = .starting)
      simp only [startingCount, ← List.countP_eq_length_filter] at room ⊢
      simp only [Machine.admitFan, State.setFans_fans, State.setFans_fanSettings]
      simp [Table.one, Fan.admitted, queued] at moved room ⊢
      omega
    · obtain ⟨each, _⟩ := idle bare
      simpa [queued] using each.of_find found
  · obtain ⟨_, each⟩ := hs
    exact ⟨Table.wf_put wf _ _, each.put (admitted_stands (each.of_find found) queued _ _)⟩
  · obtain ⟨zones, _, target⟩ := hs
    have same (h : Fan) : fanTarget (Machine.admitFan n f s) h = fanTarget s h :=
      fanTarget_of_short (s := s) (t := Machine.admitFan n f s) rfl
      (fun z => short_put (g := f.admitted s.partTime s.fanSettings.startTime) wf found rfl fun _ => healthy) h
    refine ⟨zones, Table.wf_put wf _ _, EachRecord.put (target.imp fun x _ on out => (on out).trans (same x.2).symm) ?_⟩
    intro out
    exact (target.of_find found out).trans (same f).symm

/-- The gate keeps whatever a canonical fan table and an admission with room keep. -/
theorem FansKept.gated {p : Set Seat} (s : State) : FansKept b p p s (Machine.gate s) where
  gate nb hs := gate_keeps (P := StartGateHolds) (fun _ => StartGateHolds.canonical)
    (fun _ _ _ h found queued room => (FansKept.admitFan (p := ∅) h.canonical found queued room).gate nb h) hs
  stand hs := gate_keeps (P := FansStand) (fun _ => FansStand.canonical)
    (fun _ _ _ h found queued room => (FansKept.admitFan (b := b) (p := ∅) h.canonical found queued room).stand h) hs
  target hs := gate_keeps (P := OnTargetBut p) (fun _ => OnTargetBut.canonical)
    (fun _ _ _ h found queued room => (FansKept.admitFan (b := b) h.canonical found queued room).target h) hs

end Sys2Proof.Machine
end

section
/-!
SUPPORT. Fan records put, with what follows (R103, R108 to R114), and what the operations of a step keep of the fan drive:
those of the fans, of demand, fire and stacks, of the device state, of passages, bays and heads, and of the zone table.
-/
namespace Sys2Proof.Machine

variable {s t u : State} {n : Nat} {f g : Fan} {b : Prop}

/-! ### A fan record put -/

/-- What a fan keeps in a move that is not the gate's and takes no target: its zone, its assist zone and its target; that it
stands on its target; and it does not come to be STARTING. -/
structure Fan.MovedTo (f g : Fan) : Prop where
  zone : g.zone = f.zone
  assist : g.assist = f.assist
  target : g.target = f.target
  stands : FanStands f → FanStands g
  starting : g.state = .starting → f.state = .starting

/-- A zone, where a condition holds. -/
def zoneWhere (w : Nat) (c : Prop) : Set Nat := {z | z = w ∧ c}

theorem zoneWhere_of {w : Nat} {c : Prop} (h : c) : zoneWhere w c = {w} := by simp [zoneWhere, h]

theorem zoneWhere_of_not {w : Nat} {c : Prop} (h : ¬c) : zoneWhere w c = ∅ := by simp [zoneWhere, h]

namespace FansKept

variable {p q r : Set Seat}

/-- A fan record put, whose seat is left to be settled or whose target is that of R104, with the zones whose shortness it
moves. -/
theorem put {zs : Set Nat} (sub : p ∪ restingIn zs ⊆ q)
    (gate : ¬b → StartGateHolds s → startingCount (s.setFans (s.fans.put n g)) ≤ s.fanSettings.startLimit ∧
      (s.device = .unconfigured → g.state = .unreached))
    (stand : FansStand s → FanStands g)
    (short : s.fans.wf = true → ∀ z ∉ zs, (s.setFans (s.fans.put n g)).short z = s.short z)
    (own : OnTargetBut p s → g.seat n ∉ q → g.target = fanTarget (s.setFans (s.fans.put n g)) g) :
    FansKept b p q s (s.setFans (s.fans.put n g)) := by
  refine ⟨fun nb hs => ?_, fun hs => ?_, fun hs => ?_⟩
  · obtain ⟨limit, unreached⟩ := gate nb hs
    obtain ⟨canonical, _, idle⟩ := hs
    refine ⟨Table.wf_put canonical n g, limit, fun bare => ?_⟩
    obtain ⟨each, none_⟩ := idle bare
    exact ⟨each.put (unreached bare), none_⟩
  · have stands := stand hs
    obtain ⟨canonical, each⟩ := hs
    exact ⟨Table.wf_put canonical n g, each.put stands⟩
  · have on := own hs
    obtain ⟨zones, canonical, target⟩ := hs
    refine ⟨zones, Table.wf_put canonical n g, EachRecord.put (target.imp fun x _ on out => ?_) on⟩
    rw [on fun hp => out (sub (.inl hp))]
    refine (fanTarget_congr (s := s) (t := s.setFans (s.fans.put n g)) rfl rfl (fun z _ => rfl)
      fun z rests => short canonical z ?_).symm
    exact not_restsOn_of_seat (fun hr => out (sub (.inr hr))) rests

/-- A fan moved, with its zone left to be settled where its shortness has moved (R103). -/
theorem putMoved (found : s.fans.find n = some f) (moved : f.MovedTo g)
    (unreached : ¬b → s.device = .unconfigured → f.state = .unreached → g.state = .unreached) :
    FansKept b p (p ∪ restingIn (zoneWhere g.zone ((s.setFans (s.fans.put n g)).short g.zone ≠ s.short g.zone))) s
      (s.setFans (s.fans.put n g)) := by
  have short (wf : s.fans.wf = true) (z : Nat)
      (out : z ∉ zoneWhere g.zone ((s.setFans (s.fans.put n g)).short g.zone ≠ s.short g.zone)) :
      (s.setFans (s.fans.put n g)).short z = s.short z := by
    by_cases own : z = g.zone
    · by_contra ne
      exact out ⟨own, own ▸ ne⟩
    · exact short_put wf found moved.zone fun e => absurd (e.trans moved.zone.symm) own
  refine put .rfl (fun nb hs => ⟨?_, fun bare => ?_⟩) (fun hs => moved.stands (hs.of_find found)) short fun hs out => ?_
  · exact (startingCount_put hs.canonical found moved.starting).trans hs.within
  · exact unreached nb bare ((hs.unreached bare).of_find found)
  · obtain ⟨_, canonical, target⟩ := hs
    have seat : g.seat n = f.seat n := by rw [Fan.seat, moved.zone, moved.assist, ← Fan.seat]
    have settled := target.of_find found
    rw [← seat] at settled
    rw [moved.target, settled fun hp => out (.inl hp)]
    refine (fanTarget_congr (s := s) (t := s.setFans (s.fans.put n g)) moved.zone moved.assist (fun z _ => rfl)
      fun z rests => short canonical z ?_).symm
    refine not_restsOn_of_seat (f := g) (n := n) (fun hr => out (.inr hr)) ?_
    rwa [Fan.restsOn, moved.zone, moved.assist, ← Fan.restsOn]

theorem resettle (w : Nat) (before : Bool) (s : State) :
    FansKept b (p ∪ restingIn (zoneWhere w (s.short w ≠ before))) p s (resettle w before s) := by
  unfold Machine.resettle
  split
  · next same =>
    rw [zoneWhere_of_not (not_not.2 same), restingIn_empty, Set.union_empty]
    exact refl s
  · next moved =>
    rw [zoneWhere_of moved]
    exact (retargetZone w s).widen (by rw [Set.union_sdiff_right]; exact Set.sdiff_subset)

/-- A fan moved, with what follows. -/
theorem putFan (found : s.fans.find n = some f) (moved : f.MovedTo g)
    (unreached : ¬b → s.device = .unconfigured → f.state = .unreached → g.state = .unreached) :
    FansKept b p p s (putFan n g s) := by
  rw [putFan_eq]
  exact ((putMoved found moved unreached).trans (resettle _ _ _)).trans (gated _)

/-- A fan that goes down, with what follows. -/
theorem fanDown (found : s.fans.find n = some f) (moved : f.MovedTo g)
    (unreached : ¬b → s.device = .unconfigured → f.state = .unreached → g.state = .unreached) :
    FansKept b p p s (fanDown n g s) := by
  rw [fanDown_eq]
  have down := (putMoved (b := b) (p := p) found moved unreached).trans (gated _)
  have freed : FansKept b p (p ∪ restingIn (zoneWhere g.zone
      ((Machine.gate (s.setFans (s.fans.put n g))).short g.zone ≠ s.short g.zone))) s
      (Machine.gate (s.setFans (s.fans.put n g))) :=
    ⟨down.gate, down.stand, fun hs => by
      rw [gate_short (s := s.setFans (s.fans.put n g)) (Table.wf_put hs.canonical n g)]
      exact down.target hs⟩
  exact (freed.trans (resettle _ _ _)).trans (gated _)

/-- A fan whose state stands, with its reports or its head replaced. -/
theorem putStanding (found : s.fans.find n = some f) (moved : f.MovedTo g) (state : g.state = f.state) :
    FansKept b p p s (s.setFans (s.fans.put n g)) := by
  have put := putMoved (b := b) (p := p) found moved fun _ _ st => state.trans st
  refine ⟨put.gate, put.stand, fun hs => (put.target hs).mono ?_⟩
  have still : (s.setFans (s.fans.put n g)).short g.zone = s.short g.zone :=
    short_put hs.canonical found moved.zone fun _ => Fan.unhealthy_of_state state
  rw [zoneWhere_of_not (not_not.2 still), restingIn_empty, Set.union_empty]

/-- A change may be taken over canonical fan tables alone. -/
theorem ofCanonical (h : s.fans.wf = true → FansKept b p q s t) : FansKept b p q s t :=
  ⟨fun nb hs => (h hs.canonical).gate nb hs, fun hs => (h hs.canonical).stand hs, fun hs => (h hs.canonical).target hs⟩

end FansKept

/-! ### The moves of a fan (R109 to R114) -/

theorem toRundown_moved (f : Fan) (now off : Nat) : f.MovedTo (f.toRundown now off) :=
  ⟨rfl, rfl, rfl, fun h => toRundown_stands h.trips_le now off, nofun⟩

theorem toUnhealthy_moved (f : Fan) {st : FanState}
    (h : st = .unreached ∨ st = .tripped ∨ st = .lockedOut ∨ st = .localControl) : f.MovedTo (f.toUnhealthy st) :=
  ⟨rfl, rfl, rfl, fun stands => toUnhealthy_stands stands.trips_le h, fun e => by
    rcases h with rfl | rfl | rfl | rfl <;> cases e⟩

theorem addTrip_length {now : Nat} {trips : List Nat} (h : trips.length ≤ 3) : (addTrip now trips).length ≤ 3 := by
  rw [addTrip_eq h]
  split <;> simp <;> omega

theorem tripRecord_moved (f : Fan) (now : Nat) : f.MovedTo (f.tripRecord now) := by
  have state : f.tripState now = .tripped ∨ f.tripState now = .lockedOut := by
    unfold Fan.tripState
    split <;> simp
  refine ⟨rfl, rfl, rfl, fun h => toUnhealthy_stands (addTrip_length h.trips_le) (by tauto), fun e => ?_⟩
  have starting : f.tripState now = .starting := e
  rcases state with st | st <;> cases st.symm.trans starting

theorem endStart_moved (st : f.state = .starting) (now off : Nat) : f.MovedTo (f.endStart now off) := by
  by_cases pos : 0 < f.target
  · have stands := fun h => endStart_stands h st now off
    rw [endStart_running pos] at stands ⊢
    exact ⟨rfl, rfl, rfl, stands, nofun⟩
  · have stands := fun h => endStart_stands h st now off
    rw [endStart_rundown (by omega)] at stands ⊢
    exact ⟨rfl, rfl, rfl, stands, nofun⟩

theorem endRundown_moved (st : f.state = .rundown) (now : Nat) : f.MovedTo (f.endRundown now) := by
  by_cases pos : 0 < f.target
  · have stands := fun h => endRundown_stands h st now
    rw [endRundown_queued pos] at stands ⊢
    exact ⟨rfl, rfl, rfl, stands, nofun⟩
  · have stands := fun h => endRundown_stands h st now
    rw [endRundown_stopped (by omega)] at stands ⊢
    exact ⟨rfl, rfl, rfl, stands, nofun⟩

/-- A lockout cleared leaves a fan in RUNDOWN or UNREACHED, with no trips (R112). -/
theorem unlocked_moved (f : Fan) (now off : Nat) (heard : Bool) : f.MovedTo (f.unlocked now off heard) := by
  unfold Fan.unlocked
  have none_ : ([] : List Nat).length ≤ 3 := by decide
  cases heard
  · exact ⟨rfl, rfl, rfl, fun _ => toUnhealthy_stands (f := { f with trips := [] }) none_ (.inl rfl), nofun⟩
  · exact ⟨rfl, rfl, rfl, fun _ => toRundown_stands (f := { f with trips := [] }) none_ now off, nofun⟩

theorem observe_moved (f : Fan) (now : Nat) (payload : List Byte) :
    f.MovedTo (f.observe now payload) ∧ (f.observe now payload).state = f.state := by
  unfold Fan.observe
  split <;> exact ⟨⟨rfl, rfl, rfl, id, id⟩, rfl⟩

/-! ### Drives that demand steps and fire states move (R102, R139) -/

theorem storeDemand_drive {zs : List Nat} {z : Nat} (out : z ∉ demandChanges zs s) :
    (storeDemand zs s).drive z = s.drive z := by
  rw [State.drive, storeDemand_zone, Option.map_map, State.drive]
  cases hz : s.zone z with
  | none => rfl
  | some x =>
    by_cases mem : z ∈ zs
    · have settled : demandStep x = x.demand := by
        by_contra ne
        exact out (List.mem_filter.2 ⟨mem, by simp [State.zoneIs, hz, ne]⟩)
      simp [mem, settled]
    · simp [mem]

theorem storeFire_drive {move : Nat → Zone → FireMove} {z : Nat} (out : z ∉ fireChanges move s) :
    (storeFire move s).drive z = s.drive z := by
  rw [State.drive, storeFire_zone, Option.map_map, State.drive]
  cases hz : s.zone z with
  | none => rfl
  | some x =>
    have same : (move z x).fire = x.fire := by
      by_contra ne
      exact out (List.mem_map_of_mem (f := Prod.fst) (List.mem_filter.2 ⟨Table.mem_of_find hz, by simpa using ne⟩))
    simp [Zone.drive, Zone.withFire, same]

namespace FansKept

variable {p q r : Set Seat}

theorem raise (n : Nat) (zones : List Nat) (detail : List Byte) (s : State) :
    FansKept b p p s (raise n zones detail s) := beside ((raise_frame (by decide) _ _ _).2 (.refl _ s))

theorem applyFanFlags (found : s.fans.find n = some f) (bare : s.device = .unconfigured → b) :
    FansKept b p p s (applyFanFlags n f s) := by
  have excused {g : Fan} (nb : ¬b) (h : s.device = .unconfigured) (_ : f.state = .unreached) : g.state = .unreached :=
    absurd (bare h) nb
  rcases f.flags_cases with keep | ⟨locked, tripped, flag⟩ | ⟨locked, local_, trip, flag⟩ | ⟨st, trip, local_⟩
  · rw [applyFanFlags_keep keep]
    exact refl s
  · rw [applyFanFlags_trip locked tripped flag, fanTrip_eq]
    exact (fanDown found (tripRecord_moved f _) excused).trans (raise _ _ _ _)
  · rw [applyFanFlags_local locked local_ trip flag]
    exact fanDown found (toUnhealthy_moved f (by simp)) excused
  · rw [applyFanFlags_back st trip local_]
    exact putFan found (toRundown_moved f _ _) excused

theorem fanReport (segment address : Nat) (payload : List Byte) (bare : s.device = .unconfigured → b) :
    FansKept b p p s (fanReport segment address payload s) := by
  cases found : fanOf segment address s with
  | none =>
    rw [Machine.fanReport, found]
    exact refl s
  | some q =>
    obtain ⟨n, f⟩ := q
    have mem := List.mem_of_find?_eq_some found
    rw [fanReport_eq found]
    obtain ⟨moved, state⟩ := observe_moved f s.partTime payload
    refine ofCanonical fun wf => ?_
    exact (putStanding (Table.find_of_mem wf mem) moved state).trans (applyFanFlags (Table.find_put_same _ _ _) bare)

theorem fanUnreached (segment address : Nat) (s : State) : FansKept b p p s (fanUnreached segment address s) := by
  cases found : fanOf segment address s with
  | none =>
    rw [fanUnreached_free found]
    exact refl s
  | some q =>
    obtain ⟨n, f⟩ := q
    have mem := List.mem_of_find?_eq_some found
    refine ofCanonical fun wf => ?_
    by_cases stays : f.state = .lockedOut ∨ f.state = .unreached
    · rw [fanUnreached_stays found stays]
      exact refl s
    · obtain ⟨locked, unreached⟩ := not_or.1 stays
      rw [fanUnreached_down found locked unreached]
      exact fanDown (Table.find_of_mem wf mem) (toUnhealthy_moved f (.inl rfl)) fun _ _ _ => rfl

/-! ### Guidance, demand, fire and stacks -/

theorem changeBay (g : Nat) (f : Bay → Bay) (s : State) : FansKept b p p s (changeBay g f s) :=
  minors (.bay g f s) ((changeBay_except g f s).mono (by decide))

theorem headGone (segment address : Nat) (s : State) : FansKept b p p s (headGone segment address s) :=
  (minors (baysUnsensed_minors segment address s) ((baysUnsensed_frame (by decide) segment address).2 (.refl _ s))).trans
    (fanUnreached segment address _)

/-- Guidance states derived again, with the redirect pass (R11, R12, R66). -/
theorem deriveAndRedirect (zs : List Nat) (s : State) : FansKept b p p s (deriveAndRedirect zs s) := by
  have derived : FansKept b p p s (refreshGuidance zs s) :=
    zones ((refreshGuidance_frame (by decide) zs).2 (.refl _ s)) (State.setZones_zones _ _) fun n z => by split <;> rfl
  exact derived.trans (minors (redirectPass_minors _ _) ((redirectPass_frame (by decide) _).2 (.refl _ _)))

/-- Demand steps stored, with the targets that follow (R102). -/
theorem settleDemand (zs : List Nat) (s : State) : FansKept b p p s (settleDemand zs s) :=
  settledBy (drivenBy ((storeDemand_frame (by decide) zs).2 (.refl _ s))
    (fun wf => by rw [storeDemand_zones]; exact Table.wf_mapWith wf _) _ fun _ out => storeDemand_drive out)

end FansKept

end Sys2Proof.Machine
end

section
/-!
SUPPORT. What the operations of a step keep of the fan drive: those of fire, stacks and air, of the device state, of
passages, bays and heads, of the zone table, and the two resets.
-/
namespace Sys2Proof.Machine

variable {s t u : State} {n : Nat} {b : Prop}

namespace FansKept

variable {p q r : Set Seat}

/-! ### The device state and the segments -/

/-- A change of the device state to one other than UNCONFIGURED, and of the segments. -/
theorem entered (frame : SameExcept (.device :: .segments :: besideFans) s t) (device : t.device ≠ .unconfigured) :
    FansKept b p p s t := aside frame fun h => absurd h device

/-- A segment changed, without an exchange begun. -/
theorem segment {i : Nat} {g : Segment} (idle : (s.segment i).exchange = none → g.exchange = none) :
    FansKept b p p s (s.putSegment i g) := by
  refine aside ((State.putSegment_frame (by decide) _ _).2 (.refl _ s)) fun bare => ⟨bare, fun j none_ => ?_⟩
  rw [State.segment_putSegment]
  split
  · next own => exact idle (own.1 ▸ none_)
  · exact none_

/-! ### Quiet hours and the end of STARTING (R154, R157, R174) -/

theorem enterWarming (cause : WakeCause) (zones : List Nat) (s : State) : FansKept b p p s (enterWarming cause zones s) :=
  entered ((enterWarming_frame (by decide) cause zones).2 (.refl _ s)) (by
    rw [show (Machine.enterWarming cause zones s).device = .warming from rfl]
    decide)

theorem wakeEvent (cause : WakeCause) (zones : List Nat) (s : State) : FansKept b p p s (wakeEvent cause zones s) :=
  when (enterWarming cause zones s)

theorem endWarming (s : State) : FansKept b p p s (endWarming s) :=
  when (entered (by simp (disch := decide)) (by
    rw [show State.device _ = DeviceState.running from rfl]
    decide))

theorem takeQuiet (mode : QuietMode) (s : State) : FansKept b p p s (takeQuiet mode s) :=
  ite (enterWarming _ _ s) (entered ((enterQuiet_frame (by decide) mode).2 (.refl _ s)) (by
    rw [show (enterQuiet mode s).device = .quiet from rfl]
    decide))

theorem endStarting (s : State) : FansKept b p p s (endStarting s) := by
  have running : FansKept b p p s (s.setDevice .running) := entered (by simp (disch := decide)) (by simp)
  exact when ((running.trans (deriveAndRedirect _ _)).trans (beside ((settleAllLamps_frame (by decide)).2 (.refl _ _))))

theorem start (s : State) : FansKept b p p s (start s) := by
  have started : FansKept b p p s (enterStarting s) := entered (by simp (disch := decide)) (by
    rw [enterStarting_device]
    decide)
  exact ((started.trans (takeUpFire _)).trans (deriveAndRedirect _ _)).trans
    (beside ((settleAllLamps_frame (by decide)).2 (.refl _ _)))

/-! ### Fire, stacks and the air evaluation (R77, R133, R139 to R146) -/

theorem moveFire (cause : FireCause) (move : Nat → Zone → FireMove) (s : State) :
    FansKept b p p s (moveFire cause move s) := by
  have stored := drivenBy (b := b) (p := p) ((storeFire_frame (by decide) move).2 (.refl _ s))
    (fun wf => by rw [storeFire, State.setZones_zones]; exact Table.wf_mapWith wf _) {z | z ∈ fireChanges move s}
    fun _ out => storeFire_drive out
  have raised (zs : List Nat) (p : Set Seat) (u : State) : FansKept b p p u (zs.foldl (raiseFire cause) u) :=
    foldl (fun u z => beside ((raiseFire_frame (by decide) _ _).2 (.refl _ u))) zs u
  have lit (zs : List Nat) (u : State) : FansKept b p p u (settleLampsOf zs u) :=
    beside ((settleLampsOf_frame (by decide) _).2 (.refl _ u))
  have driven := settledBy ((stored.trans (raised (fireChanges move s) _ _)).trans (settleDemand (fireChanges move s) _))
  exact ((driven.trans (gated _)).trans (lit _ _)).trans (deriveAndRedirect _ _)

theorem activateFire (s : State) : FansKept b p p s (activateFire s) := by
  have moved : FansKept b p p s (Machine.moveFire .line activationMove (s.setFireLine (s.fireLine.settle true))) :=
    (beside (by simp (disch := decide))).trans (moveFire _ _ _)
  exact ite moved (moved.trans (wakeEvent _ _ _))

theorem releaseFire (s : State) : FansKept b p p s (releaseFire s) :=
  (beside (by simp (disch := decide))).trans (moveFire _ _ _)

theorem changeStack (z : Nat) (r : Zone) (stack : List StackEntry) (s : State) :
    FansKept b p p s (changeStack z r stack s) := by
  have stacked : FansKept b p p s (s.updZone z fun x => { x with stack := stack }) :=
    zones (by simp (disch := decide)) (State.setZones_zones _ _) fun n y => by split <;> rfl
  have lit (u : State) : FansKept b p p u (settleLampsOf [z] u) := beside ((settleLampsOf_frame (by decide) _).2 (.refl _ u))
  have settled := (stacked.trans (when (c := effectiveVent stack ≠ effectiveVent r.stack ∨ ventLevel stack ≠ ventLevel r.stack)
    ((settleDemand [z] _).trans (gated _)))).trans (when (c := effectiveLight stack ≠ effectiveLight r.stack) (lit _))
  exact ite (settled.trans (deriveAndRedirect _ _)) settled

theorem creditAir (z amount : Nat) (s : State) : FansKept b p p s (creditAir z amount s) :=
  zones ((creditAir_frame (by decide) z amount).2 (.refl _ s)) (State.setZones_zones _ _) fun n y => by split <;> rfl

theorem airEvaluation (s : State) : FansKept b p p s (airEvaluation s) := by
  have evaluated : FansKept b p p s (evaluateZones s) :=
    zones ((evaluateZones_frame (by decide)).2 (.refl _ s)) (State.setZones_zones _ _) fun _ _ => rfl
  have raised (l : List Raise) (u : State) (x : Option Nat) : FansKept b p p u ((raiseAll l u).setNextEvaluation x) :=
    beside ((State.setNextEvaluation_frame (by decide) _).2 ((raiseAll_frame (by decide) _).2 (.refl _ u)))
  have lit (zs : List Nat) (u : State) : FansKept b p p u (settleLampsOf zs u) :=
    beside ((settleLampsOf_frame (by decide) _).2 (.refl _ u))
  have handed (u : State) : FansKept b p p u (handOnAir u) :=
    (((settleDemand _ u).trans (gated _)).trans (lit _ _)).trans (deriveAndRedirect _ _)
  have woken (u : State) : FansKept b p p u (wakeByAir u) := ite (refl u) (wakeEvent _ _ u)
  exact ((evaluated.trans (raised _ _ _)).trans (handed _)).trans (woken _)

/-! ### Passages and bays (R27 to R35, R52 to R58) -/

theorem entryGuidance (p' : Nat) (r : Passage) (c : VehicleClass) (s : State) : FansKept b p p s (entryGuidance p' r c s) :=
  minors (entryGuidance_minors p' r c ⟨fun _ _ => trivial, fun _ _ => trivial⟩)
    ((entryGuidance_frame (by decide) p' r c).2 (.refl _ s))

theorem creditPassage (z : Option Nat) (c : VehicleClass) (s : State) : FansKept b p p s (creditPassage z c s) := by
  cases z with
  | none => exact refl s
  | some z => exact (creditAir z _ s).trans (beside ((presence_frame (by decide) _).2 (.refl _ _)))

theorem forwardPassage (p' : Nat) (r : Passage) (c : VehicleClass) (s : State) : FansKept b p p s (forwardPassage p' r c s) :=
  (when (entryGuidance p' r c s)).trans (when (wakeEvent _ _ _))

theorem takePassage (p' : Nat) (gap : Int) (occupancy : Nat) (s : State) :
    FansKept b p p s (takePassage p' gap occupancy s) := by
  unfold Machine.takePassage
  split
  · exact refl s
  · next r _ =>
    dsimp only
    have counted (x : Passage) : FansKept b p p s (s.setPassages (s.passages.put p' x)) := beside (by simp (disch := decide))
    split
    · exact ((counted _).trans (creditPassage _ _ _)).trans (forwardPassage _ _ _ _)
    · exact ((counted _).trans (creditPassage _ _ _)).trans (beside ((reversePassage_frame (by decide) _ _ _).2 (.refl _ _)))

theorem loopReport (segment address : Nat) (payload : List Byte) (s : State) :
    FansKept b p p s (loopReport segment address payload s) := by
  unfold Machine.loopReport
  split
  · exact (beside (by simp (disch := decide))).trans (foldl (fun u x => takePassage _ _ _ u) _ _)
  · exact refl s

theorem departure (g : Nat) (s : State) : FansKept b p p s (departure g s) := by
  unfold Machine.departure
  split
  · exact refl s
  · exact ((changeBay g _ s).trans (creditAir _ _ _)).trans (beside ((presence_frame (by decide) _).2 (.refl _ _)))

theorem changeBayEnding (g : Nat) (e : HoldEnding) (f : Bay → Bay) (s : State) : FansKept b p p s (changeBayEnding g e f s) :=
  minors (changeBayEnding_minors g e f s) ((changeBayEnding_frame (by decide) g e f).2 (.refl _ s))

theorem arrival (g : Nat) (s : State) : FansKept b p p s (arrival g s) :=
  minors (arrival_minors g s) ((arrival_frame (by decide) g).2 (.refl _ s))

theorem applyRaw (g : Nat) (raw : Raw) (s : State) : FansKept b p p s (applyRaw g raw s) := by
  unfold Machine.applyRaw
  split
  · exact refl s
  · split
    case h_2 => exact changeBayEnding _ _ _ s
    case h_4 => exact when (arrival g s)
    case h_10 => exact when (departure g s)
    case h_1 | h_5 | h_7 => exact refl s
    case h_3 | h_6 | h_8 | h_9 | h_11 | h_12 => exact changeBay g _ s

theorem bayReport (segment address : Nat) (payload : List Byte) (s : State) :
    FansKept b p p s (bayReport segment address payload s) :=
  foldl (fun v p => by
    unfold takeRaw
    split
    · exact refl v
    · exact when (applyRaw _ _ v)) _ s

theorem hostSet (g : Nat) (x : Bay) (present : Bool) (s : State) : FansKept b p p s (hostSet g x present s) :=
  ite (refl s) (ite (changeBay g _ s) (ite (arrival g s) (departure g s)))

/-! ### Heads and the end of an exchange (R160 to R176) -/

theorem loseHead (segment address : Nat) (h : Head) (s : State) : FansKept b p p s (loseHead segment address h s) :=
  (beside (by simp (disch := decide))).trans (headGone segment address _)

theorem missHead (segment address : Nat) (s : State) : FansKept b p p s (missHead segment address s) := by
  unfold Machine.missHead
  split
  · exact refl s
  · exact ite (loseHead _ _ _ s) (beside (by simp (disch := decide)))

theorem mismatchHead (segment address : Nat) (h : Head) (r : Response) (s : State) :
    FansKept b p p s (mismatchHead segment address h r s) :=
  ite (beside (by simp (disch := decide))) ((beside (by simp (disch := decide))).trans (headGone segment address _))

theorem lampReport (segment address : Nat) (wake : Bool) (payload : List Byte) (s : State) :
    FansKept b p p s (lampReport segment address wake payload s) := by
  unfold Machine.lampReport
  split
  · next level failed flags =>
    have reported (o : Option (Nat × LampGroup)) : FansKept b p p s
        (match o with | none => s | some (n, g) => groupReport n g level failed flags s) := by
      cases o with
      | none => exact refl s
      | some x => exact beside ((groupReport_frame (by decide) _ _ _ _ _).2 (.refl _ s))
    exact (reported _).trans (when (wakeEvent _ _ _))
  · exact refl s

/-- A report reaches the fans outside UNCONFIGURED alone, or the start limit is excused. -/
theorem handReport (segment address : Nat) (h : Head) (payload : List Byte) (bare : s.device = .unconfigured → b) :
    FansKept b p p s (handReport segment address h payload s) := by
  unfold Machine.handReport
  split
  · exact bayReport _ _ _ s
  · exact refl s
  · exact (loopReport _ _ _ s).trans (beside ((flipToggle_frame (by decide) _ _).2 (.refl _ _)))
  · exact fanReport _ _ _ bare
  · exact lampReport _ _ _ _ s
  · exact beside (by simp (disch := decide))

theorem answerHead (segment address : Nat) (r : Response) (bare : s.device = .unconfigured → b) :
    FansKept b p p s (answerHead segment address r s) := by
  unfold Machine.answerHead
  split
  · exact refl s
  · next h _ =>
    refine ite ?_ (mismatchHead _ _ _ _ s)
    have back : SameExcept [.heads, .sources] s (headBack segment address h
        (s.setHeads (s.heads.put (headKey segment address) (h.accepted s.partTime r)))) := by simp (disch := decide)
    exact (beside (back.mono (by decide))).trans
      (handReport _ _ _ _ fun e => bare (Eq.trans (back .device (by decide)).symm e))

/-- An exchange ends (R160). -/
theorem endExchange (segment : Nat) (x : Exchange) {settle : State → State}
    (h : ∀ u, u.device = s.device → FansKept b p p u (settle u)) : FansKept b p p s (endExchange segment x settle s) := by
  have freed : FansKept b p p s (s.freed segment) := FansKept.segment fun _ => rfl
  have polled (warming : Bool) (v : State) : FansKept b p p v (walked segment x warming v) :=
    (beside (t := warmPolled segment x warming v) (by simp (disch := decide))).trans
      (FansKept.segment fun none_ => (walkOn_exchange _ _ _).trans none_)
  rw [endExchange_eq]
  exact ite freed (((freed.trans (h _ rfl)).trans (polled _ _)).trans ((endWarming _).trans (endStarting _)))

end FansKept

end Sys2Proof.Machine
end

section
/-!
SUPPORT. What configuration and the two resets keep of the fan drive: zones, heads and fans that come, go and change (R15,
R16, R100, R117, R175), the start limit (R101), and RESTART and COLD_RESET (R118, R187).
-/
namespace Sys2Proof.Machine

variable {s t u : State} {n : Nat} {f g : Fan} {b : Prop}

theorem short_put_apart (wf : s.fans.wf = true) (found : s.fans.find n = some f) {z : Nat} (old : z ≠ f.zone)
    (new : z ≠ g.zone) : (s.setFans (s.fans.put n g)).short z = s.short z := by
  refine short_congr (t := s.setFans (s.fans.put n g)) wf (Table.wf_put wf n g) rfl fun m => ?_
  rw [State.setFans_fans, Table.find_put]
  split
  · next e => simp [e, found, Fan.shortens, old.symm, new.symm]
  · rfl

theorem startingCount_of_unreached (each : EachRecord (fun _ f => f.state = .unreached) s.fans) : startingCount s = 0 := by
  rw [startingCount, List.length_eq_zero_iff, List.filter_eq_nil_iff]
  exact fun q hq => by simp [each q hq]

theorem fresh_stands (head : HeadId) (zone : Nat) (assist : Option Nat) {st : FanState}
    (h : st = .unreached ∨ st = .lockedOut) : FanStands (Fan.fresh head zone assist st) := by
  rcases h with rfl | rfl <;> simp [FanStands, Fan.fresh]

theorem skipping_exchange (s : State) (address i : Nat) (todo : List Nat) (g : Segment) :
    (g.skipping s address i todo).exchange = g.exchange := by
  unfold Segment.skipping
  dsimp only
  split
  · exact walkOn_exchange _ _ _
  · rfl

theorem headAdded_exchange (s : State) (address i : Nat) (g : Segment) :
    (g.headAdded s address i).exchange = g.exchange := by
  unfold Segment.headAdded
  split
  · rfl
  · split
    · exact nextSweep_exchange _ _ _
    · exact nextSweep_exchange _ _ _
    · exact skipping_exchange _ _ _ _ _
    · rfl

theorem headRemoved_exchange (s : State) (address i : Nat) (g : Segment) :
    (g.headRemoved s address i).exchange = g.exchange.map (Exchange.drop address) := by
  unfold Segment.headRemoved
  dsimp only
  split
  · exact skipping_exchange _ _ _ _ _
  · split <;> rfl
  · rfl

theorem replaceZone_others (n : Nat) (z : Zone) (c : ZoneConfig) (s : State) {m : Nat} (ne : m ≠ n) :
    (replaceZone n z c s).zone m = s.zone m := by
  obtain ⟨x, zones, _⟩ := replaceZone_zones n z c s
  rw [State.zone, zones, Table.find_put, if_neg ne, ← State.zone]

theorem replaceZone_wf (n : Nat) (z : Zone) (c : ZoneConfig) (wf : s.zones.wf = true) :
    (replaceZone n z c s).zones.wf = true := by
  obtain ⟨x, zones, _⟩ := replaceZone_zones n z c s
  exact zones ▸ Table.wf_put wf _ _

/-! ### A soft restart (R118, R148) -/

theorem restarted_stands (f : Fan) : FanStands f.restarted := by
  unfold Fan.restarted
  split
  · exact fresh_stands _ _ _ (.inr rfl)
  · exact fresh_stands _ _ _ (.inl rfl)

theorem restarted_state (f : Fan) : f.restarted.state ≠ .starting := by
  unfold Fan.restarted
  split <;> nofun

/-- With no zone in fire and every demand step 0, every target is 0 (R104). -/
theorem fanTarget_of_rest (rest : ∀ z y, s.zone z = some y → y.fire ≠ .active ∧ y.demand = 0) (f : Fan) :
    fanTarget s f = 0 := by
  have demand (z : Nat) : s.demandOf z = 0 := by
    unfold State.demandOf
    split
    · rfl
    · next y hz => exact (rest z y hz).2
  have own (z : Nat) : s.ownStep z = 0 := by simp [State.ownStep, demand]
  have assisted : assistedStep s f = 0 := by
    unfold assistedStep
    split <;> simp [own, demand]
  unfold fanTarget
  split
  · exact assisted
  · next y hz => rw [if_neg (rest _ y hz).1, assisted]

theorem softRestart_zone_rest {z : Nat} {y : Zone} (hz : (softRestart s).zone z = some y) :
    y.fire ≠ .active ∧ y.demand = 0 := by
  rw [State.zone, softRestart_zones, Table.find_mapWith] at hz
  obtain ⟨x, _, rfl⟩ := Option.map_eq_some_iff.1 hz
  refine ⟨?_, rfl⟩
  show x.fire.restarted ≠ .active
  cases x.fire <;> nofun

namespace FansKept

variable {p q r : Set Seat}

/-! ### Zones (R15, R16, R18) -/

/-- One zone's record put or removed, its targets left to be settled. -/
theorem zoneMoved (frame : SameExcept (.zones :: besideFans) s t) (wf : s.zones.wf = true → t.zones.wf = true)
    (others : ∀ m, m ≠ n → t.zone m = s.zone m) : FansKept b p (p ∪ restingIn {z | z ∈ [n]}) s t :=
  drivenBy frame wf _ fun z out => by rw [State.drive, others z (by simpa using out), ← State.drive]

theorem settleZone (h : FansKept b p (p ∪ restingIn {z | z ∈ [n]}) s t) : FansKept b p p s (settleZone n t) :=
  ((settledBy h).trans (gated _)).trans (beside ((settleLampsOf_frame (by decide) _).2 (.refl _ _)))

theorem reconfigureZone (n : Nat) (z : Zone) (c : ZoneConfig) (s : State) :
    FansKept b p (p ∪ restingIn {z | z ∈ [n]}) s (replaceZone n z c s) :=
  zoneMoved ((replaceZone_frame (by decide) n z c).2 (.refl _ s)) (replaceZone_wf n z c) fun _ => replaceZone_others n z c s

/-- A configuration of the same fire role leaves every target (R104). -/
theorem replaceZone {z : Zone} {c : ZoneConfig} (hz : s.zone n = some z) (role : c.haltRole = z.config.haltRole) :
    FansKept b p p s (replaceZone n z c s) := by
  refine undriven ((replaceZone_frame (by decide) n z c).2 (.refl _ s)) (replaceZone_wf n z c) fun m => ?_
  by_cases own : m = n
  · obtain ⟨x, zones, _⟩ := replaceZone_zones n z c s
    rw [own, State.drive, State.drive, hz, State.zone, zones, Table.find_put, if_pos rfl]
    simp [Zone.drive, role]
  · rw [State.drive, replaceZone_others n z c s own, ← State.drive]

/-- A change of the fire role settles the demand step and the targets (R18, R102, R104). -/
theorem reflagZone (n : Nat) (z : Zone) (c : ZoneConfig) (s : State) :
    FansKept b p p s (Machine.settleZone n (Machine.settleDemand [n] (Machine.replaceZone n z c s))) :=
  settleZone ((reconfigureZone n z c s).trans (settleDemand _ _))

theorem setZoneConfig (n : Nat) (c : ZoneConfig) (s : State) : FansKept b p p s (setZoneConfig n c s) := by
  refine settleZone ?_
  split
  · refine zoneMoved ((addZone_frame (by decide) n c).2 (.refl _ s)) (fun wf => Table.wf_put wf _ _) fun m ne => ?_
    exact (Table.find_put _ _ _ _).trans (if_neg ne)
  · exact reconfigureZone n _ c s

theorem removeZone (n : Nat) (z : Zone) (s : State) : FansKept b p p s (removeZone n z s) := by
  refine settleZone (t := dropZone n z s) (zoneMoved (by simp (disch := decide) [dropZone]) (fun wf => Table.wf_del wf _)
    fun m ne => ?_)
  exact (Table.find_del _ _ _).trans (if_neg ne)

/-! ### Heads (R170, R175) -/

theorem configureHead (segment address : Nat) (kind : HeadKind) (wake : Bool) (s : State) :
    FansKept b p p s (configureHead segment address kind wake s) := by
  have stored (x : Head) : FansKept b p p s (s.setHeads (s.heads.put (headKey segment address) x)) :=
    beside (by simp (disch := decide))
  have warm (v : State) : FansKept b p p v (if v.device = .warming then joinWarmSet (headKey segment address) v else v) :=
    when (beside ((joinWarmSet_frame (by decide) _).2 (.refl _ _)))
  refine ((stored (Head.listed kind wake)).trans (headGone segment address _)).trans ((warm _).trans ?_)
  exact (FansKept.segment fun none_ => (headAdded_exchange _ _ _ _).trans none_).trans (endStarting _)

theorem removeHead (segment address : Nat) (s : State) : FansKept b p p s (removeHead segment address s) := by
  have removed : FansKept b p p s
      (leaveWarmSet (headKey segment address) (s.setHeads (s.heads.del (headKey segment address)))) :=
    beside (by simp (disch := decide))
  refine (removed.trans (FansKept.segment fun none_ => ?_)).trans ((endWarming _).trans (endStarting _))
  rw [headRemoved_exchange, none_]
  rfl

theorem loseLate (s : State) (key : Nat) : FansKept b p p s (loseLate s key) := by
  unfold Machine.loseLate
  split
  · exact refl s
  · exact when (loseHead _ _ _ s)

theorem setLost (v : Nat) (s : State) : FansKept b p p s (setLost v s) := by
  have set : FansKept b p p s (s.setLostTime v) := beside (by simp (disch := decide))
  exact ite (set.trans (foldl loseLate _ _)) set

/-! ### Fans (R100, R117) -/

/-- A fan that takes another zone or assist zone, its target left to be settled. -/
theorem reseated {zs : Set Nat} (found : s.fans.find n = some f) (state : g.state = f.state)
    (stands : FanStands f → FanStands g)
    (short : s.fans.wf = true → ∀ z ∉ zs, (s.setFans (s.fans.put n g)).short z = s.short z) :
    FansKept b p (p ∪ numbered n ∪ restingIn zs) s (s.setFans (s.fans.put n g)) := by
  refine put (Set.union_subset_union_left _ Set.subset_union_left) (fun _ hs => ⟨?_, fun bare => ?_⟩)
    (fun hs => stands (hs.of_find found)) short fun _ out => absurd (.inl (.inr rfl)) out
  · exact (startingCount_put hs.canonical found fun st => state.symm.trans st).trans hs.within
  · exact state.trans ((hs.unreached bare).of_find found)

theorem settleFan (h : FansKept b p (p ∪ numbered n) s t) : FansKept b p p s (Machine.gate (Machine.retargetFan n t)) :=
  ((h.trans (retargetFan n t)).widen (by rw [Set.union_sdiff_right]; exact Set.sdiff_subset)).trans (gated _)

theorem reassist (found : s.fans.find n = some f) (v : Option Nat) :
    FansKept b p p s (Machine.gate (Machine.retargetFan n (s.setFans (s.fans.put n { f with assist := v })))) := by
  refine settleFan (widen (reseated (g := { f with assist := v }) (zs := ∅) found rfl id fun wf z _ =>
    short_put (g := { f with assist := v }) wf found rfl fun _ => rfl) ?_)
  rw [restingIn_empty, Set.union_empty]

theorem rezone (found : s.fans.find n = some f) (v : Nat) :
    FansKept b p p s (Machine.gate (Machine.retargetFan n
      (changeFans [f.zone, v] (fun s => s.setFans (s.fans.put n { f with zone := v })) s))) := by
  refine settleFan ((settledBy (reseated (g := { f with zone := v }) found rfl id fun wf z out => ?_)).trans (gated _))
  by_cases named : z ∈ [f.zone, v]
  · by_contra moved
    exact out (List.mem_filter.2 ⟨named, by simpa using moved⟩)
  · exact short_put_apart wf found (fun e => named (by simp [e])) fun e => named (by simp [e])

theorem changeFans {k : State → State} (zs : List Nat) (h : FansKept b p q s (k s)) :
    FansKept b p q s (changeFans zs k s) := (h.trans (retargetZones_again _ _)).trans (gated _)

/-- A fan configured in UNCONFIGURED, its target left unsettled. -/
theorem putFresh (bare : s.device = .unconfigured) (head : HeadId) (zone : Nat) (assist : Option Nat) :
    FansKept b p Set.univ s (s.setFans (s.fans.put n (Fan.fresh head zone assist .unreached))) := by
  refine put (zs := Set.univ) (Set.subset_univ _) (fun _ hs => ⟨?_, fun _ => rfl⟩) (fun _ => fresh_stands _ _ _ (.inl rfl))
    (fun _ _ out => absurd trivial out) fun _ out => absurd trivial out
  have each := (hs.unreached bare).put (n := n) (x := Fan.fresh head zone assist .unreached) rfl
  rw [startingCount_of_unreached (s := s.setFans _) each]
  exact Nat.zero_le _

/-- A fan removed in UNCONFIGURED. -/
theorem dropFan (bare : s.device = .unconfigured) (n : Nat) : FansKept b p Set.univ s (s.setFans (s.fans.del n)) := by
  refine ⟨fun _ hs => ?_, fun hs => ?_, fun hs => ?_⟩
  · obtain ⟨canonical, _, idle⟩ := hs
    obtain ⟨each, none_⟩ := idle bare
    have left : EachRecord (fun _ f => f.state = .unreached) (s.fans.del n) := fun q hq => each q (Table.mem_del hq)
    refine ⟨Table.wf_del canonical n, ?_, fun _ => ⟨left, none_⟩⟩
    rw [startingCount_of_unreached (s := s.setFans _) left]
    exact Nat.zero_le _
  · obtain ⟨canonical, each⟩ := hs
    exact ⟨Table.wf_del canonical n, fun q hq => each q (Table.mem_del hq)⟩
  · obtain ⟨zones, canonical, _⟩ := hs
    exact onTargetBut_univ.2 ⟨zones, Table.wf_del canonical n⟩

/-! ### The settings of the fan drive (R101) -/

theorem settings {c : FanSettings} (limit : ¬b → StartGateHolds s → startingCount s ≤ c.startLimit) :
    FansKept b p p s (s.setFanSettings c) where
  gate nb hs := ⟨hs.canonical, limit nb hs, fun bare => ⟨hs.unreached bare, hs.noExchange bare⟩⟩
  stand hs := hs
  target hs := by
    obtain ⟨zones, canonical, target⟩ := hs
    exact ⟨zones, canonical, target⟩

/-! ### The two resets (R118, R187) -/

/-- A soft restart leaves every fan down with target 0, no zone in fire and every demand step 0 (R118, R148). -/
theorem softRestart (s : State) : FansKept b p q s (softRestart s) := by
  have fans : (Machine.softRestart s).fans = s.fans.mapWith fun _ f => f.restarted := softRestart_frame s .fans (by decide)
  have device := softRestart_device s
  refine ⟨fun _ hs => ⟨?_, ?_, fun bare => ?_⟩, fun hs => ⟨?_, ?_⟩, fun hs => ⟨?_, ?_, ?_⟩⟩
  · exact fans ▸ Table.wf_mapWith hs.canonical _
  · have none_ : startingCount (Machine.softRestart s) = 0 := by
      rw [startingCount, fans, List.length_eq_zero_iff, List.filter_eq_nil_iff]
      intro x hx
      obtain ⟨y, _, rfl⟩ := List.mem_map.1 hx
      simpa using restarted_state y.2
    rw [none_]
    exact Nat.zero_le _
  · rw [device] at bare
    cases bare
  · exact fans ▸ Table.wf_mapWith hs.canonical _
  · rw [fans, EachRecord.mapWith_iff]
    exact fun x _ => restarted_stands x.2
  · rw [softRestart_zones]
    exact Table.wf_mapWith hs.1 _
  · exact fans ▸ Table.wf_mapWith hs.canonical _
  · rw [fans, EachRecord.mapWith_iff]
    exact fun x _ _ => (fanTarget_of_rest (fun _ _ => softRestart_zone_rest) _).symm

/-- A cold reset leaves no fan, no zone and no exchange (R187). -/
theorem coldReset (cause : ColdCause) (s : State) : FansKept b p q s (coldReset cause s) := by
  have empty (x : Nat → Fan → Prop) : EachRecord x State.reset.fans := fun _ h => absurd h List.not_mem_nil
  have cleared : FansKept b p q State.reset (Machine.coldReset cause s) :=
    (beside (p := p) (by simp (disch := decide) [Machine.coldReset])).trans
      ⟨fun _ => id, id, fun hs => ⟨rfl, rfl, fun _ h => absurd h List.not_mem_nil⟩⟩
  exact ⟨fun nb _ => cleared.gate nb ⟨rfl, Nat.zero_le _, fun _ => ⟨empty _, reset_noExchange⟩⟩,
    fun _ => cleared.stand ⟨rfl, empty _⟩, fun _ => cleared.target ⟨rfl, rfl, empty _⟩⟩

end FansKept

end Sys2Proof.Machine
end

section
/-!
SUPPORT. Every request keeps the start limit, every fan standing and every target, but that a CONFIGURE of a fan leaves its
target as the configuration sets it (R183; log entry 20).
-/
namespace Sys2Proof.Machine

variable {s t u : State} {b : Prop} {p q : Set Seat}

/-- What the accepted cases of a serving rule keep of the fan drive. -/
abbrev ServesFans (b : Prop) (p q : Set Seat) (s : State) : Check Served → Prop := Gives fun x => FansKept b p q s x.2

/-- The accepted cases of a serving rule write beside the fan drive. -/
abbrev LeavesFans (s : State) : Check Served → Prop := Gives fun x => SameExcept besideFans s x.2

theorem LeavesFans.serves {c : Check Served} (h : LeavesFans s c) : ServesFans b p p s c := fun x hx => .beside (h x hx)

theorem FansKept.served {c : Check Served} (sub : p ⊆ q) (h : ServesFans b p q s c) : FansKept b p q s (served s c).2 := by
  cases c with
  | error r => exact (FansKept.refl s).widen sub
  | ok x => exact h x rfl

theorem FansKept.serves {c : Check Served} (h : ServesFans b p p s c) : FansKept b p p s (Machine.served s c).2 :=
  .served .rfl h

/-! ### AMEND (R183) -/

theorem amendZone_fans (client : Nat) (body : List Byte) : ServesFans b p p s (amendZone client body s) := by
  refine Gives.bind fun ⟨n, body⟩ _ => Gives.bind fun z hz => Gives.bind fun ⟨field, body⟩ _ => ?_
  have replaced (c : ZoneConfig) (role : c.haltRole = z.config.haltRole) : FansKept b p p s (replaceZone n z c s) :=
    .replaceZone (needZone_ok hz).2 role
  have flags (c : ZoneConfig) : FansKept b p p s (if c.haltRole = z.config.haltRole then replaceZone n z c s
      else settleZone n (settleDemand [n] (replaceZone n z c s))) := by
    split
    · next role => exact replaced c role
    · exact .reflagZone n z c s
  dsimp only
  split <;> simp [amendStructure, amendAirHeads, amendSetting, amendNumber, amendZoneFlags, notAmendable, replaced, flags]

theorem amendBay_fans (client : Nat) (body : List Byte) : ServesFans b p p s (amendBay client body s) := by
  refine Gives.bind fun ⟨_, body⟩ _ => Gives.bind fun ⟨g, x⟩ _ => Gives.bind fun ⟨field, body⟩ _ => ?_
  dsimp only
  split <;> simp [amendLocked, amendBayKind, amendBinding, amendOccupancy, notAmendable, FansKept.changeBay, FansKept.hostSet]

theorem amendLanePoller_fans (client : Nat) (body : List Byte) : ServesFans b p p s (amendLanePoller client body s) := by
  refine Gives.bind fun ⟨field, body⟩ _ => ?_
  dsimp only
  split <;> simp [amendNumber, notAmendable, FansKept.setLost]

theorem amendHead_fans (client : Nat) (body : List Byte) : ServesFans b p p s (amendHead client body s) := by
  have put (l : Table Head) : FansKept b p p s (s.setHeads l) := .beside (by simp (disch := decide))
  refine Gives.bind fun ⟨id, body⟩ _ => Gives.bind fun h _ => Gives.bind fun ⟨field, body⟩ _ => ?_
  dsimp only
  split <;> simp [amendHeadWake, amendHeadKind, notAmendable, put, FansKept.configureHead]

/-- A lockout cleared, another assist zone, another head and another zone (R112, R117). -/
theorem fanField_fans {client n : Nat} {f : Fan} (found : s.fans.find n = some f) (body : List Byte) :
    Gives (FansKept b p p s) (fanField client n f body s).2 := by
  unfold fanField
  split
  · refine Gives.bind fun _ _ => Gives.bind fun _ _ => Gives.bind fun ⟨_, _⟩ _ => Gives.bind fun _ _ =>
      Gives.bind fun _ locked => Gives.pure (.putFan found (unlocked_moved f _ _ _) fun _ _ st => ?_)
    have locked : f.state = .lockedOut := of_decide_eq_true (require_ok.1 locked)
    cases locked.symm.trans st
  · exact Gives.bind fun _ _ => Gives.bind fun ⟨_, _⟩ _ => Gives.bind fun _ _ => Gives.bind fun _ _ =>
      Gives.bind fun _ _ => Gives.pure (.reassist found _)
  · exact Gives.bind fun _ _ => Gives.bind fun _ _ => Gives.bind fun ⟨v, _⟩ _ => Gives.bind fun _ _ =>
      Gives.pure (.putStanding found ⟨rfl, rfl, rfl, id, id⟩ rfl)
  · exact Gives.bind fun _ _ => Gives.bind fun _ _ => Gives.bind fun ⟨_, _⟩ _ => Gives.bind fun _ _ =>
      Gives.pure (.rezone found _)
  · exact Gives.error _

theorem amendFan_fans (client : Nat) (body : List Byte) : ServesFans b p p s (amendFan client body s) := by
  refine Gives.bind fun ⟨n, body⟩ _ => Gives.bind fun f hf => Gives.pure ?_
  have changed := fanField_fans (b := b) (p := p) (client := client) (needRecord_ok hf).2 body
  generalize (fanField client n f body s).2 = c at changed
  cases c with
  | error r => exact .refl s
  | ok t => exact changed t rfl

/-- The start limit is not set below the number of fans that are STARTING (R101). -/
theorem amendFanDrive_fans (client : Nat) (body : List Byte) : ServesFans b p p s (amendFanDrive client body s) := by
  have times (c : FanSettings) (limit : c.startLimit = s.fanSettings.startLimit) : FansKept b p p s (s.setFanSettings c) :=
    .settings fun _ hs => limit ▸ hs.within
  refine Gives.bind fun ⟨field, body⟩ _ => ?_
  dsimp only
  split
  · refine Gives.bind fun _ _ => Gives.bind fun ⟨v, _⟩ _ => Gives.bind fun _ room => Gives.pure ?_
    exact (FansKept.settings fun _ _ => of_decide_eq_true (require_ok.1 room)).trans (.gated _)
  · simp [amendNumber, times]
  · simp [amendNumber, times]
  · exact Gives.error _

theorem lampField_fans (client n : Nat) (g : LampGroup) (body : List Byte) :
    Gives (fun x => SameExcept besideFans s x.2) (lampField client n g body s).2 := by
  unfold lampField
  split <;> simp (disch := decide) [amendGuard, amendLow, amendHoldTime, amendLampFlags, amendLampHead, amendLampZone]

theorem amendLamp_fans (client : Nat) (body : List Byte) : LeavesFans s (amendLamp client body s) := by
  refine Gives.bind fun ⟨n, body⟩ _ => Gives.bind fun g _ => ?_
  have changed := lampField_fans (s := s) client n g body
  dsimp only
  split
  · next c t hc => exact Gives.pure (changed _ hc)
  · exact Gives.pure (.refl _ s)

theorem setClientLevel_fans (slot level : Nat) (s : State) : LeavesFans s (setClientLevel slot level s) := by
  simp (disch := decide) [setClientLevel]

theorem setSource_fans (n level : Nat) (enabled : Bool) (s : State) : LeavesFans s (setSource n level enabled s) := by
  simp (disch := decide) [setSource]

/-- Passages, signs, patterns, clients and the attention sources lie beside the fan drive. -/
theorem amendRecords_fans (client : Nat) (body : List Byte) :
    LeavesFans s (amendPassage client body s) ∧ LeavesFans s (amendSign client body s) ∧
      LeavesFans s (amendPattern client body s) ∧ LeavesFans s (amendClient client body s) ∧
      LeavesFans s (amendAttention client body s) := by
  refine ⟨?_, ?_, ?_, ?_, ?_⟩
  · refine Gives.bind fun ⟨n, body⟩ _ => Gives.bind fun x _ => Gives.bind fun ⟨field, body⟩ _ => ?_
    dsimp only
    split <;> simp (disch := decide) [amendPreference, amendPassageWake, amendPassageNumber, amendNumber,
      amendPassageStructure, setPassageConfig, notAmendable]
  · refine Gives.bind fun ⟨n, body⟩ _ => Gives.bind fun r _ => Gives.bind fun ⟨field, body⟩ _ => ?_
    dsimp only
    split <;> simp (disch := decide) [amendSignField, amendNumber, setSignConfig, notAmendable]
  · refine Gives.bind fun ⟨code, body⟩ _ => Gives.bind fun _ _ => Gives.bind fun ⟨field, body⟩ _ => ?_
    dsimp only
    split <;> simp (disch := decide) [setPattern, notAmendable]
  · refine Gives.bind fun _ _ => Gives.bind fun ⟨slot, body⟩ _ => Gives.bind fun _ _ => Gives.bind fun ⟨field, body⟩ _ => ?_
    dsimp only
    split <;> simp [setClientLevel_fans, notAmendable]
  · refine Gives.bind fun ⟨n, body⟩ _ => Gives.bind fun _ _ => Gives.bind fun ⟨field, body⟩ _ => ?_
    dsimp only
    split <;> simp [setSource_fans, notAmendable]

/-- The settings records of the other blocks lie beside the fan drive. -/
theorem amendSettings_fans (client : Nat) (body : List Byte) :
    LeavesFans s (amendBaySettings client body s) ∧ LeavesFans s (amendPassageSettings client body s) ∧
      LeavesFans s (amendLampControl client body s) ∧ LeavesFans s (amendQuiet client body s) ∧
      LeavesFans s (amendEvaluator client body s) := by
  refine ⟨?_, ?_, ?_, ?_, by simp (disch := decide) [amendEvaluator]⟩
  all_goals
    refine Gives.bind fun ⟨field, body⟩ _ => ?_
    dsimp only
    split <;> simp (disch := decide) [amendNumber, amendLimit, notAmendable]

theorem serveAmend_fans (client : Nat) (body : List Byte) (s : State) : FansKept b p p s (serveAmend client body s).2 := by
  refine .serves (Gives.bind fun ⟨cls, body⟩ _ => ?_)
  obtain ⟨passage, sign, pattern, clients, attention⟩ := amendRecords_fans (s := s) client body
  obtain ⟨bays, limits, lamps, quiet, evaluator⟩ := amendSettings_fans (s := s) client body
  dsimp only
  unfold amendClass
  split
  · exact amendZone_fans _ _
  · exact amendBay_fans _ _
  · exact bays.serves
  · simp [amendSteer, notAmendable]
  · exact Gives.error _
  · exact passage.serves
  · exact limits.serves
  · exact sign.serves
  · exact pattern.serves
  · exact evaluator.serves
  · exact amendFan_fans _ _
  · exact amendFanDrive_fans _ _
  · exact (amendLamp_fans _ _).serves
  · exact lamps.serves
  · simp [amendStack, notAmendable]
  · exact Gives.error _
  · exact quiet.serves
  · exact amendHead_fans _ _
  · exact amendLanePoller_fans _ _
  · exact clients.serves
  · exact attention.serves
  · exact Gives.error _

end Sys2Proof.Machine
end

section
/-!
SUPPORT. CONFIGURE, every other request, every event and so every step keep the start limit, every fan standing and every
target (R103 to R118), and O45.
-/
namespace Sys2Proof.Machine

variable {s t u : State} {b : Prop} {p q : Set Seat}

/-! ### CONFIGURE (R183) -/

theorem configureZone_fans (body : List Byte) : ServesFans b p p s (configureZone body s) := by
  simp [configureZone, FansKept.removeZone, FansKept.setZoneConfig]

theorem configureBay_fans (body : List Byte) : ServesFans b p p s (configureBay body s) := by
  simp [configureBay, FansKept.changeBay]

theorem configureHeadRecord_fans (body : List Byte) : ServesFans b p p s (configureHeadRecord body s) := by
  simp [configureHeadRecord, FansKept.removeHead, FansKept.configureHead]

/-- A fan configured or removed leaves its target unsettled (R100; log entry 20). -/
theorem configureFan_fans (excused : s.device = .unconfigured → q = Set.univ) (body : List Byte) :
    ServesFans b p q s (configureFan body s) := by
  refine Gives.bind fun ⟨n, body⟩ _ => Gives.bind fun _ hdev => Gives.bind fun _ _ => ?_
  have bare := needUnconfigured_ok hdev
  rw [excused bare]
  refine Gives.ite (fun _ => Gives.bind fun f _ => Gives.pure ?_) fun _ =>
    Gives.bind fun ⟨⟨head, zone, assist⟩, _⟩ _ => Gives.bind fun _ _ => Gives.pure ?_
  · exact .changeFans (k := fun s => s.setFans (s.fans.del n)) _ (.dropFan bare n)
  · exact .changeFans (k := fun s => takeUpFire (s.setFans (s.fans.put n (Fan.fresh head zone assist .unreached)))) _
      ((FansKept.putFresh bare head zone assist).trans (.takeUpFire _))

theorem configureFanDrive_fans (body : List Byte) : ServesFans b p p s (configureFanDrive body s) := by
  refine Gives.bind fun _ hdev => Gives.bind fun ⟨_, _⟩ _ => Gives.bind fun ⟨_, _⟩ _ => Gives.bind fun ⟨_, _⟩ _ =>
    Gives.pure (.settings fun _ hs => ?_)
  rw [startingCount_of_unreached (hs.unreached (needUnconfigured_ok hdev))]
  exact Nat.zero_le _

theorem setPatterns_fans (l : List (Nat × Pattern)) (s : State) :
    SameExcept besideFans s (l.foldl (fun s e => setPattern e.1 e.2 s) s) :=
  SameExcept.foldl (fun s e => by simp (disch := decide) [setPattern]) l s

/-- Every other CONFIGURE lies beside the fan drive. -/
theorem configureOthers_fans (client : Nat) (body : List Byte) :
    (LeavesFans s (configureBaySettings body s) ∧ LeavesFans s (configurePassage body s) ∧
      LeavesFans s (configurePassageSettings body s) ∧ LeavesFans s (configureSign body s)) ∧
      (LeavesFans s (configurePatterns body s) ∧ LeavesFans s (configureEvaluator body s) ∧
        LeavesFans s (configureLamp body s) ∧ LeavesFans s (configureLampControl body s)) ∧
      (LeavesFans s (configureQuiet body s) ∧ LeavesFans s (configureLanePoller body s)) ∧
      LeavesFans s (configureClient client body s) ∧ LeavesFans s (configureAttention body s) := by
  refine ⟨⟨?_, ?_, ?_, ?_⟩, ⟨?_, ?_, ?_, ?_⟩, ⟨?_, ?_⟩, ?_, ?_⟩
  all_goals simp (disch := decide) [configureBaySettings, configurePassage, configurePassageSettings, configureSign,
    configurePatterns, setPatterns_fans, configureEvaluator, configureLamp, configureLampControl, configureQuiet,
    configureLanePoller, configureClient, setClientLevel_fans, configureAttention, setSource_fans]

theorem serveConfigure_fans (sub : p ⊆ q) (excused : s.device = .unconfigured → q = Set.univ) (client : Nat)
    (body : List Byte) : FansKept b p q s (serveConfigure client body s).2 := by
  refine .served sub (Gives.bind fun ⟨cls, body⟩ _ => ?_)
  obtain ⟨⟨bays, passage, limits, sign⟩, ⟨patterns, evaluator, lamp, lamps⟩, ⟨quiet, poller⟩, clients, attention⟩ :=
    configureOthers_fans (s := s) client body
  have kept {c : Check Served} (h : ServesFans b p p s c) : ServesFans b p q s c := fun x hx => (h x hx).widen sub
  dsimp only
  unfold configureClass
  split
  · exact kept (configureZone_fans _)
  · exact kept (configureBay_fans _)
  · exact kept bays.serves
  · exact kept passage.serves
  · exact kept limits.serves
  · exact kept sign.serves
  · exact kept patterns.serves
  · exact kept evaluator.serves
  · exact configureFan_fans excused _
  · exact kept (configureFanDrive_fans _)
  · exact kept lamp.serves
  · exact kept lamps.serves
  · exact kept quiet.serves
  · exact kept (configureHeadRecord_fans _)
  · exact kept poller.serves
  · exact kept clients.serves
  · exact kept attention.serves
  · exact Gives.error _

/-! ### Holds and steers (R36 to R66) -/

namespace FansKept

theorem retireSteer (id : Nat) (o : SteerOutcome) (s : State) : FansKept b p p s (retireSteer id o s) :=
  minors (retireSteer_minors id o s) ((retireSteer_frame (by decide) id o).2 (.refl _ s))

theorem makeHold (g : Nat) (x : Hold) (s : State) : FansKept b p p s (makeHold g x s) :=
  minors (makeHold_minors g x s) ((makeHold_frame (by decide) g x).2 (.refl _ s))

theorem renewHold (g : Nat) (h : Nat × Nat) (x : Hold) (s : State) : FansKept b p p s (renewHold g h x s) :=
  (changeBay g _ s).trans (beside ((renewSteer_frame (by decide) _ _).2 (.refl _ _)))

theorem takeSlot {id : Nat} (h : takeSlot s = some (id, t)) : FansKept b p p s t := by
  unfold Machine.takeSlot at h
  repeat' split at h
  all_goals cases h
  · exact .refl s
  · exact .retireSteer _ _ s

theorem issueSteer (id : Nat) (x : Steer) (s : State) : FansKept b p p s (issueSteer id x s) := by
  have stored : FansKept b p p s (s.setSteers (s.steers.put id x)) := beside (by simp (disch := decide))
  refine ite (c := x.plain = true) (stored.trans ?_) stored
  exact zones (by simp (disch := decide) [transitUp]) (State.setZones_zones _ _) fun n z => by split <;> rfl

theorem issueKiosk (client p' : Nat) (f : SteerFields) (z id : Nat) (s : State) :
    FansKept b p p s (issueKiosk client p' f z id s).2 := by
  have issued (x : Steer) (v : State) : FansKept b p p v (afterSteer p' z (Machine.issueSteer id x v)) :=
    (issueSteer id x v).trans (beside ((afterSteer_frame (by decide) _ _).2 (.refl _ _)))
  unfold Machine.issueKiosk
  dsimp only
  split
  · next h =>
    obtain ⟨r, _, _, _, _, _, rfl⟩ := steerHold_some h
    exact (makeHold _ _ s).trans (issued _ _)
  · exact issued _ s

theorem cancelSteer (id : Nat) (x : Steer) (s : State) : FansKept b p p s (cancelSteer id x s) := by
  unfold Machine.cancelSteer
  split
  · exact retireSteer _ _ s
  · split
    · exact retireSteer _ _ s
    · exact changeBayEnding _ _ _ s

end FansKept

theorem claimBay_fans (z i g : Nat) (x : Bay) (h : Hold) (s : State) :
    Gives (fun y => FansKept b p p s y.2) (claimBay z i g x h s) := by
  unfold claimBay
  dsimp only
  split
  · exact Gives.ite (fun _ => Gives.ite (fun _ => Gives.accepted (.makeHold _ _ s)) fun _ => Gives.error _) fun _ =>
      Gives.accepted (.refl s)
  · split
    · exact Gives.ite (fun _ => Gives.accepted (.renewHold _ _ _ s)) fun _ => Gives.accepted (.refl s)
    · exact Gives.accepted (.refl s)
  · exact Gives.accepted (.refl s)
  · exact Gives.accepted (.refl s)

theorem claimAny_fans (r : Zone) (k : BayKind) (level : Nat) (x : Hold) (s : State) :
    Gives (fun y => FansKept b p p s y.2) (claimAny r k level x s) := by
  unfold claimAny
  split
  · exact Gives.ite (fun _ => Gives.accepted (.makeHold _ _ s)) fun _ => Gives.error _
  · exact Gives.accepted (.refl s)

theorem serveClaim_fans (client : Nat) (body : List Byte) (s : State) : FansKept b p p s (serveClaim client body s).2 := by
  refine .serves (Gives.bind fun _ _ => Gives.bind fun _ _ => Gives.bind fun ⟨_, _⟩ _ => Gives.bind fun _ _ =>
    Gives.bind fun ⟨_, _⟩ _ => Gives.bind fun a _ => Gives.bind fun ⟨⟨_, _⟩, _⟩ _ => Gives.bind fun _ _ =>
      Gives.bind fun ⟨c, t⟩ hc => Gives.pure ?_)
  cases a with
  | bay i g x => exact claimBay_fans _ _ _ _ _ s _ hc
  | anyOf k => exact claimAny_fans _ _ _ _ s _ hc

theorem serveRelease_fans (client : Nat) (body : List Byte) (s : State) :
    FansKept b p p s (serveRelease client body s).2 := by
  refine .serves ?_
  simp [FansKept.changeBayEnding]

theorem serveRetire_fans (client : Nat) (body : List Byte) (s : State) : FansKept b p p s (serveRetire client body s).2 := by
  refine .serves ?_
  simp [FansKept.refl, FansKept.changeBayEnding]

theorem serveCommission_fans (client : Nat) (body : List Byte) (s : State) :
    FansKept b p p s (serveCommission client body s).2 := by
  refine .serves ?_
  simp [FansKept.refl, FansKept.changeBay]

theorem serveSteer_fans (client : Nat) (body : List Byte) (s : State) : FansKept b p p s (serveSteer client body s).2 := by
  have full (n : Nat) (r : Passage) : FansKept b p p s (steerFull n r s).2 := .beside (by simp (disch := decide) [steerFull])
  refine .serves (Gives.bind fun _ _ => Gives.bind fun ⟨n, _⟩ _ => Gives.bind fun r _ =>
    Gives.bind fun _ _ => Gives.bind fun ⟨f, _⟩ _ => ?_)
  dsimp only
  split
  · exact Gives.pure (full _ _)
  · split
    · exact Gives.pure (full _ _)
    · next id v hslot => exact Gives.pure ((FansKept.takeSlot hslot).trans (.issueKiosk _ _ _ _ _ v))

theorem serveCancelSteer_fans (client : Nat) (body : List Byte) (s : State) :
    FansKept b p p s (serveCancelSteer client body s).2 :=
  .serves (Gives.bind fun ⟨_, _⟩ _ => Gives.bind fun _ _ => Gives.pure (.cancelSteer _ _ s))

/-! ### The other requests -/

theorem servePush_fans (client : Nat) (body : List Byte) (s : State) : FansKept b p p s (servePush client body s).2 := by
  refine .serves ?_
  simp [FansKept.changeStack]

theorem servePop_fans (client : Nat) (body : List Byte) (s : State) : FansKept b p p s (servePop client body s).2 := by
  refine .serves ?_
  simp [FansKept.changeStack]

theorem serveDeclareFire_fans (client : Nat) (body : List Byte) (s : State) :
    FansKept b p p s (serveDeclareFire client body s).2 :=
  .serves (Gives.bind fun _ _ => Gives.pure ((FansKept.moveFire _ _ s).trans (.wakeEvent _ _ _)))

theorem serveClearFire_fans (client : Nat) (body : List Byte) (s : State) :
    FansKept b p p s (serveClearFire client body s).2 :=
  .serves (Gives.bind fun _ _ => Gives.pure (.moveFire _ _ s))

theorem serveQuiet_fans (client : Nat) (body : List Byte) (s : State) : FansKept b p p s (serveQuiet client body s).2 :=
  .serves (Gives.bind fun ⟨_, _⟩ _ => Gives.bind fun _ _ => Gives.bind fun _ _ => Gives.bind fun _ _ =>
    Gives.bind fun _ _ => Gives.bind fun _ _ => Gives.pure (.takeQuiet _ s))

theorem serveWake_fans (client : Nat) (body : List Byte) (s : State) : FansKept b p p s (serveWake client body s).2 := by
  unfold serveWake
  split
  · exact .wakeEvent _ _ s
  · exact .refl s
  · exact .refl s

theorem serveFetch_fans (client : Nat) (body : List Byte) (s : State) : FansKept b p p s (serveFetch client body s).2 := by
  unfold serveFetch
  split
  · exact .refl s
  · exact .beside (by simp (disch := decide))

theorem serveGo_fans (client : Nat) (body : List Byte) (s : State) : FansKept b p p s (serveGo client body s).2 := by
  unfold serveGo
  split
  · exact .refl s
  · split
    · exact .refl s
    · exact .start s

theorem serveRestart_fans (client : Nat) (body : List Byte) (s : State) :
    FansKept b p p s (serveRestart client body s).2 := by
  unfold serveRestart
  split
  · exact .refl s
  · exact .softRestart s

/-- A request keeps what its serving rule keeps: reading a frame and answering one write the two buffers alone (R179). -/
theorem FansKept.request {m : Option Nat} {rule : Rule} {c : Byte} {g : Half} {l : List Byte} (sub : p ⊆ q)
    (h : FansKept b p q (received l s) (rule c.toNat l (received l s)).2) : FansKept b p q s (request m rule c g l s) := by
  have answered (r : Reply) (v : State) : FansKept b p p v (respond g r v) := .beside (by simp (disch := decide))
  have replied (r : Reply) (v : State) : FansKept b q q v (respond g r v) := .beside (by simp (disch := decide))
  have read : FansKept b p p s (received l s) := .beside (by simp (disch := decide))
  unfold Machine.request
  split
  · exact (FansKept.beside ((readOut_frame (by decide) _ _).2 (.refl _ s))).widen sub
  · exact .ite (read.widen sub) (.ite ((read.trans (answered _ _)).widen sub)
      (.ite ((read.trans (answered _ _)).widen sub) ((read.trans h).trans (replied _ _))))

/-! ### The events -/

theorem quietInChange_fans (asserted : Bool) (s : State) :
    FansKept b p p s (if asserted = s.quiet.line then s else if asserted then quietInRises s else quietInFalls s) := by
  have line (x : Quiet) : FansKept b p p s (s.setQuiet x) := .beside (by simp (disch := decide))
  refine .ite (.refl s) (.ite ?_ ?_)
  · unfold quietInRises
    dsimp only
    split
    · exact (line _).trans (.beside ((raiseQuietChange_frame (by decide) _ _).2 (.refl _ _)))
    · exact line _
  · unfold quietInFalls
    dsimp only
    split
    · exact (line _).trans (.wakeEvent _ _ _)
    · exact line _

theorem startEnds_fans {n : Nat} (h : exec (.startEnds n) s = .next t) : FansKept b p p s t := by
  cases h
  split
  · exact .refl s
  · next f found =>
    split
    · next due =>
      have starting : f.state = .starting := of_decide_eq_true (Bool.and_eq_true_iff.1 due).1
      exact .putFan found (endStart_moved starting _ _) fun _ _ st => nomatch starting.symm.trans st
    · exact .refl s

theorem rundownEnds_fans {n : Nat} (h : exec (.rundownEnds n) s = .next t) : FansKept b p p s t := by
  cases h
  split
  · exact .refl s
  · next f found =>
    split
    · next due =>
      have rundown : f.state = .rundown := of_decide_eq_true (Bool.and_eq_true_iff.1 due).1
      exact .putFan found (endRundown_moved rundown _) fun _ _ st => nomatch rundown.symm.trans st
    · exact .refl s

theorem stackEntryExpiry_fans {zone position : Nat} (h : exec (.stackEntryExpiry zone position) s = .next t) :
    FansKept b p p s t := by
  cases h
  split
  · exact .refl s
  · split
    · exact .refl s
    · split
      · exact .refl s
      · exact .when ((FansKept.changeStack _ _ _ s).trans (.raise _ _ _ _))

/-- A poll begins an exchange outside UNCONFIGURED alone (R166). -/
theorem pollBuild_fans {i : Nat} (h : exec (.pollBuild i) s = .next t) : FansKept b p p s t := by
  cases h
  split
  · exact .refl s
  · next busy =>
    have configured : s.device ≠ .unconfigured := fun bare => busy (by simp [bare])
    have frame : SameExcept [.heads, .segments, .signs] s (pollNext i s) := (pollNext_frame (by decide) i).2 (.refl _ s)
    exact .entered (frame.mono (by decide)) (by rwa [show (pollNext i s).device = s.device from frame .device (by decide)])

/-- An exchange in flight says that the device is not UNCONFIGURED, so the start limit need not be excused. -/
theorem FansKept.ofExchange {i : Nat} {x : Exchange} (flight : (s.segment i).exchange = some x)
    (h : FansKept (s.device = .unconfigured) p q s t) : FansKept b p q s t where
  gate _ hs := h.gate (fun bare => nomatch flight.symm.trans (hs.noExchange bare i)) hs
  stand := h.stand
  target := h.target

theorem responseAccepted_fans {i : Nat} {bytes : List Byte} (h : exec (.responseAccepted i bytes) s = .next t) :
    FansKept b p p s t := by
  cases h
  split
  · exact .refl s
  · next x flight =>
    split
    · exact .segment fun none_ => nomatch flight.symm.trans none_
    · exact .ofExchange flight (.endExchange _ _ fun v device => .answerHead _ _ _ fun bare => device ▸ bare)

/-- Every command but a CONFIGURE keeps the start limit, every fan standing and every target. -/
theorem exec_fans {c : Instr} (other : ∀ client tag body, c ≠ .configure client tag body) (h : exec c s = .next t) :
    FansKept b p p s t := by
  cases c with
  | configure client tag body => exact absurd rfl (other client tag body)
  | identify | look | requestKindUnknown => cases h; exact .request .rfl (.refl _)
  | amend => cases h; exact .request .rfl (serveAmend_fans _ _ _)
  | claim => cases h; exact .request .rfl (serveClaim_fans _ _ _)
  | release => cases h; exact .request .rfl (serveRelease_fans _ _ _)
  | retire => cases h; exact .request .rfl (serveRetire_fans _ _ _)
  | commission => cases h; exact .request .rfl (serveCommission_fans _ _ _)
  | steer => cases h; exact .request .rfl (serveSteer_fans _ _ _)
  | cancelSteer => cases h; exact .request .rfl (serveCancelSteer_fans _ _ _)
  | push => cases h; exact .request .rfl (servePush_fans _ _ _)
  | pop => cases h; exact .request .rfl (servePop_fans _ _ _)
  | declareFire => cases h; exact .request .rfl (serveDeclareFire_fans _ _ _)
  | clearFire => cases h; exact .request .rfl (serveClearFire_fans _ _ _)
  | quiet => cases h; exact .request .rfl (serveQuiet_fans _ _ _)
  | wake => cases h; exact .request .rfl (serveWake_fans _ _ _)
  | fetch => cases h; exact .request .rfl (serveFetch_fans _ _ _)
  | fetchDone => cases h; exact .request .rfl (.beside (by simp (disch := decide) [serveFetchDone]))
  | go => cases h; exact .request .rfl (serveGo_fans _ _ _)
  | restart => cases h; exact .request .rfl (serveRestart_fans _ _ _)
  | discardedFrame | readTransfer =>
    cases h
    split
    · exact .beside ((readOut_frame (by decide) _ _).2 (.refl _ s))
    · exact .beside (by simp (disch := decide))
  | coldReset cause => cases h; exact .coldReset cause s
  | partTimeTick | fireLineChange | kioskWaitExpiry | showUntil => cases h; exact .beside (by simp (disch := decide))
  | warmUntil => cases h; exact .endWarming s
  | fireLineActivation => cases h; exact .when (.activateFire s)
  | fireLineRelease => cases h; exact .when (.releaseFire s)
  | quietInChange asserted => cases h; exact quietInChange_fans asserted s
  | airEvaluation => cases h; exact .when (.airEvaluation s)
  | holdExpiry =>
    cases h
    split
    · exact .refl s
    · exact .when (.changeBayEnding _ _ _ s)
  | steerExpiry =>
    cases h
    split
    · exact .refl s
    · exact .when ((FansKept.retireSteer _ _ s).trans (.raise _ _ _ _))
  | stackEntryExpiry => exact stackEntryExpiry_fans h
  | startEnds => exact startEnds_fans h
  | rundownEnds => exact rundownEnds_fans h
  | brightUntil =>
    cases h
    split
    · exact .refl s
    · exact .when (.beside (by simp (disch := decide)))
  | lostTimeReached =>
    cases h
    split
    · exact .refl s
    · exact .when (.loseHead _ _ _ s)
  | pollBuild => exact pollBuild_fans h
  | responseAccepted => exact responseAccepted_fans h
  | miss =>
    cases h
    split
    · exact .refl s
    · exact .endExchange _ _ fun v _ => .missHead _ _ v
  | sweepResume | startupSweepBegin =>
    cases h
    exact .when (.segment fun none_ => (nextSweep_exchange _ _ _).trans none_)

/-- A CONFIGURE outside UNCONFIGURED keeps every target, and in UNCONFIGURED the tables alone. -/
theorem execConfigure_fans {client : Byte} {tag : Half} {body : List Byte} (sub : p ⊆ q)
    (excused : s.device = .unconfigured → q = Set.univ) (h : exec (.configure client tag body) s = .next t) :
    FansKept b p q s t := by
  cases h
  exact .request sub (serveConfigure_fans (s := received body s) sub excused _ _)

/-- A step keeps the start limit, every fan standing and every target, but for a CONFIGURE in UNCONFIGURED. -/
theorem step_fans (sub : p ⊆ q) (excused : s.device = .unconfigured →
    (∃ client tag body rest, s.pending = .configure client tag body :: rest) → q = Set.univ) (h : step s = .next t) :
    FansKept False p q s t := by
  rcases step_next h with ⟨_, rfl⟩ | ⟨c, rest, front, h⟩
  · exact (FansKept.refl t).widen sub
  · have taken : FansKept False p p s (s.setPending rest) := .beside (by simp (disch := decide))
    by_cases configures : ∃ client tag body, c = .configure client tag body
    · obtain ⟨client, tag, body, rfl⟩ := configures
      exact taken.trans (execConfigure_fans sub (fun bare => excused bare ⟨_, _, _, _, front⟩) h)
    · exact (taken.trans (exec_fans (fun client tag body e => configures ⟨client, tag, body, e⟩) h)).widen sub

end Sys2Proof.Machine
end

section
open Sys2Proof Sys2Proof.Machine

/-- Settles O45: the gate admits with room alone, every move leaves its fan standing, and a change of a zone's drive or
shortness is followed by the targets that rest on it; a CONFIGURE in UNCONFIGURED leaves the targets unsettled. -/
theorem startsStayWithinTheLimit : Obligations.StartsStayWithinTheLimit := by
  have kept {s t : State} (h : step s = .next t) : FansKept False ∅ Set.univ s t :=
    step_fans (Set.empty_subset _) (fun _ _ => rfl) h
  refine ⟨fun s t hs h => (kept h).gate id hs, fun s t hs h => (kept h).stand hs, fun s t hs allowed h => ?_⟩
  have settled : FansKept False ∅ ∅ s t := step_fans .rfl (fun bare ⟨client, tag, body, rest, front⟩ =>
    (allowed.elim (fun configured => configured bare) fun other => other client tag body rest front).elim) h
  exact onTargetBut_empty.1 (settled.target (onTargetBut_empty.2 hs))

end
